-- ==== Sys2Proof/Word.lean ====
section
/-!
DEFINITION. The word types of the Tsuraso S8 model.  The manual numbers registers, lines, digests and counter
blocks in bits, so they are bit vectors; lengths, counts and addresses of memory cells are natural numbers.
-/
namespace Sys2Proof

/-- One byte (R74, R46). -/
abbrev Byte := BitVec 8
/-- A 32-bit register of BAR0 (R10), or the bits of an FP32 value (R75). -/
abbrev U32 := BitVec 32
/-- A 64-bit quantity, a LO/HI pair (R11). -/
abbrev U64 := BitVec 64
/-- A seed, a counter block or an AES output block (R125). -/
abbrev U128 := BitVec 128
/-- A SHA3-256 digest (R289), kept as its 32 bytes with byte 0 in the most significant place. -/
abbrev Digest := BitVec 256
/-- One 64-byte line (R46), one flit (R67) or one vector register of 16 x 32 bits (R57); byte 0 is the least
significant byte (R74). -/
abbrev Line := BitVec 512
/-- A logical tile, coded as COORD: die [10:8], row [7:4], logical column [3:0] (R258). -/
abbrev TileId := BitVec 11
/-- A compute die, CD0-CD7 (R8). -/
abbrev DieId := BitVec 3

end Sys2Proof
end

