-- ==== Sys2Proof/Machine/Bits.lean ====
section
/-!
DEFINITION. Bit fields, byte order and saturating counts: the notation of R9, R10 and R74 as functions.
-/
namespace Sys2Proof.Machine

/-- Field [hi:lo] of a register word, as a number (R10). -/
def fld (w : U32) (hi lo : Nat) : Nat := (w.toNat >>> lo) % 2 ^ (hi + 1 - lo)

/-- The word with field [hi:lo] replaced by `v` (its low bits), every other bit kept (R10). -/
def setFld (w : U32) (hi lo v : Nat) : U32 :=
  let m : U32 := BitVec.ofNat 32 ((2 ^ (hi + 1 - lo) - 1) <<< lo)
  (w &&& ~~~m) ||| (BitVec.ofNat 32 (v <<< lo) &&& m)

/-- Bit `i` of a register word. -/
def bitOf (w : U32) (i : Nat) : Bool := w.getLsbD i

/-- The word with bit `i` set. -/
def setBit (w : U32) (i : Nat) : U32 := w ||| BitVec.ofNat 32 (1 <<< i)

/-- The word with bit `i` cleared. -/
def clrBit (w : U32) (i : Nat) : U32 := w &&& ~~~(BitVec.ofNat 32 (1 <<< i))

/-- The word with bit `i` put to `b`. -/
def putBit (w : U32) (i : Nat) (b : Bool) : U32 := if b then setBit w i else clrBit w i

/-- 1 for true, 0 for false. -/
def b2n (b : Bool) : Nat := if b then 1 else 0

/-- A counter that holds at `top` (the "holds at" counters of the register tables). -/
def satAdd (top v n : Nat) : Nat := if v + n ≤ top then v + n else top

/-- A 32-bit counter that holds at 0xFFFF_FFFF. -/
def sat32 (v : U32) (n : Nat) : U32 := BitVec.ofNat 32 (satAdd 0xFFFFFFFF v.toNat n)

/-- A field [hi:lo] that counts up and holds at all ones. -/
def satFld (w : U32) (hi lo n : Nat) : U32 :=
  setFld w hi lo (satAdd (2 ^ (hi + 1 - lo) - 1) (fld w hi lo) n)

/-- `n` bytes of `v`, least significant first (R74). -/
def leBytes : Nat → Nat → List Byte
  | 0, _ => []
  | n + 1, v => BitVec.ofNat 8 v :: leBytes n (v / 256)

/-- The number that bytes spell, least significant first (R74). -/
def ofLe : List Byte → Nat
  | [] => 0
  | b :: bs => b.toNat + 256 * ofLe bs

/-- `n` bytes of `v`, most significant first (R125). -/
def beBytes (n v : Nat) : List Byte := (leBytes n v).reverse

/-- The number that bytes spell, most significant first. -/
def ofBe (bs : List Byte) : Nat := ofLe bs.reverse

/-- Field of `n` bytes at byte `o` of a byte string, little-endian; bytes beyond the end read 0. -/
def leAt (bs : List Byte) (o n : Nat) : Nat := ofLe ((bs.drop o).take n)

/-- The digest as its 32 bytes, byte 0 first. -/
def digestBytes (d : Digest) : List Byte := beBytes 32 d.toNat

/-- Lane `j` (32 bits) of a line. -/
def lane (l : Line) (j : Nat) : U32 := l.extractLsb' (32 * j) 32

/-- The line with lane `j` replaced. -/
def setLane (l : Line) (j : Nat) (v : U32) : Line :=
  (l &&& ~~~((0xFFFFFFFF#512) <<< (32 * j))) ||| ((v.setWidth 512) <<< (32 * j))

/-- A line from its 16 lanes, lane 0 first. -/
def ofLanes : List U32 → Line
  | [] => 0#512
  | v :: vs => ((ofLanes vs) <<< 32) ||| v.setWidth 512

/-- The 16 lanes of a line, lane 0 first. -/
def lanes (l : Line) : List U32 := (List.range 16).map (lane l)

/-- Byte `j` of a line (R74). -/
def lineByte (l : Line) (j : Nat) : Byte := l.extractLsb' (8 * j) 8

/-- A line as its 64 bytes, byte 0 first. -/
def lineBytes (l : Line) : List Byte := leBytes 64 l.toNat

/-- A line from bytes, byte 0 first. -/
def ofLineBytes (bs : List Byte) : Line := BitVec.ofNat 512 (ofLe bs)

/-- Two's complement value of the low `n` bits of `v`. -/
def sext (n v : Nat) : Int :=
  let u := v % 2 ^ n
  if u < 2 ^ (n - 1) then (u : Int) else (u : Int) - (2 ^ n : Nat)

/-- The low `n` bits of a signed number. -/
def wrapInt (n : Nat) (v : Int) : Nat := (v % ((2 ^ n : Nat) : Int)).toNat

/-- ⌈a / b⌉. -/
def ceilDiv (a b : Nat) : Nat := (a + b - 1) / b

/-- Position of the leading one, counted from 1; 0 for 0. -/
def bitLen (n : Nat) : Nat := if n = 0 then 0 else Nat.log2 n + 1

/-- ASCII text as bytes. -/
def ascii (s : String) : List Byte := s.toList.map fun c => BitVec.ofNat 8 c.toNat

/-- Die of a COORD code (R258). -/
def dieOf (t : TileId) : DieId := t.extractLsb' 8 3
/-- Logical row of a COORD code. -/
def rowOf (t : TileId) : BitVec 4 := t.extractLsb' 4 4
/-- Logical column of a COORD code. -/
def colOf (t : TileId) : BitVec 4 := t.extractLsb' 0 4
/-- The COORD code of (die, row, column). -/
def coord (d : DieId) (r c : BitVec 4) : TileId := d ++ r ++ c

end Sys2Proof.Machine
end

