-- ==== Sys2Proof/Machine/Float.lean ====
section
/-!
DEFINITION. Number formats and rounding (03_formats.md, R72-R97): layouts, exact values, the three rounding
modes, overflow, conversions, MX blocks and EXP2.  Every operation forms its exact value and rounds once (R84).
-/
namespace Sys2Proof.Machine

/-- The status bits a rounding or an operation sets in TILE_ERR: FP_INVALID (R91) and FP_OVF (R93). -/
structure FpFlags where
  inv : Bool := false
  ovf : Bool := false
  deriving DecidableEq, Repr

/-- Both sets of bits. -/
def FpFlags.or (a b : FpFlags) : FpFlags := ⟨a.inv || b.inv, a.ovf || b.ovf⟩

/-- A rounding mode with its uniform: RNE, RTZ, or SR with the 16-bit uniform U of R86 (R82). -/
inductive RMode where
  | rne
  | rtz
  | sr (u : Nat)
  deriving DecidableEq, Repr

/-- An exact value: NaN, an infinity, or ± m × 2^e with a signed zero. -/
inductive FV where
  | nan
  | inf (neg : Bool)
  | fin (neg : Bool) (m : Nat) (e : Int)
  deriving DecidableEq, Repr

/-- A floating-point layout of R75. `kind` 0: infinities and NaNs at the top exponent; 1: E4M3; 2: E2M1. -/
structure Layout where
  ebits : Nat
  mbits : Nat
  bias : Nat
  kind : Nat
  deriving DecidableEq, Repr

def fp32 : Layout := ⟨8, 23, 127, 0⟩
def bf16 : Layout := ⟨8, 7, 127, 0⟩
def fp16 : Layout := ⟨5, 10, 15, 0⟩
def e4m3 : Layout := ⟨4, 3, 7, 1⟩
def e5m2 : Layout := ⟨5, 2, 15, 0⟩
def e2m1 : Layout := ⟨2, 1, 1, 2⟩

namespace Layout
variable (f : Layout)

def expMax : Nat := 2 ^ f.ebits - 1
/-- Sign bit in place. -/
def signBits (neg : Bool) : Nat := if neg then 2 ^ (f.ebits + f.mbits) else 0
/-- The magnitude bits of infinity (kind 0). -/
def infBits : Nat := f.expMax * 2 ^ f.mbits
/-- The default NaN (R75, R90); E2M1 has none and writes +0 (R89). -/
def nanBits : Nat :=
  if f.kind = 0 then f.infBits + 2 ^ (f.mbits - 1) else if f.kind = 1 then 2 ^ (f.ebits + f.mbits) - 1 else 0
/-- The magnitude bits of the maximum finite value. -/
def maxBits : Nat :=
  if f.kind = 0 then f.infBits - 1 else if f.kind = 1 then 2 ^ (f.ebits + f.mbits) - 2 else 2 ^ (f.ebits + f.mbits) - 1
/-- Least exponent of a unit in the last place: that of the subnormals (R76). -/
def qmin : Int := 1 - (f.bias : Int) - f.mbits

/-- The exact value that an encoding of this layout holds (R75). -/
def value (b : Nat) : FV :=
  let neg := (b / 2 ^ (f.ebits + f.mbits)) % 2 = 1
  let ex := (b / 2 ^ f.mbits) % 2 ^ f.ebits
  let ma := b % 2 ^ f.mbits
  if f.kind = 0 ∧ ex = f.expMax then (if ma = 0 then .inf neg else .nan)
  else if f.kind = 1 ∧ ex = f.expMax ∧ ma = 2 ^ f.mbits - 1 then .nan
  else if ex = 0 then .fin neg ma f.qmin
  else .fin neg (2 ^ f.mbits + ma) ((ex : Int) - f.bias - f.mbits)

end Layout

/-- m × 2^e with e lowered to `e'` ≤ e. -/
def alignTo (m : Nat) (e e' : Int) : Nat := m * 2 ^ (e - e').toNat

/-- The rounding of m × 2^e, plus a nonzero amount below one unit of m when `sticky`, to a multiple of 2^q
(R82, R85): the result in units of 2^q. -/
def roundUnits (mode : RMode) (m : Nat) (e : Int) (sticky : Bool) (q : Int) : Nat :=
  if q ≤ e then alignTo m e q
  else
    let k := (q - e).toNat
    let t := m / 2 ^ k
    let r := m % 2 ^ k
    match mode with
    | .rtz => t
    | .rne =>
      if 2 * r > 2 ^ k ∨ (2 * r = 2 ^ k ∧ (sticky ∨ t % 2 = 1)) then t + 1 else t
    | .sr u => if r * 2 ^ 16 / 2 ^ k + u % 2 ^ 16 ≥ 2 ^ 16 then t + 1 else t

/-- The exponent of a unit in the last place for magnitude m × 2^e in layout `f`, as if the exponent range had
no upper limit (R85, R87). -/
def Layout.ulpExp (f : Layout) (m : Nat) (e : Int) : Int :=
  max ((bitLen m : Int) + e - 1 - f.mbits) f.qmin

/-- The result of an overflowing rounding (R87, R91, R93). -/
def Layout.overflow (f : Layout) (mode : RMode) (neg sat : Bool) : Nat × FpFlags :=
  if f.kind = 0 then
    (match mode with
     | .rtz => (f.signBits neg + f.maxBits, {})
     | _ => (f.signBits neg + f.infBits, { ovf := true }))
  else if f.kind = 1 ∧ sat = false then (f.nanBits, { inv := true, ovf := true })
  else (f.signBits neg + f.maxBits, {})

/-- Round ± m × 2^e once to layout `f` (R84, R85, R87); `sticky` as in `roundUnits`. -/
def Layout.round (f : Layout) (mode : RMode) (sat neg : Bool) (m : Nat) (e : Int) (sticky : Bool := false) :
    Nat × FpFlags :=
  if m = 0 then (f.signBits neg, {})
  else
    let q0 := f.ulpExp m e
    let t0 := roundUnits mode m e sticky q0
    let up := t0 = 2 ^ (f.mbits + 1)
    let t := if up then 2 ^ f.mbits else t0
    let q := if up then q0 + 1 else q0
    if t < 2 ^ f.mbits then (f.signBits neg + t, {})
    else
      let ex := (q + f.mbits + f.bias).toNat
      let bits := ex * 2 ^ f.mbits + (t - 2 ^ f.mbits)
      if f.maxBits < bits then f.overflow mode neg sat
      else (f.signBits neg + bits, {})

/-- A value written in layout `f` (R84, R89, R90). `sat` is the SAT bit of an operation that writes E4M3. -/
def Layout.write (f : Layout) (mode : RMode) (sat : Bool) (v : FV) : Nat × FpFlags :=
  match v with
  | .nan => (f.nanBits, { inv := f.kind = 2 })
  | .inf neg =>
    if f.kind = 0 then (f.signBits neg + f.infBits, {})
    else if f.kind = 1 ∧ sat = false then (f.nanBits, { inv := true })
    else (f.signBits neg + f.maxBits, {})
  | .fin neg m e => f.round mode sat neg m e

/-- Exact sum of two values (R91, R94), with whether the sum is an invalid operation. -/
def FV.add : FV → FV → FV × Bool
  | .nan, _ => (.nan, false)
  | _, .nan => (.nan, false)
  | .inf a, .inf b => if a = b then (.inf a, false) else (.nan, true)
  | .inf a, _ => (.inf a, false)
  | _, .inf b => (.inf b, false)
  | .fin a m e, .fin b n g =>
    let q := min e g
    let x : Int := if a then -(alignTo m e q : Int) else alignTo m e q
    let y : Int := if b then -(alignTo n g q : Int) else alignTo n g q
    let z := x + y
    if z = 0 then (.fin (a && b && decide (m = 0) && decide (n = 0)) 0 q, false)
    else (.fin (decide (z < 0)) z.natAbs q, false)

/-- Exact product (R91). -/
def FV.mul : FV → FV → FV × Bool
  | .nan, _ => (.nan, false)
  | _, .nan => (.nan, false)
  | .inf a, .inf b => (.inf (a != b), false)
  | .inf a, .fin b n _ => if n = 0 then (.nan, true) else (.inf (a != b), false)
  | .fin a m _, .inf b => if m = 0 then (.nan, true) else (.inf (a != b), false)
  | .fin a m e, .fin b n g => (.fin (a != b) (m * n) (e + g), false)

def FV.neg : FV → FV
  | .nan => .nan
  | .inf a => .inf (!a)
  | .fin a m e => .fin (!a) m e

/-- Value of FP32 bits. -/
def f32v (b : U32) : FV := fp32.value b.toNat
/-- A value rounded to FP32, with the status bits. -/
def toF32 (mode : RMode) (v : FV) : U32 × FpFlags :=
  let r := fp32.write mode false v
  (BitVec.ofNat 32 r.1, r.2)

/-- The default NaN of FP32 (R75). -/
def nan32 : U32 := 0x7FC00000#32
def pinf32 : U32 := 0x7F800000#32
def ninf32 : U32 := 0xFF800000#32
def isNan32 (b : U32) : Bool := 0x7F800000 < (b &&& 0x7FFFFFFF#32).toNat
def isInf32 (b : U32) : Bool := (b &&& 0x7FFFFFFF#32) = 0x7F800000#32
def isFin32 (b : U32) : Bool := (b &&& 0x7FFFFFFF#32).toNat < 0x7F800000
def isZero32 (b : U32) : Bool := (b &&& 0x7FFFFFFF#32) = 0#32
def neg32 (b : U32) : U32 := b ^^^ 0x80000000#32

/-- FP32 addition, rounded once (R84, R91, R93, R94). -/
def fadd (mode : RMode) (a b : U32) : U32 × FpFlags :=
  let s := FV.add (f32v a) (f32v b)
  let r := toF32 mode s.1
  (r.1, r.2.or { inv := s.2 })

def fsub (mode : RMode) (a b : U32) : U32 × FpFlags := fadd mode a (if isNan32 b then b else neg32 b)

/-- FP32 multiplication, rounded once. -/
def fmul (mode : RMode) (a b : U32) : U32 × FpFlags :=
  let s := FV.mul (f32v a) (f32v b)
  let r := toF32 mode s.1
  (r.1, r.2.or { inv := s.2 })

/-- VA × VB + VC with one rounding (R84, R263). -/
def ffma (mode : RMode) (a b c : U32) : U32 × FpFlags :=
  let p := FV.mul (f32v a) (f32v b)
  let s := FV.add p.1 (f32v c)
  let r := toF32 mode s.1
  (r.1, r.2.or { inv := p.2 || s.2 })

/-- FP32 operations under RNE, without the status bits. -/
def addR (a b : U32) : U32 := (fadd .rne a b).1
def subR (a b : U32) : U32 := (fsub .rne a b).1
def mulR (a b : U32) : U32 := (fmul .rne a b).1

/-- Order of non-NaN FP32 values as integers, the two zeros equal (R156). -/
def fkey (b : U32) : Int :=
  let m := ((b &&& 0x7FFFFFFF#32).toNat : Int)
  if b.getLsbD 31 then -m else m

/-- The order of R90, −0 below +0. -/
def fkeyZ (b : U32) : Int :=
  let m := ((b &&& 0x7FFFFFFF#32).toNat : Int)
  if b.getLsbD 31 then -m - 1 else m

/-- MAX and MIN of R90. -/
def fmax (a b : U32) : U32 :=
  if isNan32 a || isNan32 b then nan32 else if fkeyZ a < fkeyZ b then b else a
def fmin (a b : U32) : U32 :=
  if isNan32 a || isNan32 b then nan32 else if fkeyZ b < fkeyZ a then b else a

/-- a < b on FP32, false on NaN. -/
def flt (a b : U32) : Bool := !isNan32 a && !isNan32 b && decide (fkey a < fkey b)
def fle (a b : U32) : Bool := !isNan32 a && !isNan32 b && decide (fkey a ≤ fkey b)

/-- ± m × 2^e rounded to an integer by a mode (R88: the unit of rounding is 1). -/
def roundToInt (mode : RMode) (neg : Bool) (m : Nat) (e : Int) : Int :=
  let t := roundUnits mode m e false 0
  if neg then -(t : Int) else t

/-- Conversion to a two's complement integer of `n` bits: NaN gives 0, and the rest saturate (R87, R89). -/
def toIntFmt (n : Nat) (mode : RMode) (v : FV) : Nat :=
  let top : Int := 2 ^ (n - 1) - 1
  let bot : Int := -(2 ^ (n - 1))
  match v with
  | .nan => 0
  | .inf neg => wrapInt n (if neg then bot else top)
  | .fin neg m e => wrapInt n (max bot (min top (roundToInt mode neg m e)))

/-- The value of an element with format code FMT (R73); E8M0 0xFF is NaN (R77). -/
def fmtValue (fmt b : Nat) : Option FV :=
  match fmt with
  | 0 => some (fp32.value b)
  | 1 => some (bf16.value b)
  | 2 => some (fp16.value b)
  | 3 => some (e4m3.value b)
  | 4 => some (e5m2.value b)
  | 5 => some (e2m1.value b)
  | 6 => some (if b % 256 = 255 then .nan else .fin false 1 ((b % 256 : Nat) - 127))
  | 7 => let v := sext 8 b; some (.fin (decide (v < 0)) v.natAbs 0)
  | 8 => let v := sext 32 b; some (.fin (decide (v < 0)) v.natAbs 0)
  | _ => none

/-- Write a value in format code FMT: none for E8M0, whose conversion the manual does not define, and for the
unassigned codes (R73). -/
def fmtWrite (fmt : Nat) (mode : RMode) (sat : Bool) (v : FV) : Option (Nat × FpFlags) :=
  match fmt with
  | 0 => some (fp32.write mode sat v)
  | 1 => some (bf16.write mode sat v)
  | 2 => some (fp16.write mode sat v)
  | 3 => some (e4m3.write mode sat v)
  | 4 => some (e5m2.write mode sat v)
  | 5 => some (e2m1.write mode sat v)
  | 7 => some (toIntFmt 8 mode v, {})
  | 8 => some (toIntFmt 32 mode v, {})
  | _ => none

/-- Bits of an element of format code FMT (R73). -/
def fmtBits : Nat → Nat
  | 0 => 32 | 1 => 16 | 2 => 16 | 3 => 8 | 4 => 8 | 5 => 4 | 6 => 8 | 7 => 8 | 8 => 32 | _ => 0

/-- floor(log2) of a finite nonzero FP32 magnitude. -/
def floorLog2 (b : U32) : Int :=
  match f32v b with
  | .fin _ m e => (bitLen m : Int) - 1 + e
  | _ => 0

/-- |x| as FP32. -/
def abs32 (b : U32) : U32 := b &&& 0x7FFFFFFF#32

/-- The largest magnitude of a list of finite values. -/
def maxAbs32 (xs : List U32) : U32 :=
  xs.foldl (fun a x => if (abs32 a).toNat < (abs32 x).toNat then abs32 x else abs32 a) 0#32

/-- The scale of MX quantisation for a nonzero amax (R79). -/
def mxScale (amax : U32) : Nat := (floorLog2 amax - 2 + 127).toNat

/-- MX quantisation of 32 FP32 values (R79): the scale and the 4-bit elements. `mode i` is the element's
rounding mode with its uniform. -/
def mxQuantise (xs : List U32) (mode : Nat → RMode) : Nat × List Nat :=
  if xs.any (fun x => isNan32 x || isInf32 x) then (0xFF, xs.map fun _ => 0)
  else
    let amax := maxAbs32 xs
    if isZero32 amax then (0, xs.map fun _ => 0)
    else
      let sc := mxScale amax
      (sc, xs.mapIdx fun i x =>
        match f32v x with
        | .fin neg m e => (e2m1.round (mode i) false neg m (e + 127 - sc)).1
        | _ => 0)

/-! ### EXP2 -/

/-- Greatest x below 2^n with x^64 ≤ v, found bit by bit. -/
def root64 : Nat → Nat → Nat → Nat
  | 0, acc, _ => acc
  | n + 1, acc, v => root64 n (if (acc + 2 ^ n) ^ 64 ≤ v then acc + 2 ^ n else acc) v

/-- T[k]: the integer nearest to 2^(k/64) × 2^30 (R95). -/
def exp2T (k : Nat) : Nat :=
  let v := 2 ^ (30 * 64 + k)
  let r := root64 32 0 v
  if (2 * r + 1) ^ 64 ≤ v * 2 ^ 64 then r + 1 else r

/-- ln 2 in units of 2^-200, from Σ 1 / (k 2^k). -/
def ln2Fx : Nat := (List.range 220).foldl (fun a i => a + 2 ^ 200 / ((i + 1) * 2 ^ (i + 1))) 0

/-- Nearest integer to n / d. -/
def nearest (n d : Nat) : Nat := (2 * n + d) / (2 * d)

/-- C1, C2 and C3: the integers nearest to (ln 2)^j / j! × 2^30 (R95). -/
def exp2C (j : Nat) : Nat :=
  match j with
  | 1 => nearest (ln2Fx * 2 ^ 30) (2 ^ 200)
  | 2 => nearest (ln2Fx ^ 2 * 2 ^ 30) (2 * 2 ^ 400)
  | _ => nearest (ln2Fx ^ 3 * 2 ^ 30) (6 * 2 ^ 600)

/-- EXP2 of R96, with the FP_OVF bit of R93. -/
def exp2 (y : U32) : U32 × FpFlags :=
  match f32v y with
  | .nan => (nan32, {})
  | .inf neg => (if neg then 0#32 else pinf32, {})
  | .fin neg m e =>
    if !neg && decide (fkey y ≥ fkey 0x43000000#32) then (pinf32, { ovf := true })
    else if neg && decide (fkey y < fkey 0xC3200000#32) then (0#32, {})
    else
      let i := roundToInt .rne neg m (e + 24)
      let n := i / 2 ^ 24
      let f := (i % 2 ^ 24).toNat
      let k := f / 2 ^ 18
      let r := f % 2 ^ 18
      let q := 2 ^ 30 + exp2C 1 * r / 2 ^ 24 + exp2C 2 * r * r / 2 ^ 48 + exp2C 3 * r * r * r / 2 ^ 72
      let w := fp32.round .rne false false (exp2T k * q) (n - 60)
      (BitVec.ofNat 32 w.1, w.2)

/-! ### Quotients and square roots, each rounded once by RNE -/

/-- Integer square root, bit by bit. -/
def isqrtAux : Nat → Nat → Nat → Nat
  | 0, acc, _ => acc
  | n + 1, acc, v => isqrtAux n (if (acc + 2 ^ n) * (acc + 2 ^ n) ≤ v then acc + 2 ^ n else acc) v

def isqrt (v : Nat) : Nat := isqrtAux (bitLen v / 2 + 1) 0 v

/-- The quotient of two naturals times 2^e, rounded once to FP32 (R208, R210); the divisor is not 0. -/
def quotR (num den : Nat) (e : Int := 0) : U32 :=
  if num = 0 ∨ den = 0 then 0#32
  else
    let k := 64 + bitLen den
    let q := num * 2 ^ k / den
    let st := (num * 2 ^ k) % den ≠ 0
    BitVec.ofNat 32 (fp32.round .rne false false (2 * q + b2n st) (e - k - 1)).1

/-- FP32 quotient of finite operands with a nonzero divisor, rounded once. -/
def divR (a b : U32) : U32 :=
  match f32v a, f32v b with
  | .fin x m e, .fin y n g =>
    let q := quotR m n (e - g)
    if x != y then q ||| 0x80000000#32 else q
  | _, _ => nan32

/-- Correctly rounded FP32 square root of a value at or above zero (R208). -/
def sqrtR (a : U32) : U32 :=
  match f32v a with
  | .fin false m e =>
    if m = 0 then a
    else
      let e1 := if e % 2 = 0 then e else e - 1
      let m1 := if e % 2 = 0 then m else 2 * m
      let v := m1 * 2 ^ 120
      let r := isqrt v
      BitVec.ofNat 32 (fp32.round .rne false false (2 * r + b2n (r * r ≠ v)) (e1 / 2 - 60 - 1)).1
  | .fin true m _ => if m = 0 then a else nan32
  | .inf false => a
  | _ => nan32

/-- A fixed-point integer times 2^e, rounded once to FP32 (R183). -/
def ofFixed (v : Int) (e : Int) : U32 :=
  BitVec.ofNat 32 (fp32.round .rne false (decide (v < 0)) v.natAbs e).1

/-- The exact product m × x × 2^e rounded to an integer by RNE (R200, R211); none for a non-finite x. -/
def prodToInt (m : Int) (x : U32) (e : Int) : Option Int :=
  match f32v x with
  | .fin neg n g => some (roundToInt .rne (neg != decide (m < 0)) (n * m.natAbs) (g + e))
  | _ => none

end Sys2Proof.Machine
end

