-- ==== Sys2Proof/Machine/Tab.lean ====
section
/-!
DEFINITION. Sparse tables: a list of keys and values, read with the value an unlisted key holds.
-/
namespace Sys2Proof.Machine

/-- A table of values by key; a key that is not listed holds the default its reader names. -/
abbrev Tab (κ α : Type) := List (κ × α)

/-- The value at key `k`, or `d` where none is listed. -/
def tget {κ α : Type} [DecidableEq κ] : Tab κ α → α → κ → α
  | [], d, _ => d
  | (j, v) :: t, d, k => if j = k then v else tget t d k

/-- The table without key `k`. -/
def tdel {κ α : Type} [DecidableEq κ] : Tab κ α → κ → Tab κ α
  | [], _ => []
  | (j, v) :: t, k => if j = k then tdel t k else (j, v) :: tdel t k

/-- The table with `v` at key `k`. -/
def tset {κ α : Type} [DecidableEq κ] (t : Tab κ α) (k : κ) (v : α) : Tab κ α := (k, v) :: tdel t k

/-- The value at key `k` where one is listed. -/
def tfind {κ α : Type} [DecidableEq κ] : Tab κ α → κ → Option α
  | [], _ => none
  | (j, v) :: t, k => if j = k then some v else tfind t k

/-- The keys that are listed. -/
def tkeys {κ α : Type} (t : Tab κ α) : List κ := t.map Prod.fst

@[simp] theorem tget_tdel_ne {κ α : Type} [DecidableEq κ] (t : Tab κ α) (d : α) {j k : κ} (h : j ≠ k) :
    tget (tdel t j) d k = tget t d k := by
  induction t with
  | nil => rfl
  | cons p t ih =>
    obtain ⟨i, v⟩ := p
    by_cases hij : i = j
    · subst hij; simp [tdel, tget, h, ih]
    · by_cases hik : i = k
      · subst hik; simp [tdel, tget, hij]
      · simp [tdel, tget, hij, hik, ih]

@[simp] theorem tget_tset_same {κ α : Type} [DecidableEq κ] (t : Tab κ α) (d v : α) (k : κ) :
    tget (tset t k v) d k = v := by simp [tset, tget]

@[simp] theorem tget_tset_ne {κ α : Type} [DecidableEq κ] (t : Tab κ α) (d v : α) {j k : κ} (h : j ≠ k) :
    tget (tset t j v) d k = tget t d k := by simp [tset, tget, h]

end Sys2Proof.Machine
end

