-- ==== Sys2Proof/Machine/TileState.lean ====
section
/-!
DEFINITION. The data of an Aethold image (10_schedule_contract.md) and the state of one compute tile
(02, 04, 05, 06, 07 and 08).  Widths of fields are those of the tables named at each structure.
-/
namespace Sys2Proof.Machine

/-! ### Image data -/

/-- Tree descriptor (R260). -/
structure TreeDesc where
  site : Nat := 0
  trm : Nat := 0
  preload : Bool := false
  stats : Bool := false
  split : Bool := false
  fast : Bool := false
  keyslot : Nat := 0
  fmtA : Nat := 0
  fmtB : Nat := 0
  outFmt : Nat := 0
  rmode : Nat := 0
  sat : Bool := false
  stackBank : Nat := 0
  stackLine : Nat := 0
  leaves : Nat := 1
  firstLeaf : Nat := 0
  splitLevel : Nat := 0
  statVreg : Nat := 0
  statsLine : Nat := 0
  c : U32 := 0
  nOut : Nat := 1
  deriving DecidableEq, Repr

/-- SP descriptor (R261). -/
structure SpDesc where
  site : Nat := 0
  vreg : Nat := 0
  sub : Nat := 0
  p0 : Nat := 0
  p1 : Nat := 0
  p2 : Nat := 0
  deriving DecidableEq, Repr

/-- Tile record (R258). -/
structure TileRec where
  coord : Nat := 0
  bstream : Nat := 0
  bundles : Nat := 0
  tds : List TreeDesc := []
  spds : List SpDesc := []
  handles : List Nat := []
  svInit : List Nat := []
  svStep : List Nat := []
  partBank : Nat := 0
  tagBank : Nat := 0
  partLine : Nat := 0
  partLines : Nat := 0
  tagLine : Nat := 0
  /-- some update of the tile's program carries END (R192, R205) -/
  ends : Bool := false
  deriving DecidableEq, Repr

/-- HBM stream descriptor (R269). -/
structure StreamDesc where
  base : Nat := 0
  id : Nat := 0
  length : Nat := 0
  tile : Nat := 0
  rowBytes : Nat := 0
  rowStride : Nat := 0
  bufBank : Nat := 0
  bufNbanks : Nat := 0
  bufLine : Nat := 0
  bufLines : Nat := 0
  rate : Nat := 0
  kind : Nat := 0
  fwd : Bool := false
  rsv : Bool := false
  deriving DecidableEq, Repr

/-- Site-table entry (R271). -/
structure Site where
  site : Nat := 0
  kind : Nat := 0
  flags : Nat := 0
  base : Nat := 0
  keyStep : Nat := 0
  deriving DecidableEq, Repr

/-- Sync-counter allocation entry (R272). -/
structure SyncAlloc where
  index : Nat := 0
  cls : Nat := 0
  agent : Nat := 0
  init : Nat := 0
  deriving DecidableEq, Repr

/-- Checkpoint-map entry (R273). -/
structure CkptEntry where
  kind : Nat := 0
  flags : Nat := 0
  tile : Nat := 0
  start : Nat := 0
  len : Nat := 0
  deriving DecidableEq, Repr

/-- Checkpoint map (R273). -/
structure CkptMap where
  interval : Nat := 0
  mirrorA : Nat := 0
  mirrorB : Nat := 0
  region : Nat := 0
  entries : List CkptEntry := []
  deriving DecidableEq, Repr

/-- Maintenance declaration (R274). -/
structure MaintDecl where
  slot : Nat := 0
  length : Nat := 0
  tasks : Nat := 0
  deriving DecidableEq, Repr

/-- Region-table entry (R270). -/
structure Region where
  id : Nat := 0
  kind : Nat := 0
  base : Nat := 0
  len : Nat := 0
  deriving DecidableEq, Repr

/-- Placement of one resident variable on a unit (R177, R190, R192). -/
structure Place where
  tile : Nat := 0
  unit : Nat := 0
  var : Nat := 0
  chain : Nat := 0
  colour : Nat := 0
  group : Nat := 0
  block : Nat := 0
  deriving DecidableEq, Repr

/-- Range of load records of one tile (R179), for one rotation block, with its streamed region (R182). -/
structure LedgerRange where
  tile : Nat := 0
  block : Nat := 0
  first : Nat := 0
  count : Nat := 0
  streamBase : Nat := 0
  streamLen : Nat := 0
  deriving DecidableEq, Repr

/-- Roaster descriptor (R209). -/
structure RoasterDesc where
  a0 : U32 := 0
  dt : U32 := 0
  c0 : U32 := 0
  autoC0 : Bool := false
  cs : U32 := 0
  nptT : Nat := 1
  nptA : Nat := 1
  profile : Nat := 0
  init : Nat := 0
  traceInt : Nat := 0
  traceCap : Nat := 1
  traceBase : Nat := 0
  cont : Bool := false
  traceRaw : Bool := false
  xchg : Nat := 0
  e : Nat := 1
  deriving DecidableEq, Repr

/-- Field-engine descriptors (section 0x0007): placement map, ledger descriptor, Roaster descriptor (R177-R209). -/
structure FeDesc where
  mode : Nat := 0
  nvar : Nat := 0
  nchain : Nat := 1
  ncol : Nat := 1
  policy : Nat := 0
  places : List Place := []
  ranges : List LedgerRange := []
  recBase : Nat := 0
  biasBase : Nat := 0
  stateRegion : Nat := 0
  residentRegion : Nat := 0
  srcBank : Nat := 0
  srcLine : Nat := 0
  rotation : List (Nat × Nat) := []
  roaster : RoasterDesc := {}
  deriving DecidableEq, Repr, Inhabited

/-- A cross-module barrier that an image names (R372): its ID, its root rank, the local counter and how many participants
raise it in a round, and the EXTERNAL counter that releases it. -/
structure BarrierDesc where
  id : Nat := 0
  root : Nat := 0
  counter : Nat := 0
  parts : Nat := 1
  ext : Nat := 0
  deriving DecidableEq, Repr

/-- Image header (R252). -/
structure Header where
  contVer : Nat := 0
  nsv : Nat := 0
  grade : Nat := 0
  profile : Nat := 0
  cls : Nat := 0
  flags : Nat := 0
  moduleCount : Nat := 0
  sections : Nat := 0
  seedDecl : Nat := 0
  freshDecl : Nat := 0
  imageLen : Nat := 0
  footprint : Nat := 0
  variant : Nat := 0
  logical : Nat := 0
  digest : Nat := 0
  deriving DecidableEq, Repr

/-- A verified image: its header and sections (R252-R274). -/
structure Image where
  addr : Nat := 0
  hdr : Header := {}
  recs : List TileRec := []
  streams : List StreamDesc := []
  sites : List Site := []
  syncs : List SyncAlloc := []
  ckpt : CkptMap := {}
  maint : List MaintDecl := []
  fe : FeDesc := {}
  regions : List Region := []
  barriers : List BarrierDesc := []
  /-- SUB.FIXED of its ADMITs, where it has any (R343) -/
  admitFixed : Option Bool := none
  /-- the die-to-die links that its traffic crosses, by die and number (R227) -/
  links : List (Nat × Nat) := []
  deriving DecidableEq, Repr

/-- A die-to-die link by one of its ends: the die west of it, or above it, or at the IOD (R222, R248). -/
def linkName (die k : Nat) : Nat × Nat :=
  if k = 0 ∧ die % 4 ≠ 0 then (die - 1, 1) else if k = 2 ∧ 4 ≤ die then (die - 4, 2) else (die, k)

/-- The links between two dies: along the row of the first, then across (notes/assumptions/48.md). -/
def diePath (a b : Nat) : List (Nat × Nat) :=
  let lo := min (a % 4) (b % 4)
  ((List.range (max (a % 4) (b % 4) - lo)).map fun i => (a / 4 * 4 + lo + i, 1)) ++ (if a / 4 = b / 4 then [] else [(b % 4, 2)])

/-! ### Tile state -/

/-- A node of a set's tree that is due in a beat (R107): formed from its two children, or taken from its left
child alone (R99). A left child of level 4 or more is read from its stack line when the node forms. -/
structure NodeJob where
  due : Nat
  level : Nat
  idx : Nat
  left : Option Line
  right : Line
  pass : Bool
  deriving DecidableEq, Repr

/-- A statistics node that is due in a beat: formed from its two children, or taken from its left child alone; its value
holds (m, s) of block row i in lanes 2i and 2i + 1 (R114). -/
structure StatJob where
  due : Nat
  tdIx : Nat
  td : TreeDesc
  level : Nat
  idx : Nat
  right : Line
  pass : Bool
  deriving DecidableEq, Repr

/-- A drain in progress (R109, R113-R117). -/
structure Drain where
  stats : Bool
  issued : Nat
  deriving DecidableEq, Repr

/-- An exact sum in the making (R91, R92): the sum of its finite addends, which other addends it has met, and whether one of its products
is an invalid operation. -/
structure Acc where
  sum : FV := .fin false 0 0
  nan : Bool := false
  pinf : Bool := false
  ninf : Bool := false
  inv : Bool := false
  deriving DecidableEq, Repr

/-- An accumulator set with the tree it holds (R55, R99-R117, R262). -/
structure AccSet where
  isOpen : Bool := false
  tdIx : Nat := 0
  td : TreeDesc := {}
  block : Nat := 0
  keyStep : Nat := 0
  next : Nat := 0
  part : Tab Nat Line := []
  half : Option (List Acc) := none
  int : List Int := []
  jobs : List NodeJob := []
  root : Option (Nat × Line) := none
  drain : Option Drain := none
  out : Line := 0
  outTag : Option U64 := none
  deriving DecidableEq, Repr

/-- The Flowstone accumulator (R58-R60): its sum, the sticky flags, and whether an addend was infinite. -/
structure Flow where
  val : Int := 0
  nan : Bool := false
  pinf : Bool := false
  ninf : Bool := false
  infIn : Bool := false
  count : Nat := 0
  deriving DecidableEq, Repr

/-- A key slot of the CG core (R62, R131): the seed it holds and the beat from which its round keys are expanded. -/
structure KeySlot where
  seed : U128 := 0
  ready : Nat := 0
  loaded : Bool := false
  deriving DecidableEq, Repr

/-- A counter block on its way through the AES pipeline for a vector draw (R61, R139, R145). -/
structure CgIssue where
  beat : Nat
  seed : U128
  ctr : U128
  kind : Nat
  thr : Nat
  vreg : Nat
  lane0 : Nat
  deriving DecidableEq, Repr

/-- Tabled draws between stage 1 and stage 2 of the transform unit (R144, R145). -/
structure TabDraw where
  beat : Nat
  kind : Nat
  vreg : Nat
  lane0 : Nat
  u24 : List Nat
  deriving DecidableEq, Repr

/-- Key slot, site, stream and element that a stochastic rounding is keyed by (R86). -/
structure SrKey where
  slot : Nat
  site : Nat
  strm : Nat
  elem : Nat
  deriving DecidableEq, Repr, Inhabited

/-- What the SECDED code finds in a scratchpad line (R50): its 64-bit words with one wrong bit, and those with two. -/
structure Ecc where
  ce : BitVec 8 := 0
  ue : BitVec 8 := 0
  deriving DecidableEq, Repr

/-- A register write of the current beat, which later beats see (R48, R145). -/
inductive RegW where
  | vec (n : Nat) (v : Line) (tag : Option U64)
  | lane (n j : Nat) (v : U32)
  | mo (n : Nat) (v : Line)
  | mask (n : Nat) (v : BitVec 16)
  | drain (set : Bool) (v : Line) (tag : Option U64)
  | ix (n v : Nat)
  | ixInc (n : Nat)
  | cgx (n v : Nat)
  | cgxInc (n k : Nat)
  deriving DecidableEq, Repr

/-- A 64-byte flit with its node tag where it carries one (R67, R117). -/
structure Flit where
  data : Line
  tag : Option U64 := none
  deriving DecidableEq, Repr

/-- Where a receive puts its flit, or a send takes its line (R265). -/
inductive NwEnd where
  | bank (bank line : Nat)
  | vec (n : Nat)
  deriving DecidableEq, Repr

/-- What a tile's current beat waits for (R14, R18, R70). -/
inductive Wait where
  | take (bank line reg : Nat) (matrix : Bool)
  | recv (port : Nat) (dst : NwEnd)
  | fwd (port mask : Nat)
  | addf (in1 in2 out slot : Nat)
  | ge (c : BitVec 13) (thr : U32)
  /-- a WAIT_GE that only a saturated value would meet (R232) -/
  | stuck (c : BitVec 13) (thr : U32)
  | key (entry slot : Nat)
  | fresh (entry : Nat)
  | seval (d : SpDesc) (ce ue : BitVec 16)
  /-- an output that its receiver has not acknowledged (R14) -/
  | out (port : Nat) (f : Flit)
  | sieve (stream vreg : Nat)
  | dma (kind : Nat) (d : SpDesc)
  | bxSend (d : SpDesc)
  | bxArrive (d : SpDesc)
  /-- lanes 8 up and 12 up of the admissions made so far -/
  | admission (d : SpDesc) (vals : List (U32 × U32)) (late : Option (Nat × BitVec 4))
  | reply (kind : Nat) (d : SpDesc)
  | bundle
  deriving DecidableEq, Repr

/-- A unit of the field-engine slice (R177, R183, R199). -/
structure FeUnit where
  var : Nat := 0
  chain : Nat := 0
  colour : Nat := 0
  group : Nat := 0
  s : Bool := false
  x : U32 := 0
  y : U32 := 0
  acc : Int := 0
  base : Int := 0
  cnt : Nat := 0
  deriving DecidableEq, Repr

/-- A ledger entry in resident form (R181): target unit, source-table index, mantissa and its block's exponent. -/
structure Entry where
  tgt : Nat
  src : Nat
  m : Int
  xe : Nat
  deriving DecidableEq, Repr

/-- The field-engine slice of a tile (R66, R177-R206): its units, the ledger entries in its slice, those of its streamed part,
the place reached in each ledger stream (lines taken, exponent and entries left of the open block), its source table
((chain, variable) in order), its END count with the count at the start of the step, and its place in the rotation table; and the +1
counters of units that hold no variable of the resident block. -/
structure FeTile where
  units : Tab Nat FeUnit := []
  idle : Tab Nat Nat := []
  entries : List Entry := []
  streamed : List Entry := []
  spos : Tab Nat (Nat × Nat × Nat) := []
  srcs : List (Nat × Nat) := []
  ends : Nat := 0
  ends0 : Nat := 0
  rot : Option Nat := none
  passes : Nat := 0
  deriving DecidableEq, Repr

/-- What a tile does (R70 STATE, WAIT and HOLD apart, which follow from the beat it is in). -/
inductive TMode where
  | idle | run | frozen | halted | done | retired
  deriving DecidableEq, Repr

/-- A compute tile (02). -/
structure Tile where
  mode : TMode := .idle
  mid : Bool := false
  freezeReq : Bool := false
  beat : Nat := 0
  /-- index of the current bundle in the bundle stream, and bundles that have arrived (R43, R45) -/
  bpos : Nat := 0
  bfilled : Nat := 0
  loops : List (Nat × Nat) := []
  maint : Option Nat := none
  accSel : Bool := false
  step : Nat := 0
  hasRec : Bool := false
  trec : TileRec := {}
  sv : Tab Nat U32 := []
  vr : Tab Nat Line := []
  vtag : Tab Nat U64 := []
  mo : Tab Nat Line := []
  ix : Tab Nat Nat := []
  mask : Tab Nat (BitVec 16) := []
  cgx : Tab Nat Nat := []
  keys : Tab Nat KeySlot := []
  setA : AccSet := {}
  setB : AccSet := {}
  parked : Tab Nat AccSet := []
  statq : List StatJob := []
  fs : Flow := {}
  writes : List RegW := []
  /-- scratchpad lines with wrong bits (R50) -/
  upset : Tab Nat Ecc := []
  pipe : List CgIssue := []
  tabq : List TabDraw := []
  waits : List Wait := []
  /-- the beat has waited for an HBM stream element (R31, R34) -/
  late : Bool := false
  ctl : Option (Nat × Nat) := none
  full : List Nat := []
  inbox : Tab Nat (List Flit) := []
  badPort : List Nat := []
  haltReq : Bool := false
  stepsLeft : Nat := 0
  tblPtr : Nat := 0
  fe : FeTile := {}
  deriving DecidableEq, Repr

end Sys2Proof.Machine
end

