-- ==== Sys2Proof/Machine/ChanState.lean ====
section
/-!
DEFINITION. The state of Bexir channels, messages and barriers, and of DMA transfers (13, 14).
-/
namespace Sys2Proof.Machine

/-- The series of one (peer, channel): both directions (R365-R367). -/
structure Chan where
  rxNext : Nat := 0
  armed : Nat := 0
  arrived : Nat := 0
  txNext : Nat := 0
  acked : Nat := 0
  credit : Nat := 0
  sent : Nat := 0
  deriving DecidableEq, Repr

/-- An arrival that BX_ARRIVE armed (R365). -/
structure Arrival where
  channel : Nat
  region : Nat
  counter : Option Nat
  src : Option Nat := none
  got : List (Nat × List Byte) := []
  async : Bool := false
  deriving DecidableEq, Repr

/-- A message that BX_SEND transmits (R365, R366, R369). -/
structure Outgoing where
  channel : Nat
  region : Nat
  counter : Option Nat
  targets : List Nat
  unsent : List Nat
  last : Tab Nat Nat := []
  async : Bool := false
  deriving DecidableEq, Repr

/-- A barrier that this module takes part in (R372): the last round that its BARRIER was sent for, the BARRIERs that the root
holds (rank and round), releases still to come (round and time), and the last round completed. -/
structure Barrier where
  desc : BarrierDesc
  sent : Nat := 0
  held : List (Nat × Nat) := []
  releases : List (Nat × Nat) := []
  done : Nat := 0
  deriving DecidableEq, Repr

/-- A DMA transfer in flight (R344, R346): what it does, its host address, length, region address and counter. -/
structure Transfer where
  kind : Nat
  ring : Nat
  host : Nat
  len : Nat
  addr : Nat
  region : Nat
  prov : Nat
  counter : Option Nat
  stream : Option Nat
  tries : Nat
  deriving DecidableEq, Repr

end Sys2Proof.Machine
end

