-- ==== Sys2Proof/Machine/Regs.lean ====
section
/-!
DEFINITION. The registers of BAR0 (R10, R12, R461-R465): one constructor per register the manual names, indexed by its
die, tile, stack, stream, queue, ring or port; its fields, reset value, writable and write-1-to-clear bits, and offset.
The four image registers that HIF_IMG_SEL selects (R279) have one copy per image slot.
-/
namespace Sys2Proof.Machine

/-- A register of BAR0 (R465). -/
inductive Reg where
  | glbId
  | glbStatus
  | glbTblset (i : BitVec 3)
  | offCount
  | offAddr (i : BitVec 3)
  | bootStatus
  | bootCtrl
  | bootFwVer
  | bootCfg
  | bootFwDigest (i : BitVec 3)
  | bootCfgDigest (i : BitVec 3)
  | pwrState
  | pwrReq
  | pwrRefuse
  | pwrFault
  | pwrWakeSrc
  | pwrWakeTimeLo
  | pwrWakeTimeHi
  | pwrWakeCnt (i : BitVec 2)
  | pwrIdle
  | pwrWakeTimer
  | pwrTherm
  | pwrThermLim
  | pwrPeakW
  | pwrRefuseAgents
  | pwrEnvActive
  | pwrHostCap
  | pwrVset
  | pwrInputW
  | secLc
  | secLcReq
  | secChallenge (i : BitVec 3)
  | secTokenCtrl
  | secTokenStatus
  | secDbgCtrl
  | secDbgStatus
  | secHalt
  | secKeyslot
  | secAttCtrl
  | secAttNonce (i : BitVec 3)
  | secId (i : BitVec 3)
  | secTokenBuf (i : BitVec 10)
  | secAttBuf (i : BitVec 10)
  | entStatus
  | entCtrl
  | entAlarm
  | entReqSince
  | entReseeds
  | entHostInput
  | hifStatus
  | hifCtrl
  | hifErr
  | hifPolicy
  | hifBar2BaseLo
  | hifBar2BaseHi
  | hifBar2Wrdrop
  | imgSel
  | imgStatus (j : BitVec 2)
  | imgWhere (j : BitVec 2)
  | imgWhereItem (j : BitVec 2)
  | imgNsv
  | imgWrdrop (j : BitVec 2)
  | mbxCmd
  | mbxStatus
  | mbxEvt (i : BitVec 3)
  | mbxData (i : BitVec 6)
  | qCfg (q : BitVec 6)
  | qSqbaseLo (q : BitVec 6)
  | qSqbaseHi (q : BitVec 6)
  | qCqbaseLo (q : BitVec 6)
  | qCqbaseHi (q : BitVec 6)
  | dmaCfg (g : BitVec 5)
  | dmaBaseLo (g : BitVec 5)
  | dmaBaseHi (g : BitVec 5)
  | dmaTail (g : BitVec 5)
  | admCtrl
  | admStatus
  | admNextTag
  | bxtPortStatus (p : BitVec 4)
  | bxtPortRetx (p : BitVec 4)
  | bxtPortDrop (p : BitVec 4)
  | bxtPartnerId (p : BitVec 4) (i : BitVec 2)
  | bxtCfg
  | bxtMember
  | bxtEvents
  | bxtRelLate
  | bxtRejoin
  | bxtMgroup (i : BitVec 6)
  | bxtRoster (i : BitVec 14)
  | ptpStatus
  | ptpTimeLo
  | ptpTimeHi
  | ptpRelMargin
  | ptpPpsInLo
  | ptpPpsInHi
  | echoCtrl
  | echoStatus
  | echoSeqLo
  | echoSeqHi
  | echoTailLo
  | echoTailHi
  | echoDrainLo
  | echoDrainHi
  | echoReplayEndLo
  | echoReplayEndHi
  | echoRingMib
  | echoRestore
  | echoJob
  | fltCtrl
  | fltStatus
  | fltRec
  | fltRecStepLo
  | fltRecStepHi
  | fltCkptGen
  | fltCkptStepLo
  | fltCkptStepHi
  | fltCount
  | fltLastMs
  | fltLostLo
  | fltLostHi
  | fltSelftest
  | fltOtp
  | fltMc
  | tileId (t : TileId)
  | tileStatus (t : TileId)
  | tileErr (t : TileId)
  | tileBeatLo (t : TileId)
  | tileBeatHi (t : TileId)
  | tilePc (t : TileId)
  | tileEcc (t : TileId)
  | tileEccAddr (t : TileId)
  | tileFlitRetry (t : TileId)
  | tileSpmAddr (t : TileId)
  | tileSpmData (t : TileId)
  | utileId (d : DieId) (r : BitVec 4)
  | utileStatus (d : DieId) (r : BitVec 4)
  | utileErr (d : DieId) (r : BitVec 4)
  | utileBeatLo (d : DieId) (r : BitVec 4)
  | utileBeatHi (d : DieId) (r : BitVec 4)
  | utilePc (d : DieId) (r : BitVec 4)
  | utileEcc (d : DieId) (r : BitVec 4)
  | utileEccAddr (d : DieId) (r : BitVec 4)
  | utileFlitRetry (d : DieId) (r : BitVec 4)
  | utileSpmAddr (d : DieId) (r : BitVec 4)
  | utileSpmData (d : DieId) (r : BitVec 4)
  | dieRowmap (d : DieId) (r : BitVec 4)
  | syncCnt (c : BitVec 13)
  | syncFault (d : DieId)
  | hbmStatus (k : BitVec 5)
  | hbmErr (k : BitVec 5)
  | hbmCeCount (k : BitVec 5)
  | hbmErrAddrLo (k : BitVec 5)
  | hbmErrAddrHi (k : BitVec 5)
  | hbmSpare0 (k : BitVec 5)
  | hbmSpare1 (k : BitVec 5)
  | d2dStat (d : DieId) (l : BitVec 2)
  | d2dRetry (d : DieId) (l : BitVec 2)
  | pgvCtrl (d : DieId)
  | pgvStatus (d : DieId)
  | pgvFault (d : DieId)
  | pgvBeatrate (d : DieId)
  | pgvDroopCount (d : DieId)
  | pgvHoldNsLo (d : DieId)
  | pgvHoldNsHi (d : DieId)
  | pgvHlateCount (d : DieId)
  | pgvTj (d : DieId)
  | cgsStatus (d : DieId)
  | cgsPending (d : DieId)
  | cgsFault (d : DieId)
  | cgsSeed (d : DieId) (n : BitVec 4) (w : BitVec 2)
  | svdFault (d : DieId)
  | svcCtrl (n : BitVec 9)
  | svcResult (n : BitVec 9)
  | svcPosLo (n : BitVec 9)
  | svcPosHi (n : BitVec 9)
  | svcSeed (n : BitVec 9) (w : BitVec 2)
  | svcInvT (n : BitVec 9)
  | svcC (n : BitVec 9)
  | svcTopP (n : BitVec 9)
  | svcFilt (n : BitVec 9)
  | svcPenPtrLo (n : BitVec 9)
  | svcPenPtrHi (n : BitVec 9)
  | svcKvPtrLo (n : BitVec 9)
  | svcKvPtrHi (n : BitVec 9)
  | svcHostTmo (n : BitVec 9)
  | svcYSel (n : BitVec 9)
  | svcM (n : BitVec 9)
  | svcS (n : BitVec 9)
  | feCfg (d : DieId)
  | feLoadStatus (d : DieId)
  | feConflictCount (d : DieId)
  | feConflictTgt (d : DieId)
  | feConflictSrc (d : DieId)
  | feZeroed (d : DieId)
  | feLoadRec (d : DieId)
  | feRot (d : DieId)
  | feSweepLo (d : DieId)
  | feSweepHi (d : DieId)
  | feFault (d : DieId)
  | rsCfg (d : DieId)
  | rsXchgE (d : DieId)
  | rsA0 (d : DieId)
  | rsC0 (d : DieId)
  | rsDt (d : DieId)
  | rsCs (d : DieId)
  | rsIter (d : DieId)
  | rsParamT (d : DieId)
  | rsParamA (d : DieId)
  | rsParamG (d : DieId)
  | rsTraceInt (d : DieId)
  | rsTraceCount (d : DieId)
  | rsTraceDrop (d : DieId)
  | rsXchgSkip (d : DieId)
  | rsStatus (d : DieId)
  deriving DecidableEq, Repr

/-- A field NAME[hi:lo] of a register (R10). -/
structure Fld where
  hi : Nat
  lo : Nat
  deriving DecidableEq, Repr

/-- The number in a field of a register word (R10). -/
def Fld.get (f : Fld) (w : U32) : Nat := fld w f.hi f.lo

/-- The register word with the field set to the low bits of `v`. -/
def Fld.put (f : Fld) (w : U32) (v : Nat) : U32 := setFld w f.hi f.lo v

/-! Fields, named register_FIELD as the register tables name them. -/
namespace F
abbrev glbId_DEVICE : Fld := ⟨31, 24⟩
abbrev glbId_STEPPING : Fld := ⟨23, 20⟩
abbrev glbId_ORDER : Fld := ⟨11, 8⟩
abbrev glbId_GRADE : Fld := ⟨0, 0⟩
abbrev glbStatus_GRADE_EFF : Fld := ⟨8, 8⟩
abbrev glbStatus_STANDING : Fld := ⟨3, 3⟩
abbrev glbStatus_DEGRADED : Fld := ⟨2, 2⟩
abbrev glbStatus_RECOVERY : Fld := ⟨1, 1⟩
abbrev glbStatus_READY : Fld := ⟨0, 0⟩
abbrev offCount_CLEAR : Fld := ⟨31, 31⟩
abbrev offCount_COUNT : Fld := ⟨30, 0⟩
abbrev offAddr_WRITE : Fld := ⟨31, 31⟩
abbrev offAddr_SRC : Fld := ⟨30, 30⟩
abbrev offAddr_OFFSET : Fld := ⟨25, 0⟩
abbrev bootStatus_STAND_ERR : Fld := ⟨31, 24⟩
abbrev bootStatus_ENTER_DROP : Fld := ⟨17, 17⟩
abbrev bootStatus_HDR_DEFAULT : Fld := ⟨16, 16⟩
abbrev bootStatus_FW_ERR : Fld := ⟨11, 8⟩
abbrev bootStatus_PHASE : Fld := ⟨3, 0⟩
abbrev bootCtrl_START : Fld := ⟨2, 2⟩
abbrev bootCtrl_FW_WRITE : Fld := ⟨1, 1⟩
abbrev bootCtrl_ENTER_RECOVERY : Fld := ⟨0, 0⟩
abbrev bootCfg_DEFAULT : Fld := ⟨23, 16⟩
abbrev bootCfg_REJ : Fld := ⟨15, 8⟩
abbrev bootCfg_APPLIED : Fld := ⟨7, 0⟩
abbrev pwrState_BUSY : Fld := ⟨8, 8⟩
abbrev pwrState_TARGET : Fld := ⟨7, 4⟩
abbrev pwrState_CUR : Fld := ⟨3, 0⟩
abbrev pwrReq_FORCE : Fld := ⟨31, 31⟩
abbrev pwrReq_TARGET : Fld := ⟨3, 0⟩
abbrev pwrRefuse_COUNT : Fld := ⟨31, 24⟩
abbrev pwrRefuse_CTX_HBM : Fld := ⟨23, 23⟩
abbrev pwrRefuse_WOKEN : Fld := ⟨22, 22⟩
abbrev pwrRefuse_DROPPED : Fld := ⟨21, 21⟩
abbrev pwrRefuse_TARGET : Fld := ⟨19, 16⟩
abbrev pwrRefuse_AGENT : Fld := ⟨15, 8⟩
abbrev pwrRefuse_REASON : Fld := ⟨7, 0⟩
abbrev pwrFault_WHAT : Fld := ⟨31, 16⟩
abbrev pwrFault_SUMP_BAD : Fld := ⟨7, 7⟩
abbrev pwrFault_UV_WARN : Fld := ⟨6, 6⟩
abbrev pwrFault_INPUT_FAIL : Fld := ⟨5, 5⟩
abbrev pwrFault_IOD_TRIP : Fld := ⟨4, 4⟩
abbrev pwrFault_HBM_TRIP : Fld := ⟨3, 3⟩
abbrev pwrFault_DIE_TRIP : Fld := ⟨2, 2⟩
abbrev pwrFault_WAKE_FAIL : Fld := ⟨0, 0⟩
abbrev pwrWakeSrc_EST : Fld := ⟨8, 8⟩
abbrev pwrWakeSrc_FROM : Fld := ⟨7, 4⟩
abbrev pwrWakeSrc_SOURCE : Fld := ⟨3, 0⟩
abbrev pwrWakeCnt_ODD : Fld := ⟨31, 16⟩
abbrev pwrWakeCnt_EVEN : Fld := ⟨15, 0⟩
abbrev pwrIdle_S2_S : Fld := ⟨31, 16⟩
abbrev pwrIdle_S1_MS : Fld := ⟨15, 0⟩
abbrev pwrTherm_IOD_WARN : Fld := ⟨2, 2⟩
abbrev pwrTherm_HBM_WARN : Fld := ⟨1, 1⟩
abbrev pwrTherm_DIE_WARN : Fld := ⟨0, 0⟩
abbrev pwrThermLim_DIE_WARN_C : Fld := ⟨7, 0⟩
abbrev pwrPeakW_CLEAR : Fld := ⟨31, 31⟩
abbrev pwrPeakW_PEAK : Fld := ⟨15, 0⟩
abbrev pwrRefuseAgents_SYS : Fld := ⟨22, 16⟩
abbrev pwrRefuseAgents_DIES : Fld := ⟨8, 1⟩
abbrev pwrEnvActive_VCEIL : Fld := ⟨23, 16⟩
abbrev pwrEnvActive_CAP_W : Fld := ⟨15, 4⟩
abbrev pwrEnvActive_PROFILE : Fld := ⟨3, 0⟩
abbrev pwrHostCap_CAP_W : Fld := ⟨11, 0⟩
abbrev pwrVset_VSET : Fld := ⟨7, 0⟩
abbrev pwrInputW_AVG_W : Fld := ⟨15, 0⟩
abbrev secLc_TCOUNT : Fld := ⟨23, 16⟩
abbrev secLc_INDEX : Fld := ⟨9, 8⟩
abbrev secLc_IDENT_BAD : Fld := ⟨3, 3⟩
abbrev secLc_STATE : Fld := ⟨2, 0⟩
abbrev secLcReq_RESULT : Fld := ⟨15, 8⟩
abbrev secLcReq_TARGET : Fld := ⟨2, 0⟩
abbrev secTokenCtrl_GO : Fld := ⟨31, 31⟩
abbrev secTokenCtrl_NEW : Fld := ⟨30, 30⟩
abbrev secTokenStatus_ACCEPTED : Fld := ⟨9, 8⟩
abbrev secTokenStatus_RESULT : Fld := ⟨3, 0⟩
abbrev secDbgCtrl_CLOSE : Fld := ⟨31, 31⟩
abbrev secDbgCtrl_OPEN : Fld := ⟨30, 30⟩
abbrev secDbgCtrl_LEVEL : Fld := ⟨2, 0⟩
abbrev secDbgStatus_DENIED : Fld := ⟨31, 16⟩
abbrev secDbgStatus_RESULT : Fld := ⟨15, 12⟩
abbrev secDbgStatus_TAINT : Fld := ⟨11, 11⟩
abbrev secDbgStatus_MAX : Fld := ⟨10, 8⟩
abbrev secDbgStatus_SRC : Fld := ⟨7, 4⟩
abbrev secDbgStatus_LEVEL : Fld := ⟨2, 0⟩
abbrev secHalt_CMD : Fld := ⟨31, 30⟩
abbrev secHalt_ALL : Fld := ⟨29, 29⟩
abbrev secHalt_STEPS : Fld := ⟨23, 16⟩
abbrev secHalt_COORD : Fld := ⟨15, 0⟩
abbrev secKeyslot_REVOKE : Fld := ⟨31, 31⟩
abbrev secKeyslot_RESULT : Fld := ⟨15, 12⟩
abbrev secKeyslot_RUNNING : Fld := ⟨5, 4⟩
abbrev secKeyslot_REVOKED : Fld := ⟨3, 0⟩
abbrev secAttCtrl_GO : Fld := ⟨31, 31⟩
abbrev secAttCtrl_DONE : Fld := ⟨9, 9⟩
abbrev secAttCtrl_BUSY : Fld := ⟨8, 8⟩
abbrev secAttCtrl_RESULT : Fld := ⟨7, 0⟩
abbrev entStatus_WAITING : Fld := ⟨15, 8⟩
abbrev entStatus_SEEDED : Fld := ⟨4, 4⟩
abbrev entStatus_STATE : Fld := ⟨2, 0⟩
abbrev entCtrl_RESEED : Fld := ⟨1, 1⟩
abbrev entCtrl_KAT : Fld := ⟨0, 0⟩
abbrev entAlarm_ALARM : Fld := ⟨31, 31⟩
abbrev entAlarm_KAT_DRBG : Fld := ⟨10, 10⟩
abbrev entAlarm_KAT_COND : Fld := ⟨9, 9⟩
abbrev entAlarm_STARTUP : Fld := ⟨8, 8⟩
abbrev entAlarm_APT2 : Fld := ⟨5, 5⟩
abbrev entAlarm_RCT2 : Fld := ⟨4, 4⟩
abbrev entAlarm_APT1 : Fld := ⟨3, 3⟩
abbrev entAlarm_RCT1 : Fld := ⟨2, 2⟩
abbrev entAlarm_APT0 : Fld := ⟨1, 1⟩
abbrev entAlarm_RCT0 : Fld := ⟨0, 0⟩
abbrev entReqSince_REQS : Fld := ⟨16, 0⟩
abbrev entHostInput_IGNORED : Fld := ⟨31, 16⟩
abbrev entHostInput_APPLIED : Fld := ⟨15, 0⟩
abbrev hifStatus_WIDTH : Fld := ⟨15, 12⟩
abbrev hifStatus_RATE : Fld := ⟨11, 8⟩
abbrev hifStatus_LINK_LOST : Fld := ⟨0, 0⟩
abbrev hifCtrl_CTO : Fld := ⟨3, 0⟩
abbrev hifErr_DMA_DESC : Fld := ⟨6, 6⟩
abbrev hifErr_DMA_FAIL : Fld := ⟨5, 5⟩
abbrev hifErr_Q_CFG : Fld := ⟨4, 4⟩
abbrev hifErr_ANSWER_DROP : Fld := ⟨3, 3⟩
abbrev hifErr_DB_RANGE : Fld := ⟨2, 2⟩
abbrev hifErr_HOLE : Fld := ⟨1, 1⟩
abbrev hifPolicy_FW : Fld := ⟨4, 4⟩
abbrev hifPolicy_DRBG : Fld := ⟨3, 3⟩
abbrev hifPolicy_PWR : Fld := ⟨2, 2⟩
abbrev hifPolicy_CKPT : Fld := ⟨1, 1⟩
abbrev hifPolicy_LINK : Fld := ⟨0, 0⟩
abbrev imgSel_SLOT : Fld := ⟨1, 0⟩
abbrev imgStatus_CODE : Fld := ⟨31, 24⟩
abbrev imgStatus_INFO_COUNT : Fld := ⟨23, 16⟩
abbrev imgStatus_CLASS : Fld := ⟨9, 8⟩
abbrev imgStatus_STATE : Fld := ⟨3, 0⟩
abbrev imgWhere_SECTION : Fld := ⟨31, 16⟩
abbrev imgWhere_TILE : Fld := ⟨15, 0⟩
abbrev imgNsv_MAX : Fld := ⟨31, 16⟩
abbrev imgNsv_MIN : Fld := ⟨15, 0⟩
abbrev mbxCmd_GO : Fld := ⟨31, 31⟩
abbrev mbxCmd_LEN : Fld := ⟨15, 8⟩
abbrev mbxCmd_CMD : Fld := ⟨7, 0⟩
abbrev mbxStatus_CODE : Fld := ⟨15, 8⟩
abbrev mbxStatus_EVT_LOST : Fld := ⟨4, 4⟩
abbrev mbxStatus_EVT : Fld := ⟨3, 3⟩
abbrev mbxStatus_OVERRUN : Fld := ⟨2, 2⟩
abbrev mbxStatus_DONE : Fld := ⟨1, 1⟩
abbrev mbxStatus_BUSY : Fld := ⟨0, 0⟩
abbrev qCfg_EN : Fld := ⟨31, 31⟩
abbrev qCfg_VEC : Fld := ⟨23, 16⟩
abbrev qCfg_CQSZ : Fld := ⟨11, 8⟩
abbrev qCfg_SQSZ : Fld := ⟨3, 0⟩
abbrev dmaCfg_EN : Fld := ⟨31, 31⟩
abbrev dmaCfg_VEC : Fld := ⟨23, 16⟩
abbrev dmaCfg_SZ : Fld := ⟨3, 0⟩
abbrev admCtrl_MODE : Fld := ⟨0, 0⟩
abbrev admStatus_LAST_SEEN : Fld := ⟨28, 28⟩
abbrev admStatus_BOUND : Fld := ⟨24, 16⟩
abbrev admStatus_PENDING : Fld := ⟨12, 0⟩
abbrev admNextTag_TAG : Fld := ⟨31, 0⟩
abbrev bxtPortStatus_UP : Fld := ⟨31, 31⟩
abbrev bxtPortStatus_PREEMPT : Fld := ⟨30, 30⟩
abbrev bxtPortStatus_CORKOR : Fld := ⟨29, 29⟩
abbrev bxtPortStatus_LANES : Fld := ⟨15, 12⟩
abbrev bxtPortStatus_RATE : Fld := ⟨11, 8⟩
abbrev bxtPortStatus_LANE_FAIL : Fld := ⟨7, 0⟩
abbrev bxtCfg_UDP_PORT : Fld := ⟨31, 16⟩
abbrev bxtCfg_VER_MAX : Fld := ⟨15, 8⟩
abbrev bxtCfg_VER_MIN : Fld := ⟨7, 0⟩
abbrev bxtMember_COUNT : Fld := ⟨31, 16⟩
abbrev bxtMember_RANK : Fld := ⟨11, 0⟩
abbrev bxtEvents_LOST : Fld := ⟨31, 16⟩
abbrev bxtEvents_ALL : Fld := ⟨15, 0⟩
abbrev bxtRejoin_SECONDS : Fld := ⟨7, 0⟩
abbrev bxtMgroup_EN : Fld := ⟨31, 31⟩
abbrev bxtMgroup_LAST : Fld := ⟨23, 12⟩
abbrev bxtMgroup_FIRST : Fld := ⟨11, 0⟩
abbrev ptpStatus_LOCK : Fld := ⟨31, 31⟩
abbrev ptpStatus_GM : Fld := ⟨30, 30⟩
abbrev ptpStatus_OFFSET : Fld := ⟨15, 0⟩
abbrev ptpRelMargin_NS : Fld := ⟨16, 0⟩
abbrev echoCtrl_DIGEST_INTERVAL : Fld := ⟨31, 16⟩
abbrev echoCtrl_LIVE_AFTER : Fld := ⟨5, 5⟩
abbrev echoCtrl_REPLAY : Fld := ⟨4, 4⟩
abbrev echoCtrl_FULL : Fld := ⟨2, 2⟩
abbrev echoCtrl_MODE : Fld := ⟨1, 0⟩
abbrev echoStatus_REPLAY_ACTIVE : Fld := ⟨8, 8⟩
abbrev echoStatus_STALLED : Fld := ⟨7, 7⟩
abbrev echoStatus_POS_WRAP : Fld := ⟨6, 6⟩
abbrev echoStatus_LOST : Fld := ⟨5, 5⟩
abbrev echoStatus_REPLAY_END : Fld := ⟨4, 4⟩
abbrev echoStatus_DIGEST_MISMATCH : Fld := ⟨3, 3⟩
abbrev echoStatus_PAYLOAD_MISMATCH : Fld := ⟨2, 2⟩
abbrev echoStatus_DIVERGE : Fld := ⟨1, 1⟩
abbrev echoStatus_HOST_FAIL : Fld := ⟨0, 0⟩
abbrev echoSeqLo_SEQ : Fld := ⟨31, 0⟩
abbrev echoSeqHi_SEQ : Fld := ⟨31, 0⟩
abbrev echoTailLo_SEQ : Fld := ⟨31, 0⟩
abbrev echoTailHi_SEQ : Fld := ⟨31, 0⟩
abbrev echoDrainLo_SEQ : Fld := ⟨31, 0⟩
abbrev echoDrainHi_SEQ : Fld := ⟨31, 0⟩
abbrev echoReplayEndLo_SEQ : Fld := ⟨31, 0⟩
abbrev echoReplayEndHi_SEQ : Fld := ⟨31, 0⟩
abbrev echoRestore_REASON : Fld := ⟨3, 0⟩
abbrev echoJob_CLASS : Fld := ⟨17, 16⟩
abbrev echoJob_FLAGS : Fld := ⟨15, 6⟩
abbrev fltCtrl_DECLINE : Fld := ⟨17, 17⟩
abbrev fltCtrl_APPROVE : Fld := ⟨16, 16⟩
abbrev fltCtrl_HOST_TMO : Fld := ⟨15, 8⟩
abbrev fltCtrl_HOLD : Fld := ⟨0, 0⟩
abbrev fltStatus_OUTCOME : Fld := ⟨31, 28⟩
abbrev fltStatus_RTAB_BAD : Fld := ⟨16, 16⟩
abbrev fltStatus_ATTEMPT : Fld := ⟨15, 12⟩
abbrev fltStatus_STATE : Fld := ⟨3, 0⟩
abbrev fltRec_CODE : Fld := ⟨31, 24⟩
abbrev fltRec_CAUSE : Fld := ⟨23, 20⟩
abbrev fltRec_DIE : Fld := ⟨19, 16⟩
abbrev fltRec_WHERE : Fld := ⟨15, 0⟩
abbrev fltCkptGen_GEN : Fld := ⟨31, 0⟩
abbrev fltCount_FALLBACK : Fld := ⟨31, 24⟩
abbrev fltCount_SPLIT : Fld := ⟨23, 16⟩
abbrev fltCount_RECOVERED : Fld := ⟨15, 0⟩
abbrev fltLastMs_MS : Fld := ⟨31, 0⟩
abbrev fltSelftest_FORCE : Fld := ⟨31, 31⟩
abbrev fltSelftest_REQ : Fld := ⟨18, 16⟩
abbrev fltSelftest_RESULT : Fld := ⟨3, 0⟩
abbrev fltOtp_KEY_ALLDIFF : Fld := ⟨7, 4⟩
abbrev fltOtp_LC_ALLDIFF : Fld := ⟨1, 1⟩
abbrev fltOtp_DISAGREE : Fld := ⟨0, 0⟩
abbrev fltMc_RESETS : Fld := ⟨31, 16⟩
abbrev fltMc_STOPPED : Fld := ⟨1, 1⟩
abbrev fltMc_SRAM_CE : Fld := ⟨0, 0⟩
abbrev tileId_PHYS_COL : Fld := ⟨16, 12⟩
abbrev tileId_ROW : Fld := ⟨11, 8⟩
abbrev tileId_COL : Fld := ⟨7, 4⟩
abbrev tileId_DIE : Fld := ⟨3, 0⟩
abbrev tileStatus_WAIT_SRC : Fld := ⟨20, 17⟩
abbrev tileStatus_WAIT_EXT : Fld := ⟨16, 16⟩
abbrev tileStatus_MAINT : Fld := ⟨8, 8⟩
abbrev tileStatus_ACC_SET : Fld := ⟨7, 7⟩
abbrev tileStatus_STATE : Fld := ⟨3, 0⟩
abbrev tileErr_CG_CHECK : Fld := ⟨14, 14⟩
abbrev tileErr_SPM_GUARD : Fld := ⟨13, 13⟩
abbrev tileErr_FP_INVALID : Fld := ⟨12, 12⟩
abbrev tileErr_CTL_BUSY : Fld := ⟨11, 11⟩
abbrev tileErr_NODE_MISMATCH : Fld := ⟨10, 10⟩
abbrev tileErr_FLIT_FAIL : Fld := ⟨9, 9⟩
abbrev tileErr_FLIT_RETRY : Fld := ⟨8, 8⟩
abbrev tileErr_MX_CHECK : Fld := ⟨7, 7⟩
abbrev tileErr_LEDGER_UE : Fld := ⟨6, 6⟩
abbrev tileErr_LEDGER_CE : Fld := ⟨5, 5⟩
abbrev tileErr_SPM_UE : Fld := ⟨4, 4⟩
abbrev tileErr_SPM_CE : Fld := ⟨3, 3⟩
abbrev tileErr_FS_LIMIT : Fld := ⟨2, 2⟩
abbrev tileErr_INT_OVF : Fld := ⟨1, 1⟩
abbrev tileErr_FP_OVF : Fld := ⟨0, 0⟩
abbrev tilePc_LOOP_DEPTH : Fld := ⟨14, 12⟩
abbrev tilePc_ADDR : Fld := ⟨11, 0⟩
abbrev tileEcc_LEDGER_CE : Fld := ⟨31, 16⟩
abbrev tileEcc_SPM_CE : Fld := ⟨15, 0⟩
abbrev tileEccAddr_SRC : Fld := ⟨31, 31⟩
abbrev tileEccAddr_UE : Fld := ⟨30, 30⟩
abbrev tileEccAddr_ADDR : Fld := ⟨19, 0⟩
abbrev tileSpmAddr_ADDR : Fld := ⟨19, 2⟩
abbrev dieRowmap_LROW : Fld := ⟨15, 12⟩
abbrev dieRowmap_RETIRED : Fld := ⟨11, 11⟩
abbrev dieRowmap_FUSED : Fld := ⟨10, 10⟩
abbrev dieRowmap_SHIFTED : Fld := ⟨9, 9⟩
abbrev dieRowmap_NOSPARE : Fld := ⟨8, 8⟩
abbrev dieRowmap_UNMAPPED : Fld := ⟨4, 0⟩
abbrev syncFault_INDEX : Fld := ⟨28, 16⟩
abbrev syncFault_CTL_WR : Fld := ⟨2, 2⟩
abbrev syncFault_OVF : Fld := ⟨1, 1⟩
abbrev syncFault_SET_RACE : Fld := ⟨0, 0⟩
abbrev hbmStatus_TEMP : Fld := ⟨31, 24⟩
abbrev hbmStatus_REFRESH_2X : Fld := ⟨17, 17⟩
abbrev hbmStatus_RETRAIN_PEND : Fld := ⟨16, 16⟩
abbrev hbmStatus_SPARES_LEFT : Fld := ⟨9, 8⟩
abbrev hbmStatus_STATE : Fld := ⟨2, 0⟩
abbrev hbmErr_NOSPARE : Fld := ⟨4, 4⟩
abbrev hbmErr_RETRAIN_FAIL : Fld := ⟨3, 3⟩
abbrev hbmErr_REMAP : Fld := ⟨2, 2⟩
abbrev hbmErr_UE : Fld := ⟨1, 1⟩
abbrev hbmErr_CE : Fld := ⟨0, 0⟩
abbrev hbmSpare0_USED : Fld := ⟨31, 31⟩
abbrev hbmSpare0_FAILED : Fld := ⟨30, 30⟩
abbrev hbmSpare0_PHYS : Fld := ⟨13, 8⟩
abbrev hbmSpare0_LPC : Fld := ⟨5, 0⟩
abbrev hbmSpare1_USED : Fld := ⟨31, 31⟩
abbrev hbmSpare1_FAILED : Fld := ⟨30, 30⟩
abbrev hbmSpare1_PHYS : Fld := ⟨13, 8⟩
abbrev hbmSpare1_LPC : Fld := ⟨5, 0⟩
abbrev d2dStat_UP : Fld := ⟨31, 31⟩
abbrev d2dStat_IOD : Fld := ⟨30, 30⟩
abbrev d2dStat_REPAIRED : Fld := ⟨11, 8⟩
abbrev pgvCtrl_STALL_MS : Fld := ⟨9, 0⟩
abbrev pgvStatus_VSENSE : Fld := ⟨31, 24⟩
abbrev pgvStatus_PACE_DUTY : Fld := ⟨23, 16⟩
abbrev pgvStatus_PARKED : Fld := ⟨2, 2⟩
abbrev pgvStatus_PACING : Fld := ⟨1, 1⟩
abbrev pgvStatus_DROOP_HOLD : Fld := ⟨0, 0⟩
abbrev pgvFault_SENSOR_FAIL : Fld := ⟨2, 2⟩
abbrev pgvFault_STALL : Fld := ⟨1, 1⟩
abbrev pgvFault_DROOP_STUCK : Fld := ⟨0, 0⟩
abbrev pgvBeatrate_MBEAT : Fld := ⟨15, 0⟩
abbrev pgvTj_TJ : Fld := ⟨15, 0⟩
abbrev cgsStatus_FRESH_COUNT : Fld := ⟨31, 16⟩
abbrev cgsStatus_VALID : Fld := ⟨15, 0⟩
abbrev cgsPending_PENDING : Fld := ⟨15, 0⟩
abbrev cgsFault_TBL_MISMATCH : Fld := ⟨2, 2⟩
abbrev cgsFault_STEP_WRAP : Fld := ⟨1, 1⟩
abbrev cgsFault_FRESH_FAIL : Fld := ⟨0, 0⟩
abbrev svdFault_COMB_FAIL : Fld := ⟨1, 1⟩
abbrev svdFault_COMB_RETRY : Fld := ⟨0, 0⟩
abbrev svcCtrl_WR_REJ : Fld := ⟨16, 16⟩
abbrev svcCtrl_STATS_SRC : Fld := ⟨12, 12⟩
abbrev svcCtrl_PEN_FMT : Fld := ⟨9, 8⟩
abbrev svcCtrl_MODE : Fld := ⟨5, 4⟩
abbrev svcCtrl_STATE : Fld := ⟨1, 0⟩
abbrev svcResult_STATUS : Fld := ⟨31, 28⟩
abbrev svcResult_HOST_DIFF : Fld := ⟨27, 27⟩
abbrev svcResult_MASS_ZERO : Fld := ⟨26, 26⟩
abbrev svcResult_TOPK_TIE : Fld := ⟨25, 25⟩
abbrev svcResult_M_LOW : Fld := ⟨24, 24⟩
abbrev svcResult_INDEX : Fld := ⟨19, 0⟩
abbrev svcFilt_MINP : Fld := ⟨31, 16⟩
abbrev svcFilt_TOPK : Fld := ⟨10, 0⟩
abbrev svcHostTmo_MS : Fld := ⟨15, 0⟩
abbrev feCfg_ROTATE : Fld := ⟨12, 12⟩
abbrev feCfg_NCOL_M1 : Fld := ⟨11, 8⟩
abbrev feCfg_POLICY : Fld := ⟨4, 4⟩
abbrev feCfg_MODE : Fld := ⟨1, 0⟩
abbrev feLoadStatus_DONE : Fld := ⟨31, 31⟩
abbrev feLoadStatus_NON_GIBBS : Fld := ⟨30, 30⟩
abbrev feLoadStatus_VAR : Fld := ⟨29, 29⟩
abbrev feLoadStatus_MODULE : Fld := ⟨28, 28⟩
abbrev feLoadStatus_ERR : Fld := ⟨23, 16⟩
abbrev feConflictTgt_VAR : Fld := ⟨27, 0⟩
abbrev feConflictSrc_VAR : Fld := ⟨27, 0⟩
abbrev feRot_PASSES : Fld := ⟨31, 16⟩
abbrev feRot_ENTRY : Fld := ⟨11, 0⟩
abbrev feFault_LEDGER_CHANGED : Fld := ⟨1, 1⟩
abbrev feFault_BETA_INVALID : Fld := ⟨0, 0⟩
abbrev rsCfg_XCHG : Fld := ⟨17, 16⟩
abbrev rsCfg_TRACE_RAW : Fld := ⟨12, 12⟩
abbrev rsCfg_CONT : Fld := ⟨8, 8⟩
abbrev rsCfg_AUTO_C0 : Fld := ⟨4, 4⟩
abbrev rsXchgE_E : Fld := ⟨15, 0⟩
abbrev rsTraceInt_N : Fld := ⟨15, 0⟩
abbrev rsStatus_TRACE_FULL : Fld := ⟨2, 2⟩
abbrev rsStatus_ITER_WRAP : Fld := ⟨1, 1⟩
abbrev rsStatus_NONFINITE : Fld := ⟨0, 0⟩
end F

/-- Reset values (R10 and the register tables); fields read "per fuses", "per OTP", "per configuration", "per firmware" or
"per table set" hold the values of notes/assumptions/2.md. -/
def Reg.reset : Reg → U32
  | .qCfg q => BitVec.ofNat 32 (0x404 ||| (64 + q.toNat) <<< 16)
  | .tileId t => BitVec.ofNat 32 ((colOf t).toNat <<< 12 ||| (rowOf t).toNat <<< 8 ||| (colOf t).toNat <<< 4 ||| (dieOf t).toNat)
  | .utileId d r => BitVec.ofNat 32 (0x100F0 ||| r.toNat <<< 8 ||| d.toNat)
  | .dieRowmap _ r => BitVec.ofNat 32 (0x10 ||| r.toNat <<< 12)
  | .d2dStat d l => BitVec.ofNat 32 ((if (d = 0 ∨ d = 4) ∧ l = 0 then 1 else 0) <<< 30)
  | .glbId => 0x58000100#32
  | .pwrThermLim => 0x0000005F#32
  | .pwrVset => 0x00000032#32
  | .hifCtrl => 0x00000006#32
  | .imgNsv => 0x00010001#32
  | .dmaCfg _ => 0x00000004#32
  | .bxtCfg => 0xBE580101#32
  | .bxtRejoin => 0x0000001E#32
  | .ptpRelMargin => 0x00000320#32
  | .fltCtrl => 0x00003C00#32
  | .hbmStatus _ => 0x00000200#32
  | .hbmSpare0 _ => 0x00003E00#32
  | .hbmSpare1 _ => 0x00003F00#32
  | .pgvCtrl _ => 0x0000000A#32
  | .svcInvT _ | .svcC _ | .svcTopP _ => 0x3F800000#32
  | _ => 0#32

/-- The bits that the register holds: every bit outside them is reserved, or write-only, and reads 0 (R10, R12). -/
def Reg.impl : Reg → U32
  | .glbId => 0xFFF00F01#32
  | .glbStatus => 0x0000010F#32
  | .offCount => 0x7FFFFFFF#32
  | .offAddr _ => 0xC3FFFFFF#32
  | .bootStatus => 0xFF030F0F#32
  | .bootCtrl => 0x00000002#32
  | .bootCfg | .pwrEnvActive => 0x00FFFFFF#32
  | .pwrState | .pwrWakeSrc | .hifBar2BaseHi | .echoStatus | .fltLostHi | .hbmErrAddrHi _ => 0x000001FF#32
  | .pwrReq | .secTokenCtrl | .secHalt | .entCtrl => 0x00000000#32
  | .pwrRefuse => 0xFFEFFFFF#32
  | .pwrFault => 0xFFFF00FD#32
  | .pwrTherm | .secDbgCtrl | .pgvFault _ | .cgsFault _ | .rsStatus _ => 0x00000007#32
  | .pwrThermLim | .pwrVset | .bxtRejoin => 0x000000FF#32
  | .pwrPeakW | .pwrInputW | .mbxCmd | .fltRecStepHi | .pgvBeatrate _ | .pgvTj _ | .cgsPending _ | .svcPosHi _ | .svcHostTmo _ | .rsXchgE _ | .rsTraceInt _ => 0x0000FFFF#32
  | .pwrRefuseAgents => 0x007F01FE#32
  | .pwrHostCap => 0x00000FFF#32
  | .secLc => 0x00FF030F#32
  | .secLcReq => 0x0000FF00#32
  | .secTokenStatus => 0x0000030F#32
  | .secDbgStatus => 0xFFFFFFF7#32
  | .secKeyslot => 0x0000F03F#32
  | .secAttCtrl | .pgvCtrl _ => 0x000003FF#32
  | .entStatus => 0x0000FF17#32
  | .entAlarm => 0x8000073F#32
  | .entReqSince | .ptpRelMargin | .tileId _ | .utileId _ _ => 0x0001FFFF#32
  | .hifStatus | .fltCtrl => 0x0000FF01#32
  | .hifCtrl | .echoRestore | .fltSelftest => 0x0000000F#32
  | .hifErr => 0x0000007E#32
  | .hifPolicy | .hbmErr _ => 0x0000001F#32
  | .imgSel | .svdFault _ | .feFault _ => 0x00000003#32
  | .imgStatus _ => 0xFFFF030F#32
  | .mbxStatus | .dieRowmap _ _ => 0x0000FF1F#32
  | .qCfg _ => 0x80FF0F0F#32
  | .dmaCfg _ => 0x80FF000F#32
  | .admCtrl => 0x00000001#32
  | .admStatus => 0x11FF1FFF#32
  | .bxtPortStatus _ => 0xE000FFFF#32
  | .bxtMember | .feRot _ => 0xFFFF0FFF#32
  | .bxtMgroup _ => 0x80FFFFFF#32
  | .ptpStatus => 0xC000FFFF#32
  | .echoCtrl => 0xFFFF0037#32
  | .echoJob => 0x0003FFC0#32
  | .fltStatus => 0xF001F00F#32
  | .fltOtp => 0x000000F3#32
  | .fltMc => 0xFFFF0003#32
  | .tileStatus _ | .utileStatus _ _ => 0x001F018F#32
  | .tileErr _ | .tilePc _ | .utileErr _ _ | .utilePc _ _ => 0x00007FFF#32
  | .tileEccAddr _ | .utileEccAddr _ _ => 0xC00FFFFF#32
  | .tileSpmAddr _ | .utileSpmAddr _ _ => 0x000FFFFC#32
  | .syncFault _ => 0x1FFF0007#32
  | .hbmStatus _ => 0xFF030307#32
  | .hbmSpare0 _ | .hbmSpare1 _ => 0xC0003F3F#32
  | .d2dStat _ _ => 0xC0000F00#32
  | .pgvStatus _ => 0xFFFF0007#32
  | .svcCtrl _ => 0x00011333#32
  | .svcResult _ => 0xFF0FFFFF#32
  | .svcFilt _ => 0xFFFF07FF#32
  | .feCfg _ => 0x00001F13#32
  | .feLoadStatus _ => 0xF0FF0000#32
  | .feConflictTgt _ | .feConflictSrc _ => 0x0FFFFFFF#32
  | .rsCfg _ => 0x00031110#32
  | _ => 0xFFFFFFFF#32

/-- The bits of access type RW: a write sets them (R12). -/
def Reg.rw : Reg → U32
  | .bootCtrl => 0x00000002#32
  | .pwrIdle | .pwrWakeTimer | .secAttNonce _ | .secTokenBuf _ | .hifBar2BaseLo | .mbxData _ | .qSqbaseLo _ | .qSqbaseHi _ | .qCqbaseLo _ | .qCqbaseHi _ | .dmaBaseLo _ | .dmaBaseHi _ | .dmaTail _ | .bxtRoster _ | .echoDrainLo | .echoDrainHi | .echoReplayEndLo | .echoReplayEndHi | .tileSpmData _ | .utileSpmData _ _ | .syncCnt _ | .svcPosLo _ | .svcSeed _ _ | .svcInvT _ | .svcC _ | .svcTopP _ | .svcPenPtrLo _ | .svcPenPtrHi _ | .svcKvPtrLo _ | .svcKvPtrHi _ => 0xFFFFFFFF#32
  | .pwrThermLim | .bxtRejoin => 0x000000FF#32
  | .pwrHostCap => 0x00000FFF#32
  | .secDbgCtrl => 0x00000007#32
  | .hifCtrl | .hifPolicy => 0x0000000F#32
  | .hifBar2BaseHi => 0x000001FF#32
  | .imgSel => 0x00000003#32
  | .mbxCmd | .svcPosHi _ | .svcHostTmo _ => 0x0000FFFF#32
  | .qCfg _ => 0x80FF0F0F#32
  | .dmaCfg _ => 0x80FF000F#32
  | .admCtrl => 0x00000001#32
  | .bxtMgroup _ => 0x80FFFFFF#32
  | .ptpRelMargin => 0x0001FFFF#32
  | .echoCtrl => 0xFFFF0037#32
  | .fltCtrl => 0x0000FF01#32
  | .tileSpmAddr _ | .utileSpmAddr _ _ => 0x000FFFFC#32
  | .pgvCtrl _ => 0x000003FF#32
  | .svcCtrl _ => 0x00001330#32
  | .svcFilt _ => 0xFFFF07FF#32
  | _ => 0x00000000#32

/-- The bits of access type W1C: each 1 written clears the bit (R12). -/
def Reg.w1c : Reg → U32
  | .bootStatus => 0x00020000#32
  | .pwrRefuse => 0x00E00000#32
  | .pwrFault => 0x000000FD#32
  | .secAttCtrl => 0x00000200#32
  | .hifStatus | .fltMc => 0x00000001#32
  | .hifErr => 0x0000007E#32
  | .mbxStatus => 0x00000016#32
  | .echoStatus => 0x0000007F#32
  | .fltStatus | .svcCtrl _ => 0x00010000#32
  | .tileErr _ | .utileErr _ _ => 0x00007FFF#32
  | .syncFault _ | .pgvFault _ | .cgsFault _ | .rsStatus _ => 0x00000007#32
  | .hbmErr _ => 0x0000001F#32
  | .svdFault _ | .feFault _ => 0x00000003#32
  | _ => 0x00000000#32

/-- Window of a compute die (R461). -/
def dieWin (d : DieId) : Nat := 0x1000000 + 0x400000 * d.toNat

/-- Window of a logical tile (R38). -/
def tileWin (t : TileId) : Nat := dieWin (dieOf t) + 0x2000 * (t.toNat % 256)

/-- BAR0 offset of a register (R461, R462, R465). -/
def Reg.addr : Reg → Nat
  | .glbId => 0x0
  | .glbStatus => 0x10
  | .glbTblset i => 0x180 + 4 * i.toNat
  | .offCount => 0x200
  | .offAddr i => 0x204 + 4 * i.toNat
  | .bootStatus => 0x10000
  | .bootCtrl => 0x10004
  | .bootFwVer => 0x10008
  | .bootCfg => 0x1000C
  | .bootFwDigest i => 0x10020 + 4 * i.toNat
  | .bootCfgDigest i => 0x10040 + 4 * i.toNat
  | .pwrState => 0x20000
  | .pwrReq => 0x20004
  | .pwrRefuse => 0x20008
  | .pwrFault => 0x2000C
  | .pwrWakeSrc => 0x20010
  | .pwrWakeTimeLo => 0x20014
  | .pwrWakeTimeHi => 0x20018
  | .pwrWakeCnt i => 0x20020 + 4 * i.toNat
  | .pwrIdle => 0x20030
  | .pwrWakeTimer => 0x20034
  | .pwrTherm => 0x20040
  | .pwrThermLim => 0x20044
  | .pwrPeakW => 0x20048
  | .pwrRefuseAgents => 0x2004C
  | .pwrEnvActive => 0x20100
  | .pwrHostCap => 0x20104
  | .pwrVset => 0x20108
  | .pwrInputW => 0x2010C
  | .secLc => 0x30000
  | .secLcReq => 0x30004
  | .secChallenge i => 0x30010 + 4 * i.toNat
  | .secTokenCtrl => 0x30030
  | .secTokenStatus => 0x30034
  | .secDbgCtrl => 0x30040
  | .secDbgStatus => 0x30044
  | .secHalt => 0x30048
  | .secKeyslot => 0x30050
  | .secAttCtrl => 0x30060
  | .secAttNonce i => 0x30080 + 4 * i.toNat
  | .secId i => 0x300A0 + 4 * i.toNat
  | .secTokenBuf i => 0x31000 + 4 * i.toNat
  | .secAttBuf i => 0x32000 + 4 * i.toNat
  | .entStatus => 0x40000
  | .entCtrl => 0x40004
  | .entAlarm => 0x40008
  | .entReqSince => 0x4000C
  | .entReseeds => 0x40010
  | .entHostInput => 0x40014
  | .hifStatus => 0x50000
  | .hifCtrl => 0x50004
  | .hifErr => 0x50008
  | .hifPolicy => 0x5000C
  | .hifBar2BaseLo => 0x50010
  | .hifBar2BaseHi => 0x50014
  | .hifBar2Wrdrop => 0x50018
  | .imgSel => 0x50400
  | .imgStatus _ => 0x50404
  | .imgWhere _ => 0x50408
  | .imgWhereItem _ => 0x5040C
  | .imgNsv => 0x50410
  | .imgWrdrop _ => 0x50414
  | .mbxCmd => 0x50800
  | .mbxStatus => 0x50804
  | .mbxEvt i => 0x50820 + 4 * i.toNat
  | .mbxData i => 0x50900 + 4 * i.toNat
  | .qCfg q => 0x51000 + 0x20 * q.toNat
  | .qSqbaseLo q => 0x51000 + 0x20 * q.toNat + 4
  | .qSqbaseHi q => 0x51000 + 0x20 * q.toNat + 8
  | .qCqbaseLo q => 0x51000 + 0x20 * q.toNat + 12
  | .qCqbaseHi q => 0x51000 + 0x20 * q.toNat + 16
  | .dmaCfg g => 0x52000 + 0x20 * g.toNat
  | .dmaBaseLo g => 0x52000 + 0x20 * g.toNat + 4
  | .dmaBaseHi g => 0x52000 + 0x20 * g.toNat + 8
  | .dmaTail g => 0x52000 + 0x20 * g.toNat + 12
  | .admCtrl => 0x60000
  | .admStatus => 0x60004
  | .admNextTag => 0x60008
  | .bxtPortStatus p => 0x80000 + 0x1000 * p.toNat
  | .bxtPortRetx p => 0x80000 + 0x1000 * p.toNat + 4
  | .bxtPortDrop p => 0x80000 + 0x1000 * p.toNat + 8
  | .bxtPartnerId p i => 0x80000 + 0x1000 * p.toNat + 0x10 + 4 * i.toNat
  | .bxtCfg => 0x90000
  | .bxtMember => 0x90004
  | .bxtEvents => 0x90008
  | .bxtRelLate => 0x9000C
  | .bxtRejoin => 0x90010
  | .bxtMgroup i => 0x90100 + 4 * i.toNat
  | .bxtRoster i => 0x91000 + 4 * i.toNat
  | .ptpStatus => 0xC0000
  | .ptpTimeLo => 0xC0004
  | .ptpTimeHi => 0xC0008
  | .ptpRelMargin => 0xC000C
  | .ptpPpsInLo => 0xC0010
  | .ptpPpsInHi => 0xC0014
  | .echoCtrl => 0x100000
  | .echoStatus => 0x100004
  | .echoSeqLo => 0x100008
  | .echoSeqHi => 0x10000C
  | .echoTailLo => 0x100010
  | .echoTailHi => 0x100014
  | .echoDrainLo => 0x100018
  | .echoDrainHi => 0x10001C
  | .echoReplayEndLo => 0x100020
  | .echoReplayEndHi => 0x100024
  | .echoRingMib => 0x100028
  | .echoRestore => 0x10002C
  | .echoJob => 0x100030
  | .fltCtrl => 0x140000
  | .fltStatus => 0x140004
  | .fltRec => 0x140008
  | .fltRecStepLo => 0x14000C
  | .fltRecStepHi => 0x140010
  | .fltCkptGen => 0x140014
  | .fltCkptStepLo => 0x140018
  | .fltCkptStepHi => 0x14001C
  | .fltCount => 0x140020
  | .fltLastMs => 0x140024
  | .fltLostLo => 0x140028
  | .fltLostHi => 0x14002C
  | .fltSelftest => 0x140030
  | .fltOtp => 0x140034
  | .fltMc => 0x140038
  | .tileId t => tileWin t
  | .tileStatus t => tileWin t + 4
  | .tileErr t => tileWin t + 8
  | .tileBeatLo t => tileWin t + 16
  | .tileBeatHi t => tileWin t + 20
  | .tilePc t => tileWin t + 24
  | .tileEcc t => tileWin t + 28
  | .tileEccAddr t => tileWin t + 32
  | .tileFlitRetry t => tileWin t + 36
  | .tileSpmAddr t => tileWin t + 48
  | .tileSpmData t => tileWin t + 52
  | .utileId d r => dieWin d + 0x200000 + 0x2000 * r.toNat
  | .utileStatus d r => dieWin d + 0x200000 + 0x2000 * r.toNat + 4
  | .utileErr d r => dieWin d + 0x200000 + 0x2000 * r.toNat + 8
  | .utileBeatLo d r => dieWin d + 0x200000 + 0x2000 * r.toNat + 16
  | .utileBeatHi d r => dieWin d + 0x200000 + 0x2000 * r.toNat + 20
  | .utilePc d r => dieWin d + 0x200000 + 0x2000 * r.toNat + 24
  | .utileEcc d r => dieWin d + 0x200000 + 0x2000 * r.toNat + 28
  | .utileEccAddr d r => dieWin d + 0x200000 + 0x2000 * r.toNat + 32
  | .utileFlitRetry d r => dieWin d + 0x200000 + 0x2000 * r.toNat + 36
  | .utileSpmAddr d r => dieWin d + 0x200000 + 0x2000 * r.toNat + 48
  | .utileSpmData d r => dieWin d + 0x200000 + 0x2000 * r.toNat + 52
  | .dieRowmap d r => dieWin d + 0x370000 + 4 * r.toNat
  | .syncCnt c => dieWin (c.extractLsb' 10 3) + 0x300000 + 4 * (c.toNat % 1024)
  | .syncFault d => dieWin d + 0x301000
  | .hbmStatus k => dieWin (k.extractLsb' 2 3) + 0x340000 + 0x1000 * (k.toNat % 4)
  | .hbmErr k => dieWin (k.extractLsb' 2 3) + 0x340000 + 0x1000 * (k.toNat % 4) + 4
  | .hbmCeCount k => dieWin (k.extractLsb' 2 3) + 0x340000 + 0x1000 * (k.toNat % 4) + 8
  | .hbmErrAddrLo k => dieWin (k.extractLsb' 2 3) + 0x340000 + 0x1000 * (k.toNat % 4) + 16
  | .hbmErrAddrHi k => dieWin (k.extractLsb' 2 3) + 0x340000 + 0x1000 * (k.toNat % 4) + 20
  | .hbmSpare0 k => dieWin (k.extractLsb' 2 3) + 0x340000 + 0x1000 * (k.toNat % 4) + 32
  | .hbmSpare1 k => dieWin (k.extractLsb' 2 3) + 0x340000 + 0x1000 * (k.toNat % 4) + 36
  | .d2dStat d l => dieWin d + 0x360000 + 0x100 * l.toNat
  | .d2dRetry d l => dieWin d + 0x360000 + 0x100 * l.toNat + 4
  | .pgvCtrl d => dieWin d + 0x380000
  | .pgvStatus d => dieWin d + 0x380000 + 4
  | .pgvFault d => dieWin d + 0x380000 + 8
  | .pgvBeatrate d => dieWin d + 0x380000 + 12
  | .pgvDroopCount d => dieWin d + 0x380000 + 16
  | .pgvHoldNsLo d => dieWin d + 0x380000 + 24
  | .pgvHoldNsHi d => dieWin d + 0x380000 + 28
  | .pgvHlateCount d => dieWin d + 0x380000 + 32
  | .pgvTj d => dieWin d + 0x380000 + 36
  | .cgsStatus d => dieWin d + 0x390000
  | .cgsPending d => dieWin d + 0x390000 + 4
  | .cgsFault d => dieWin d + 0x390000 + 8
  | .cgsSeed d n w => dieWin d + 0x390100 + 0x10 * n.toNat + 4 * w.toNat
  | .svdFault d => dieWin d + 0x3A0000
  | .svcCtrl n => 0x13A1000 + 0x80 * n.toNat
  | .svcResult n => 0x13A1000 + 0x80 * n.toNat + 4
  | .svcPosLo n => 0x13A1000 + 0x80 * n.toNat + 8
  | .svcPosHi n => 0x13A1000 + 0x80 * n.toNat + 12
  | .svcSeed n w => 0x13A1000 + 0x80 * n.toNat + 0x10 + 4 * w.toNat
  | .svcInvT n => 0x13A1000 + 0x80 * n.toNat + 32
  | .svcC n => 0x13A1000 + 0x80 * n.toNat + 36
  | .svcTopP n => 0x13A1000 + 0x80 * n.toNat + 40
  | .svcFilt n => 0x13A1000 + 0x80 * n.toNat + 44
  | .svcPenPtrLo n => 0x13A1000 + 0x80 * n.toNat + 48
  | .svcPenPtrHi n => 0x13A1000 + 0x80 * n.toNat + 52
  | .svcKvPtrLo n => 0x13A1000 + 0x80 * n.toNat + 56
  | .svcKvPtrHi n => 0x13A1000 + 0x80 * n.toNat + 60
  | .svcHostTmo n => 0x13A1000 + 0x80 * n.toNat + 64
  | .svcYSel n => 0x13A1000 + 0x80 * n.toNat + 68
  | .svcM n => 0x13A1000 + 0x80 * n.toNat + 72
  | .svcS n => 0x13A1000 + 0x80 * n.toNat + 76
  | .feCfg d => dieWin d + 0x3B0000
  | .feLoadStatus d => dieWin d + 0x3B0000 + 4
  | .feConflictCount d => dieWin d + 0x3B0000 + 8
  | .feConflictTgt d => dieWin d + 0x3B0000 + 12
  | .feConflictSrc d => dieWin d + 0x3B0000 + 16
  | .feZeroed d => dieWin d + 0x3B0000 + 20
  | .feLoadRec d => dieWin d + 0x3B0000 + 24
  | .feRot d => dieWin d + 0x3B0000 + 28
  | .feSweepLo d => dieWin d + 0x3B0000 + 32
  | .feSweepHi d => dieWin d + 0x3B0000 + 36
  | .feFault d => dieWin d + 0x3B0000 + 40
  | .rsCfg d => dieWin d + 0x3C0000
  | .rsXchgE d => dieWin d + 0x3C0000 + 4
  | .rsA0 d => dieWin d + 0x3C0000 + 8
  | .rsC0 d => dieWin d + 0x3C0000 + 12
  | .rsDt d => dieWin d + 0x3C0000 + 16
  | .rsCs d => dieWin d + 0x3C0000 + 20
  | .rsIter d => dieWin d + 0x3C0000 + 24
  | .rsParamT d => dieWin d + 0x3C0000 + 28
  | .rsParamA d => dieWin d + 0x3C0000 + 32
  | .rsParamG d => dieWin d + 0x3C0000 + 36
  | .rsTraceInt d => dieWin d + 0x3C0000 + 40
  | .rsTraceCount d => dieWin d + 0x3C0000 + 44
  | .rsTraceDrop d => dieWin d + 0x3C0000 + 48
  | .rsXchgSkip d => dieWin d + 0x3C0000 + 52
  | .rsStatus d => dieWin d + 0x3C0000 + 56

end Sys2Proof.Machine
end

