-- ==== Sys2Proof/Machine/JobState.lean ====
section
/-!
DEFINITION. The state of the running job, of a Sieve row, of the Echo log and of recovery (06, 07, 08, 10, 11, 12).
-/
namespace Sys2Proof.Machine

/-- Where a run-time fault lies: the outcome code of R276 with the DIE and WHERE fields of FLT_REC (R309, R328). -/
structure FaultRec where
  code : Nat
  /-- bit of TILE_ERR that names the cause of a TILE_FAULT -/
  bit : Nat := 32
  /-- receiving port of a FLIT_FAIL, and at its diagnosis whether the port has failed within the last hour (R309) -/
  port : Nat := 0
  again : Bool := false
  die : Nat := 8
  loc : Nat := 0
  deriving DecidableEq, Repr

/-- One score that a pass of a SIEVE_DRAW supplied (R469): pass number, tile, index, masked score, whether it is excluded or
bad (R154), and in the noised pass its key (R155). -/
structure Score where
  pass : Nat
  tile : TileId
  i : Nat
  y : U32
  excl : Bool
  bad : Bool
  key : U32
  /-- M and S of the lane's statistics (R469) -/
  m : U32 := 0
  s : U32 := 0
  deriving DecidableEq, Repr

/-- The row of a SIEVE_DRAW in progress for one stream (R469), and what HOST_WAIT keeps of it (R171, R172). -/
structure Row where
  len : Nat := 0
  step : Nat := 0
  fset : Nat := 0
  mode : Nat := 0
  scores : List Score := []
  /-- the draw is decided and waits for its answer: the module's own index, the entries that may be answered with their masked scores, the
  statistics and the flags of the result -/
  decided : Bool := false
  own : Nat := 0
  kept : List (Nat × U32) := []
  rm : U32 := 0
  rs : U32 := 0
  flags : Nat := 0
  deriving DecidableEq, Repr

/-- A tile's part of a rotation block as the loader left it (R181, R182, R187): where its resident form lies, its source table and its
streamed part. -/
structure FeBlock where
  addr : Nat := 0
  len : Nat := 0
  srcs : List (Nat × Nat) := []
  streamed : List Entry := []
  deriving DecidableEq, Repr

/-- Field-engine and Roaster state of the job as a whole (R187, R205-R213): the loaded blocks by tile and block number, the digest of each block's resident form, the step size of positions, c0 in use, the two curves, samples written, and energies of tiles that wait for the others
(iteration, chain, tile, E_ROUND, E_CONT). -/
structure FeJob where
  blocks : Tab (Nat × Nat) FeBlock := []
  digests : Tab Nat Digest := []
  dta0 : U32 := 0
  c0 : U32 := 0
  tpt : List (Nat × U32) := []
  apt : List (Nat × U32) := []
  trace : Nat := 0
  sums : List (Nat × Nat × Nat × Int × Int) := []
  /-- the last ASYNC set taken from each peer: its SEQ, region and bytes (R217, R218) -/
  taken : Tab Nat (Nat × Nat × List Byte) := []
  deriving DecidableEq, Repr

/-- A checkpoint or saved context as data (R146, R174, R196, R218, R228, R289, R303, R317, R367): its generation or address, the
fields of its header, the hardware state, and the checkpoint map's ranges and bytes. -/
structure Snap where
  gen : Nat := 0
  addr : Nat := 0
  step : Nat := 0
  seq : Nat := 0
  chain : Digest := 0
  nsv : Nat := 0
  mode : Nat := 0
  count : Nat := 0
  rank : Nat := 0
  logical : Nat := 0
  variant : Nat := 0
  members : List Nat := []
  tiles : Tab TileId Tile := []
  regs : Tab Reg U32 := []
  rows : Tab (BitVec 9) Row := []
  strm : Tab Nat (Nat × Nat) := []
  fe : FeJob := {}
  rings : Tab Nat Nat := []
  transfers : List Transfer := []
  /-- place of the replay source, where the job was loaded in replay mode -/
  srcPos : Option Nat := none
  chans : Tab (Nat × Nat) Chan := []
  arrivals : List Arrival := []
  outgoing : List Outgoing := []
  barriers : List Barrier := []
  sets : Tab (Nat × Nat) (Nat × List Byte) := []
  ghosts : List (Nat × List Byte) := []
  closing : List Nat := []
  ranges : List (Nat × List Byte) := []
  /-- the bytes of every entry of the checkpoint map, in map order -/
  body : List Byte := []
  deriving DecidableEq, Repr

/-- What the job as a whole does. -/
inductive JPhase where
  /-- no job is loaded -/
  | none
  /-- the job-load checks are running (R250) -/
  | loading
  | running
  /-- tiles stop at their beat boundaries after a fault, or stay frozen (R70, R309) -/
  | frozen
  /-- held at a step boundary while a saved context is written (R302) -/
  | saving
  /-- suspended at a step boundary for a forced self-test (R326) -/
  | suspended
  deriving DecidableEq, Repr

/-- The running job (R250, R280-R292, R302, R317). -/
structure Job where
  phase : JPhase := .none
  slot : Nat := 0
  img : Image := {}
  profile : Nat := 0
  rank : Nat := 0
  count : Nat := 1
  members : List Nat := []
  jobId : Nat := 0
  standing : Bool := false
  queue : Nat := 64
  /-- the job-load block (R338) -/
  block : List Byte := []
  step : Nat := 0
  chain : Digest := 0
  weights : Digest := 0
  gen : Nat := 0
  /-- the step at whose boundary a PAUSE takes effect, and the queue of its command (R302) -/
  pauseAt : Option Nat := none
  pauseQ : Option Nat := none
  /-- the step at whose boundary a forced self-test suspends the job (R326), and DIGEST_INTERVAL as in force (R292) -/
  suspendAt : Option Nat := none
  digInt : Nat := 0
  /-- checkpoints go to the host buffers (R351, sampled at job load) -/
  hostCkpt : Bool := false
  /-- HIF_POLICY.LINK and DRBG likewise -/
  hostLink : Bool := false
  hostDrbg : Bool := false
  /-- a replay that not every rank has joined: this member replays alone (R368) -/
  alone : Bool := false
  /-- boundaries that are reached and at which every tile still holds (R292, R302, R317) -/
  holds : List Nat := []
  /-- elements issued and arrived of each HBM stream (R32) -/
  strm : Tab Nat (Nat × Nat) := []
  /-- a checkpoint, a step digest, or a saved context is being written -/
  ckptBusy : Bool := false
  digestBusy : Bool := false
  /-- served DRBG values that a FRESH_SEED waits for (R133) -/
  fresh : List (Nat × U128) := []
  written : List (Nat × Option Nat) := []
  /-- digests of the 2 MiB chunks of IMAGE, WEIGHTS and LEDGER regions at job load, by address and length (R289, R316) -/
  chunks : List (Nat × Nat × Digest) := []
  fe : FeJob := {}
  deriving DecidableEq, Repr

/-- An Echo-log entry (R294); the payload field is kept as a little-endian number. -/
structure EchoEntry where
  typ : Nat
  agent : Nat := 0
  aux : Nat := 0
  len : Nat := 0
  payload : Nat := 0
  deriving DecidableEq, Repr

/-- What an external input does once its Echo entry is appended (R293). -/
inductive DAct where
  | nothing
  /-- bytes of a POST, a DMA read or a Bexir message go to an HBM address (R337, R344, R365) -/
  | payload (addr : Nat) (bytes : List Byte)
  /-- an EXTERNAL counter increment (R230) -/
  | count (counter n : Nat)
  /-- a host answer to a Sieve draw; all ones stands for its timeout (R171, R173) -/
  | answer (stream index : Nat)
  /-- a fresh seed for a seed-store entry (R133) -/
  | fresh (entry : Nat) (seed : U128)
  /-- values for lanes 0 up of a vector register of a tile that waits for them (R376, R397) -/
  | lanes (tile : TileId) (vreg : Nat) (vals : List U32)
  /-- an admission: the stream is bound to a context image, if one was fetched, or refused (R342) -/
  | admission (stream tag : Nat) (image : Option (List Byte)) (refused : Bool)
  /-- the lanes of an ADMIT are complete (R342) -/
  | admitted (tile : TileId) (vreg : Nat) (vals : List U32)
  /-- the command that the queue is executing completes with success (R337) -/
  | finish (queue : Nat)
  /-- the positions of a peer's set reach the source tables (R217) -/
  | ghost (region : Nat) (bytes : List Byte)
  /-- the positions of a peer's message wait for the barrier that closes the exchange (R216, R365) -/
  | hold (region : Nat) (bytes : List Byte)
  deriving DecidableEq, Repr

/-- An input at the ingress: its Echo entry and what it does (R293). -/
structure Delivery where
  entry : EchoEntry
  acts : List DAct := []
  deriving DecidableEq, Repr

/-- The Echo log beside its registers (R293-R300).  The ring itself lies in memory. -/
structure Echo where
  /-- sampled at job load (R297) -/
  mode : Nat := 0
  full : Bool := false
  liveAfter : Bool := false
  /-- first byte of the ring and its entries, while a job is loaded -/
  base : Nat := 0
  cap : Nat := 0
  /-- next SEQ -/
  seq : Nat := 0
  /-- oldest SEQ held -/
  tail : Nat := 0
  /-- inputs that wait at the ingress (R296, R298) -/
  waiting : List Delivery := []
  /-- the host ring that ECHO_RING names: base, entries, tail address (R348) -/
  hostBase : Nat := 0
  hostLen : Nat := 0
  hostTail : Nat := 0
  /-- replay is consuming the source -/
  replay : Bool := false
  /-- the job was loaded in replay mode (flag REPLAY of R286) -/
  rmode : Bool := false
  /-- the replay is that of a recovery (R305) -/
  recover : Bool := false
  /-- replay stopped under R299 or R300 -/
  stopped : Bool := false
  /-- first byte of the source, its entries, and the next one; in recovery, the first SEQ of the source -/
  src : Nat := 0
  srcLen : Nat := 0
  pos : Nat := 0
  endSeq : Nat := 0
  /-- entries that the host supplied for recovery: host address, first SEQ, count of each range (R322) -/
  supply : List (Nat × Nat × Nat) := []
  /-- SEQ of the last entry consumed -/
  last : Nat := 0
  /-- SEQ at the last step boundary (R286) -/
  stepSeq : Nat := 0
  /-- address of each POST payload by SEQ, with its entry; the entry does not hold it -/
  posts : Tab Nat (Nat × EchoEntry) := []
  /-- the module's own entries that wait for room while replay runs (R296, R298) -/
  late : List EchoEntry := []
  /-- increments of EXTERNAL counters that replay took from the log and that the program's own transfers and messages have not made
  again yet (R298) -/
  given : Tab Nat Nat := []
  /-- how often a read of the source in host memory has been reissued (R345) -/
  tries : Nat := 0
  deriving DecidableEq, Repr

/-- Recovery and self-test beside the FLT registers (R309-R327). -/
structure Flt where
  /-- faults that the MC has not diagnosed, those that it has diagnosed and not repaired, and those that the recovery in progress has
  repaired (R321) -/
  pending : List FaultRec := []
  cur : List FaultRec := []
  mended : List FaultRec := []
  /-- faults that count within an hour: code, physical place, time in ms (R309) -/
  recent : List (Nat × Nat × Nat) := []
  /-- the latest good checkpoint; the one being written; the saved context being written; and every copy taken, oldest first -/
  good : Option Snap := none
  writing : Option Snap := none
  saving : Option Snap := none
  copies : List Snap := []
  /-- job step at the failure; the replay phase; the restore was of another generation than the latest good one -/
  failStep : Nat := 0
  phase6 : Bool := false
  fellBack : Bool := false
  /-- codes and steps of the faults of the recovery in progress (R321) -/
  seen : List (Nat × Nat) := []
  attemptGen : Nat := 0
  /-- generations that this recovery has given up (R322) -/
  skipGens : List Nat := []
  /-- ranges that the host has to rewrite, start and length (R316) -/
  rebuild : List (Nat × Nat) := []
  /-- the copy (generation, mirror) that waits for entries from a SEQ on (R322) -/
  need : Option (Nat × Nat × Nat) := none
  /-- faults that no job takes and that the absent MC has not recorded (R327) -/
  notes : List FaultRec := []
  /-- sectors that cannot be corrected and have not been rebuilt (R240, R243, R316) -/
  ueSectors : List Nat := []
  /-- sectors of copies that cannot be corrected, and Echo entries lost with their sector (R316) -/
  badSectors : List Nat := []
  badEcho : List Nat := []
  /-- the job has ended under R309 and stays FROZEN -/
  ended : Bool := false
  /-- self-tests asked for and deferred, and those running: bits of REQ (R326) -/
  deferred : Nat := 0
  testing : Nat := 0
  /-- threshold remaps (stack, pseudo-channel) that wait for host approval (R243, R315) -/
  heldRemaps : List (Nat × Nat) := []
  mcAbsent : Bool := false
  /-- the copy of the firmware in the MC's SRAM fails its digest (R327) -/
  copyBad : Bool := false
  /-- time of the last MC reset in ms (R327) -/
  mcLastReset : Option Nat := none
  /-- step of each tile's last passing spot check (R310) -/
  mxPass : Tab TileId Nat := []
  deriving DecidableEq, Repr

end Sys2Proof.Machine
end

