-- ==== Sys2Proof/Machine/HostState.lean ====
section
/-!
DEFINITION. The state of the host side beside its registers: queues, admission pool, DMA rings, mailbox (13).
-/
namespace Sys2Proof.Machine

/-- A submission entry that the module has fetched: its 64 bytes, where it came from and the SQ head after it (R337). -/
structure Cmd where
  queue : Nat
  bytes : List Byte
  head : Nat
  deriving DecidableEq, Repr

/-- A completion that waits for its CQ slot (R336, R339). -/
structure Completion where
  queue : Nat
  cid : Nat
  head : Nat
  result0 : Nat
  code : Nat
  typ : Nat
  deriving DecidableEq, Repr

/-- A queue pair beside its registers (R333-R336). -/
structure QPair where
  tail : Nat := 0
  head : Nat := 0
  cqHead : Nat := 0
  cqTail : Nat := 0
  phase : Bool := true
  ready : List Completion := []
  busy : Option Cmd := none
  deriving DecidableEq, Repr

/-- A generation request in the admission pool (R341). -/
structure Request where
  queue : Nat
  cid : Nat
  head : Nat
  tag : Nat
  last : Bool
  ctx : Nat
  prefixId : Nat
  deriving DecidableEq, Repr

/-- An MC event of R349: its type and the words of the 32-byte window after EVT0. -/
structure McEvent where
  typ : Nat
  words : List Nat := []
  deriving DecidableEq, Repr

/-- The host interface beside its registers. -/
structure Hif where
  linkUp : Bool := false
  queues : Tab Nat QPair := []
  pool : List Request := []
  lastPrefix : Tab Nat Nat := []
  ringNext : Tab Nat Nat := []
  transfers : List Transfer := []
  events : List McEvent := []
  mbxPending : Option Nat := none
  /-- doorbell writes held until READY: 0 SQ tail, 1 CQ head, 2 Sieve answer; which one; the value (R410) -/
  heldBells : List (Nat × Nat × U32) := []
  ckptHost : Option (Nat × Nat × Nat) := none
  /-- MSI-X messages that have left, the vectors that are masked, and those whose messages are pending for it (R340) -/
  msix : List Nat := []
  masked : List Nat := []
  pba : List Nat := []
  /-- a pause that a loss of the link asked for is pending (R350) -/
  linkPause : Bool := false
  /-- size of BAR2, by Resizable BAR (R331) -/
  bar2Size : Nat := 0x10000000
  admMode : Nat := 0
  jobCount : Nat := 0
  /-- write generation of each GiB, and the cached digests of regions: base, length, generations of its GiBs (R290) -/
  gens : Tab Nat Nat := []
  digests : List (Nat × Nat × List Nat × Digest) := []
  deriving DecidableEq, Repr

/-- A vector is signalled: its message leaves, or is pending in the PBA while the vector is masked (R340). -/
def Hif.signalled (h : Hif) (v : Nat) : Hif :=
  if h.masked.contains v then { h with pba := if h.pba.contains v then h.pba else h.pba ++ [v] } else { h with msix := h.msix ++ [v] }

end Sys2Proof.Machine
end

