-- ==== Sys2Proof/Machine/NetState.lean ====
section
/-!
DEFINITION. Frames of the Ethernet side and the state of Bexir and of the time base (14).
-/
namespace Sys2Proof.Machine

/-- A Bexir datagram as it arrives or leaves (R355, R357). -/
structure Frame where
  port : Nat := 0
  /-- VLAN ID and PCP of its 802.1Q tag, where it has one -/
  tagged : Option (Nat × Nat) := none
  /-- IPv4, with its DF bit, else IPv6 -/
  v4 : Bool := false
  df : Bool := false
  /-- source and destination address as numbers, UDP ports, and whether the UDP checksum is right -/
  addr : Nat := 0
  dest : Nat := 0
  srcPort : Nat := 0xBE58
  dstPort : Nat := 0xBE58
  udpOk : Bool := true
  /-- the 4-byte CRC32C that ends the datagram -/
  crc : U32 := 0
  ver : Nat := 1
  typ : Nat := 0
  flags : Nat := 0
  src : Nat := 0xFFFF
  dst : Nat := 0xFFFF
  tag : Nat := 0
  channel : Nat := 0
  credit : Nat := 0
  seq : Nat := 0
  ack : Nat := 0
  payload : List Byte := []
  deriving DecidableEq, Repr

/-- What a PTP message carries (R371; notes/assumptions/66.md): times in ns with the corrections of the way added. -/
inductive PtpBody where
  /-- a master's data set, the fourteen bytes from its priority 1 to its identity as a number, and its steps removed -/
  | announce (data steps : Nat)
  /-- the origin time of a one-step Sync; of a two-step one it comes in a Follow_Up -/
  | sync (origin : Option Nat)
  | followUp (origin : Nat)
  | delayReq
  /-- time at which the request was received -/
  | delayResp (rx : Nat)
  | pdelayReq
  | pdelayResp (rx : Nat)
  /-- time at which the response was sent -/
  | pdelayFollowUp (tx : Nat)
  deriving DecidableEq, Repr

/-- How a PTP message travels: its domain, whether over UDP/IPv6 or layer 2, and its 802.1Q tag (R371). -/
structure PtpVia where
  domain : Nat := 0
  udp : Bool := false
  tagged : Option (Nat × Nat) := none
  deriving DecidableEq, Repr

/-- A PTP message as it arrives or leaves. -/
structure PtpMsg where
  port : Nat := 0
  via : PtpVia := {}
  body : PtpBody
  deriving DecidableEq, Repr

/-- The ordinary clock beside its registers (R371). -/
structure Ptp where
  /-- the best master heard of: data set, steps removed and port -/
  best : Option (Nat × Nat × Nat) := none
  /-- receive time of a two-step Sync that waits for its Follow_Up -/
  syncRx : Option Nat := none
  /-- origin and receive time of the last Sync -/
  last : Option (Int × Int) := none
  /-- times at which a delay request left, and at which a peer received and this module took back its answer -/
  reqTx : Option Nat := none
  peerRx : Option (Nat × Nat) := none
  /-- the measured path delay, and the time since which the offset has been within 2 ns -/
  delay : Int := 0
  since : Option Nat := none
  sent : List PtpMsg := []
  deriving DecidableEq, Repr

/-- The Corkor TLV of an LLDPDU (R359). -/
structure Tlv where
  ident : Nat := 0
  verMin : Nat := 0
  verMax : Nat := 0
  nsvMin : Nat := 0
  nsvMax : Nat := 0
  port : Nat := 0
  cfg : Nat := 0
  addr : Nat := 0
  pod : Nat := 0
  deriving DecidableEq, Repr

/-- What the module knows of a peer (R361-R364). -/
structure Peer where
  hello : Bool := false
  ver : Nat := 1
  joined : Bool := false
  lost : Bool := false
  left : Bool := false
  nsv : Nat := 0
  /-- its identity and address, the nonce it sent last, and the nonce it was sent last -/
  ident : Nat := 0
  addr : Nat := 0
  lastNonce : Nat := 0
  sentNonce : Nat := 0
  deriving DecidableEq, Repr

/-- Bexir beside its registers (14). -/
structure Bexir where
  cfg1600 : Bool := false
  podId : Nat := 0
  /-- nonce of the last multicast HELLO, and ports whose link partner belongs to another pod (R359, R361) -/
  helloNonce : Nat := 0
  miscabled : List Nat := []
  peers : Tab Nat Peer := []
  chans : Tab (Nat × Nat) Chan := []
  arrivals : List Arrival := []
  outgoing : List Outgoing := []
  barriers : List Barrier := []
  /-- positions that have landed and wait for the barrier that closes their exchange, and the counters that ANNEAL_XCHG_LOCK operations have named
  (R216) -/
  ghosts : List (Nat × List Byte) := []
  closing : List Nat := []
  sent : List Frame := []
  /-- BARRIER, RELEASE, MEMBER and ECHO_SYNC frames that are not acknowledged yet -/
  unacked : List Frame := []
  lldp : List Tlv := []
  /-- complete ASYNC sets by (rank, SEQ): region and bytes (R217) -/
  sets : Tab (Nat × Nat) (Nat × List Byte) := []
  reports : Tab Nat (Nat × Nat) := []
  choice : Option Nat := none
  recovering : Bool := false
  waitJoin : Bool := false
  /-- MEMBER and ECHO_SYNC frames, and ranks that have fallen silent, that wait for the MC (R327) -/
  mcFrames : List Frame := []
  mcLost : List Nat := []
  ptp : Ptp := {}
  ppsSource : Bool := false
  /-- rising edges of PPS_OUT -/
  ppsOut : Nat := 0
  deriving DecidableEq, Repr

/-- A temperature sensor of R396. -/
inductive Sensor where
  | die (d : BitVec 3)
  | stack (k : BitVec 5)
  | iod
  deriving DecidableEq, Repr

/-- An instruction of the JTAG TAP (R458); the manual gives no codes. -/
inductive Tap where
  | idcode
  | bypass
  | other (code : Nat)
  deriving DecidableEq, Repr

/-- What the world outside adds to an access (R323, R324, R327, R385, R392): PTP time in ns (AON ticks since entry in S3 and deeper),
agents that answer DELAY of their own accord and agents that stay silent, what a repair that the access sets off finds, and the OTP word
that does not read back. -/
structure Access where
  now : Nat := 0
  delays : Nat := 0
  silent : Nat := 0
  fixed : Bool := true
  linkUp : Bool := true
  lost : Bool := false
  bad : Option Nat := none
  deriving DecidableEq, Repr

end Sys2Proof.Machine
end

