-- ==== Sys2Proof/Machine/Operands.lean ====
section
/-!
DEFINITION. Operands of commands that come together: what a sensor reads, what the checks of a tile found, where a descriptor lies.
-/
namespace Sys2Proof.Machine

/-- A droop sensor's reading: the sensor and the supply in microvolts (R21). -/
structure SensorReading where
  sensor : Nat
  uv : Nat
  deriving DecidableEq, Repr

/-- The least supply that the sensors of a die read, in microvolts, and how long the hold has lasted, in ns (R22). -/
structure HoldEnd where
  uv : Nat
  ns : Nat
  deriving DecidableEq, Repr

/-- The beat rate of a die in Mbeat/s, and whether a pacing hold is on (R24, R34). -/
structure BeatPace where
  rate : Nat
  hold : Bool
  deriving DecidableEq, Repr

/-- What the check of a CG core gave: its self-check failed, and the CRC-32C of the table chunk that it read (R147, R310). -/
structure CgCheck where
  bad : Bool
  crc : U32
  deriving DecidableEq, Repr

/-- The accumulator set whose nodes form, and the stack lines that have taken wrong bits: bank, line and words (R50, R107). -/
structure NodeBeat where
  set : Bool
  hits : List (Nat × Nat × Ecc)
  deriving DecidableEq, Repr

/-- A descriptor of a tile's SP table (R261). -/
structure SpAt where
  tile : TileId
  sp : Nat
  deriving DecidableEq, Repr

/-- An error in the MC's SRAM: two wrong bits or one, whether they lie in the copy of the firmware, and the time in ms (R327). -/
structure SramError where
  double : Bool
  copy : Bool
  now : Nat
  deriving DecidableEq, Repr

/-- Tiles that failed a self-test of bring-up, and tiles whose table memory failed its digest (R147, R408). -/
structure TileTests where
  bad : List TileId
  tbl : List TileId
  deriving DecidableEq, Repr

end Sys2Proof.Machine
end

