-- ==== Sys2Proof/Syntax.lean ====
section
/-!
DEFINITION. The commands of the block: one constructor per row of spec/opcode_table.json, with the operands that the row's
rules read from outside: the tile, die, stack, stream, queue or port it acts on, the value written, the words of a bundle
slot, a frame that arrives, and what the environment does (times, temperatures, errors, answers).
-/
namespace Sys2Proof

open Machine in
/-- A command (spec/opcode_table.json). -/
inductive Instr where
  /-- IDLE_BEAT (R42). -/
  | idleBeat (t : TileId)
  /-- STALL_WATCHDOG_EXPIRY (R18). -/
  | stallWatchdogExpiry (d : DieId)
  /-- DROOP_HOLD_ASSERT (R21). -/
  | droopHoldAssert (d : DieId) (r : SensorReading)
  /-- DROOP_HOLD_RELEASE (R22). -/
  | droopHoldRelease (d : DieId) (e : HoldEnd)
  /-- DROOP_STUCK (R23). -/
  | droopStuck (d : DieId)
  /-- SENSOR_FAIL (R23). -/
  | sensorFail (d : DieId) (sensor : Nat)
  /-- SENSOR_RETIRE (R23). -/
  | sensorRetire (d : DieId) (sensor : Nat) (ns : Nat)
  /-- BUDGET_DIVIDE (R24). -/
  | budgetDivide (demand : List Nat) (avg : Nat) (peak : Nat)
  /-- PACING_ADJUST (R24). -/
  | pacingAdjust (d : DieId) (power : Nat) (pace : BeatPace) (tj : BitVec 16) (vsense : BitVec 8)
  /-- VSET_ADJUST (R25). -/
  | vsetAdjust (duty : Nat)
  /-- HOST_CAP_WRITE (R26). -/
  | hostCapWrite (v : U32)
  /-- HBM_STREAM_ISSUE (R32). -/
  | hbmStreamIssue (n : Nat)
  /-- HBM_STREAM_ELEMENT_ARRIVAL (R49). -/
  | hbmStreamElementArrival (n : Nat) (bad : Nat)
  /-- NEXT (R43). -/
  | next (t : TileId)
  /-- LOOP_BEGIN (R43). -/
  | loopBegin (t : TileId) (arg : Nat)
  /-- LOOP_END (R43). -/
  | loopEnd (t : TileId)
  /-- LOOP_ONE (R43). -/
  | loopOne (t : TileId) (arg : Nat)
  /-- STEP_END (R128). -/
  | stepEnd (t : TileId)
  /-- MAINT_BEGIN (R274). -/
  | maintBegin (t : TileId) (arg : Nat) (mxBad : Bool) (cg : CgCheck) (scrub : List (Nat × Nat × Ecc))
  /-- MAINT_END (R43). -/
  | maintEnd (t : TileId)
  /-- HALT (R43). -/
  | halt (t : TileId)
  /-- LEAF (R262). -/
  | leaf (t : TileId) (set : Bool) (td : Nat) (areg : Nat) (ahi : Bool) (breg : Nat) (bhi : Bool) (opn : Bool) (bx : Nat) (bxinc : Bool) (dro : Bool) (dstats : Bool)
  /-- TREE_NODE_FORM (R107). -/
  | treeNodeForm (t : TileId) (n : NodeBeat)
  /-- DRAIN (R109). -/
  | drain (t : TileId) (set : Bool) (stats : Bool)
  /-- DRAIN_CONVERT (R113). -/
  | drainConvert (t : TileId) (set : Bool)
  /-- PARK (R108). -/
  | park (t : TileId) (set : Bool) (td : Nat)
  /-- RESUME (R108). -/
  | resume (t : TileId) (set : Bool) (td : Nat)
  /-- VADD (R263). -/
  | vadd (t : TileId) (vd : Nat) (va : Nat) (vb : Nat) (rmode : Nat) (fmt : Nat)
  /-- VSUB (R263). -/
  | vsub (t : TileId) (vd : Nat) (va : Nat) (vb : Nat) (rmode : Nat) (fmt : Nat)
  /-- VMUL (R263). -/
  | vmul (t : TileId) (vd : Nat) (va : Nat) (vb : Nat) (rmode : Nat) (fmt : Nat)
  /-- VFMA (R263). -/
  | vfma (t : TileId) (vd : Nat) (va : Nat) (vb : Nat) (vc : Nat) (rmode : Nat) (fmt : Nat)
  /-- VMAX (R90). -/
  | vmax (t : TileId) (vd : Nat) (va : Nat) (vb : Nat) (fmt : Nat)
  /-- VMIN (R90). -/
  | vmin (t : TileId) (vd : Nat) (va : Nat) (vb : Nat) (fmt : Nat)
  /-- VCMP (R263). -/
  | vcmp (t : TileId) (vd : Nat) (va : Nat) (vb : Nat) (pred : Nat) (fmt : Nat)
  /-- VSEL (R263). -/
  | vsel (t : TileId) (vd : Nat) (va : Nat) (vb : Nat) (vc : Nat)
  /-- VCVT (R88). -/
  | vcvt (t : TileId) (vd : Nat) (va : Nat) (src : Nat) (fmt : Nat) (rmode : Nat) (sat : Bool)
  /-- VQMX (R79). -/
  | vqmx (t : TileId) (vd : Nat) (va : Nat) (rmode : Nat)
  /-- EXP2 (R96). -/
  | exp2 (t : TileId) (vd : Nat) (va : Nat)
  /-- COMBINE (R119). -/
  | combine (t : TileId) (vd : Nat) (va : Nat) (vb : Nat) (trm : Nat) (slot : Nat)
  /-- PASS (R119). -/
  | pass (t : TileId) (vd : Nat) (va : Nat) (l : Nat)
  /-- FS_ADD (R58). -/
  | fsAdd (t : TileId) (va : Nat) (ln : Nat)
  /-- FS_READ (R58). -/
  | fsRead (t : TileId) (vd : Nat) (ln : Nat)
  /-- FS_CLR (R58). -/
  | fsClr (t : TileId)
  /-- FS_RDCLR (R58). -/
  | fsRdclr (t : TileId) (vd : Nat) (ln : Nat)
  /-- STATS_FIN (R114). -/
  | statsFin (t : TileId) (vd : Nat) (va : Nat) (vb : Nat)
  /-- LDV (R264). -/
  | ldv (t : TileId) (bank : Nat) (line : Nat) (ixen : Bool) (ix : Nat) (inc : Bool) (reg : Nat) (e : Ecc)
  /-- STV (R264). -/
  | stv (t : TileId) (bank : Nat) (line : Nat) (ixen : Bool) (ix : Nat) (inc : Bool) (reg : Nat)
  /-- LDM (R264). -/
  | ldm (t : TileId) (bank : Nat) (line : Nat) (ixen : Bool) (ix : Nat) (inc : Bool) (reg : Nat) (e : Ecc)
  /-- TKV (R49). -/
  | tkv (t : TileId) (bank : Nat) (line : Nat) (ixen : Bool) (ix : Nat) (inc : Bool) (reg : Nat) (e : Ecc)
  /-- TKM (R264). -/
  | tkm (t : TileId) (bank : Nat) (line : Nat) (ixen : Bool) (ix : Nat) (inc : Bool) (reg : Nat) (e : Ecc)
  /-- STD (R264). -/
  | std (t : TileId) (bank : Nat) (line : Nat) (ixen : Bool) (ix : Nat) (inc : Bool) (set : Bool)
  /-- IXSET (R264). -/
  | ixset (t : TileId) (ix : Nat) (line : Nat)
  /-- FWD (R226). -/
  | fwd (t : TileId) (port : Nat) (mask : Nat) (bad : Bool)
  /-- RECV (R265). -/
  | recv (t : TileId) (port : Nat) (vec : Bool) (n : Nat) (ix : Nat) (inc : Bool) (bad : Bool)
  /-- SEND (R265). -/
  | send (t : TileId) (port : Nat) (vec : Bool) (n : Nat) (ix : Nat) (inc : Bool) (e : Ecc)
  /-- ADDF (R120). -/
  | addf (t : TileId) (in1 : Nat) (in2 : Nat) (out : Nat) (slot : Nat) (bad1 : Bool) (bad2 : Bool)
  /-- FLIT_RESEND (R68). -/
  | flitResend (t : TileId) (port : Nat) (bad : Bool)
  /-- SET (R229). -/
  | set (t : TileId) (handle : Nat) (vreg : Nat) (stepv : Bool)
  /-- INC (R229). -/
  | inc (t : TileId) (handle : Nat)
  /-- ADD (R229). -/
  | add (t : TileId) (handle : Nat) (vreg : Nat) (stepv : Bool)
  /-- WAIT_GE (R229). -/
  | waitGe (t : TileId) (handle : Nat) (vreg : Nat) (stepv : Bool)
  /-- CG_LDKEY (R131). -/
  | cgLdkey (t : TileId) (entry : BitVec 4) (slot : Nat)
  /-- CG_XSET (R138). -/
  | cgXset (t : TileId) (sp : Nat)
  /-- CG_DRAW (R139). -/
  | cgDraw (t : TileId) (sp : Nat) (slot : Nat) (xreg : Nat) (xinc : Bool) (code : Nat)
  /-- CG_BLOCK_EMERGE (R145). -/
  | cgBlockEmerge (t : TileId)
  /-- TABLE_TRANSFORM (R144). -/
  | tableTransform (t : TileId)
  /-- FRESH_SEED (R133). -/
  | freshSeed (t : TileId) (entry : BitVec 4)
  /-- FRESH_SEED_COMPLETE (R133). -/
  | freshSeedComplete (entry : BitVec 4)
  /-- SV_LDKEY (R169). -/
  | svLdkey (t : TileId) (sp : Nat) (slot : Nat)
  /-- SV_PASS (R166). -/
  | svPass (t : TileId) (sp : Nat) (xreg : Nat) (xinc : Bool) (code : Nat)
  /-- SV_DRAW (R469). -/
  | svDraw (t : TileId) (sp : Nat) (slot : Nat) (xreg : Nat) (xinc : Bool) (code : Nat) (quarter : Nat)
  /-- SIEVE_DECISION (R167). -/
  | sieveDecision (n : BitVec 9)
  /-- COMB_RETRY (R174). -/
  | combRetry (d : DieId) (n : BitVec 9) (bad : Bool)
  /-- HOST_TIMEOUT (R173). -/
  | hostTimeout (n : BitVec 9)
  /-- SV_CTXRD (R170). -/
  | svCtxrd (t : TileId) (sp : Nat)
  /-- FE_EVAL (R191). -/
  | feEval (t : TileId) (sp : Nat) (ce : BitVec 16) (ue : BitVec 16)
  /-- FE_SEVAL (R191). -/
  | feSeval (t : TileId) (sp : Nat) (ce : BitVec 16) (ue : BitVec 16)
  /-- PC_UPDATE (R188). -/
  | pcUpdate (t : TileId) (sp : Nat) (slot : Nat)
  /-- PC_OHDRAW (R190). -/
  | pcOhdraw (t : TileId) (sp : Nat) (slot : Nat)
  /-- FE_ROT (R195). -/
  | feRot (a : SpAt)
  /-- FE_STORE (R196). -/
  | feStore (t : TileId) (sp : Nat)
  /-- FE_MAGCLR (R196). -/
  | feMagclr (t : TileId) (sp : Nat)
  /-- RS_UPDATE (R201). -/
  | rsUpdate (t : TileId) (sp : Nat) (slot : Nat)
  /-- PROFILE_PARAMS (R208). -/
  | profileParams (d : DieId)
  /-- RS_ENERGY (R211). -/
  | rsEnergy (t : TileId)
  /-- ANNEAL_XCHG_LOCK (R216). -/
  | annealXchgLock (t : TileId) (sp : Nat)
  /-- ANNEAL_XCHG_ASYNC (R217). -/
  | annealXchgAsync (t : TileId) (sp : Nat)
  /-- DMA_RD (R344). -/
  | dmaRd (t : TileId) (sp : Nat)
  /-- DMA_WR (R344). -/
  | dmaWr (t : TileId) (sp : Nat)
  /-- HOST_SCATTER_ADD (R346). -/
  | hostScatterAdd (t : TileId) (sp : Nat)
  /-- BX_SEND (R365). -/
  | bxSend (t : TileId) (sp : Nat)
  /-- BX_ARRIVE (R365). -/
  | bxArrive (t : TileId) (sp : Nat)
  /-- ADMIT (R342). -/
  | poolAdmit (t : TileId) (sp : Nat) (fails : BitVec 4)
  /-- TIMESTAMP_READ (R376). -/
  | timestampRead (t : TileId) (sp : Nat) (now : U64)
  /-- TELEMETRY_READ (R397). -/
  | telemetryRead (t : TileId) (sp : Nat)
  /-- TILE_SPM_DATA_READ (R51). -/
  | tileSpmDataRead (t : TileId)
  /-- TILE_SPM_DATA_WRITE (R51). -/
  | tileSpmDataWrite (t : TileId) (v : U32)
  /-- SVC_CTRL_WRITE (R168). -/
  | svcCtrlWrite (n : BitVec 9) (v : U32)
  /-- SVC_CONTEXT_WRITE (R168). -/
  | svcContextWrite (n : BitVec 9) (off : Nat) (v : U32)
  /-- SYNC_CNT_WRITE (R246). -/
  | syncCntWrite (c : BitVec 13) (v : U32)
  /-- POWERED_OFF_ACCESS (R236). -/
  | poweredOffAccess (off : Nat) (write : Bool) (mc : Bool)
  /-- OFFACCESS_CLEAR (R245). -/
  | offaccessClear
  /-- PAIR_LO_READ (R11). -/
  | pairLoRead (off : Nat) (now : U64)
  /-- PAIR_LO_WRITE (R11). -/
  | pairLoWrite (off : Nat) (v : U32)
  /-- PAIR_HI_WRITE (R11). -/
  | pairHiWrite (off : Nat) (v : U32)
  /-- REGISTER_WRITE (R12). -/
  | registerWrite (off : Nat) (v : U32) (enables : BitVec 4) (a : Access)
  /-- D2D_REPLAY (R227). -/
  | d2dReplay (d : DieId) (l : BitVec 2) (repair : Bool)
  /-- D2D_LINK_DOWN (R227). -/
  | d2dLinkDown (d : DieId) (l : BitVec 2)
  /-- HBM_REFRESH (R241). -/
  | hbmRefresh (k : BitVec 5) (pc : Nat) (temp : BitVec 8) (ce : List Nat) (ue : List Nat)
  /-- RETRAIN_PEND (R242). -/
  | retrainPend (k : BitVec 5)
  /-- HBM_FULL_RETRAIN (R242). -/
  | hbmFullRetrain (k : BitVec 5) (ok : Bool)
  /-- PC_REMAP (R315). -/
  | pcRemap (k : BitVec 5) (pc : Nat)
  /-- LOAD_IMAGE (R250). -/
  | loadImage (q : BitVec 6)
  /-- SCHEDULE_LOAD_COMPLETE (R275). -/
  | scheduleLoadComplete (slot : BitVec 2)
  /-- JOB_LOAD (R250). -/
  | jobLoad (q : BitVec 6) (unread : Bool)
  /-- JOB_LOAD_COMPLETE (R250). -/
  | jobLoadComplete
  /-- JOB_END (R337). -/
  | jobEnd (q : BitVec 6)
  /-- PAUSE (R302). -/
  | pause (q : BitVec 6)
  /-- SUBMIT (R341). -/
  | submit (q : BitVec 6)
  /-- POST (R337). -/
  | post (q : BitVec 6)
  /-- STEP_BOUNDARY (R128). -/
  | stepBoundary (ms : Nat)
  /-- CHECKPOINT_COMPLETE (R317). -/
  | checkpointComplete (split : Bool)
  /-- ECHO_DELIVERY_RESUME (R296). -/
  | echoDeliveryResume
  /-- ECHO_DRAIN_WRITE (R296). -/
  | echoDrainWrite (v : U64)
  /-- ECHO_CTRL_WRITE (R297). -/
  | echoCtrlWrite (v : U32)
  /-- ECHO_HOST_FAIL (R297). -/
  | echoHostFail
  /-- ECHO_TAIL_WRITEBACK (R348). -/
  | echoTailWriteback
  /-- FAULT_RECOVERY (R320). -/
  | faultRecovery (fixed : Bool) (linkUp : Bool) (lost : Bool) (now : Nat)
  /-- REBUILD_TIMEOUT (R316). -/
  | rebuildTimeout
  /-- APPROVE (R320). -/
  | approve (fixed : Bool) (linkUp : Bool) (lost : Bool) (now : Nat)
  /-- DECLINE (R320). -/
  | decline
  /-- BIST (R326). -/
  | bist (force : Bool)
  /-- HBM_RETRAIN_REQUEST (R326). -/
  | hbmRetrainRequest (force : Bool)
  /-- SENSOR_RECALIBRATION (R326). -/
  | sensorRecalibration (force : Bool)
  /-- MC_WATCHDOG_EXPIRY (R327). -/
  | mcWatchdogExpiry (now : Nat)
  /-- MC_SRAM_UE (R327). -/
  | mcSramUe (e : SramError)
  /-- MC_RESTART (R327). -/
  | mcRestart
  /-- GOVERNOR_FALLBACK (R327). -/
  | governorFallback
  /-- SQ_TAIL_DOORBELL (R333). -/
  | sqTailDoorbell (q : BitVec 6) (v : U32) (now : U64)
  /-- SQ_FETCH (R334). -/
  | sqFetch (q : BitVec 6) (fails : Bool)
  /-- CQ_HEAD_DOORBELL (R333). -/
  | cqHeadDoorbell (q : BitVec 6) (v : U32) (now : U64)
  /-- CQ_POST (R336). -/
  | cqPost (q : BitVec 6)
  /-- SIEVE_ANSWER (R333). -/
  | sieveAnswer (n : BitVec 9) (v : U32) (now : U64)
  /-- QUEUE_ENABLE (R335). -/
  | queueEnable (q : BitVec 6) (v : U32)
  /-- QUEUE_DISABLE (R335). -/
  | queueDisable (q : BitVec 6) (v : U32)
  /-- DMA_TAIL_WRITE (R344). -/
  | dmaTailWrite (g : BitVec 5) (v : U32)
  /-- DMA_COMPLETE (R344). -/
  | dmaComplete (place : Nat)
  /-- DMA_REQUEST_TIMEOUT (R345). -/
  | dmaRequestTimeout (place : Nat)
  /-- ECHO_RING (R348). -/
  | echoRing (len : Nat)
  /-- CKPT_HOST (R348). -/
  | ckptHost (len : Nat)
  /-- FW_PUSH (R413). -/
  | fwPush (len : Nat)
  /-- FW_COMMIT (R413). -/
  | fwCommit (len : Nat)
  /-- FLASH_PROGRAM_COMPLETE (R413). -/
  | flashProgramComplete (ok : Bool)
  /-- FW_RESTART (R413). -/
  | fwRestart
  /-- REBUILD_DONE (R316). -/
  | rebuildDone (len : Nat)
  /-- ECHO_SUPPLY (R322). -/
  | echoSupply (len : Nat)
  /-- DRBG_INPUT (R423). -/
  | drbgInput (len : Nat)
  /-- UNKNOWN_COMMAND (R348). -/
  | unknownCommand (cmd : Nat)
  /-- MBX_EVT_POP (R349). -/
  | mbxEvtPop
  /-- LINK_DOWN (R350). -/
  | linkDown
  /-- LINK_LOSS_PAUSE_TIMEOUT (R350). -/
  | linkLossPauseTimeout
  /-- LINK_RETURN (R350). -/
  | linkReturn (width : Nat) (rate : Nat)
  /-- FLR (R350). -/
  | flr
  /-- CONFIG_REQUEST (R410). -/
  | configRequest (ms : Nat) (resize : Nat)
  /-- BAR2_WRITE (R332). -/
  | bar2Write (off : Nat) (bytes : List Byte)
  /-- PORT_DOWNRATE (R356). -/
  | portDownrate (p : BitVec 4) (lane : Nat)
  /-- LLDP_TRANSMIT (R359). -/
  | lldpTransmit (p : BitVec 4)
  /-- LLDP (R359). -/
  | lldp (p : BitVec 4) (tlv : Option Tlv) (preempt : Bool)
  /-- HELLO_TRANSMIT (R360). -/
  | helloTransmit
  /-- HELLO (R361). -/
  | hello (f : Frame) (chain : Bool) (a : Access)
  /-- DATA (R365). -/
  | data (f : Frame)
  /-- MCAST (R369). -/
  | mcast (f : Frame)
  /-- BARRIER (R372). -/
  | barrier (f : Frame) (now : U64)
  /-- RELEASE (R372). -/
  | release (f : Frame) (now : U64)
  /-- RELEASE_TIME_REACHED (R372). -/
  | releaseTimeReached (bid : Nat)
  /-- MEMBER (R363). -/
  | member (f : Frame) (now : U64)
  /-- JOIN_TIMEOUT (R362). -/
  | joinTimeout
  /-- MEMBER_LOST_TIMEOUT (R363). -/
  | memberLostTimeout (rank : Nat)
  /-- REJOIN_TIMEOUT (R364). -/
  | rejoinTimeout (rank : Nat)
  /-- RETRANSMIT_TIMEOUT (R367). -/
  | retransmitTimeout (rank : Nat) (channel : Nat) (express : Bool)
  /-- ECHO_SYNC_SEED (R375). -/
  | echoSyncSeed (f : Frame)
  /-- ECHO_SYNC_RECOVER (R375). -/
  | echoSyncRecover (f : Frame)
  /-- CKPT_REPORT (R375). -/
  | ckptReport (f : Frame)
  /-- CKPT_CHOICE (R375). -/
  | ckptChoice (f : Frame)
  /-- ECHO_SYNC_RESUME (R375). -/
  | echoSyncResume (f : Frame)
  /-- PTP_MESSAGE (R371). -/
  | ptpMessage (port : Nat) (via : PtpVia) (body : PtpBody) (now : U64)
  /-- PPS_IN_EDGE (R374). -/
  | ppsInEdge (now : U64)
  /-- PPS_OUT_EDGE (R374). -/
  | ppsOutEdge (sec : Nat)
  /-- PWR_ENTRY_REQUEST (R384). -/
  | pwrEntryRequest (v : U32) (delays : Nat) (silent : Nat)
  /-- AGENT_DELAY_EXPIRY (R385). -/
  | agentDelayExpiry (agent : Nat) (again : Bool)
  /-- AGENT_ANSWER_TIMEOUT (R385). -/
  | agentAnswerTimeout (agent : Nat)
  /-- POWER_COMMIT (R386). -/
  | powerCommit (now : U64)
  /-- PWR_WAKE_REQUEST (R392). -/
  | pwrWakeRequest (now : U64)
  /-- POWER_GOOD_TIMEOUT (R394). -/
  | powerGoodTimeout (what : Nat)
  /-- WAKE_TIMER_EXPIRY (R392). -/
  | wakeTimerExpiry (now : U64)
  /-- IDLE_S1_TIMEOUT (R391). -/
  | idleS1Timeout (delays : Nat) (silent : Nat)
  /-- IDLE_S2_TIMEOUT (R391). -/
  | idleS2Timeout (delays : Nat) (silent : Nat)
  /-- HBM_TRAINING_COMPLETE (R382). -/
  | hbmTrainingComplete (k : BitVec 5)
  /-- PMCSR_D3HOT (R383). -/
  | pmcsrD3hot (delays : Nat) (silent : Nat)
  /-- D3HOT_REQUEST_REPEAT (R383). -/
  | d3hotRequestRepeat (delays : Nat) (silent : Nat)
  /-- PMCSR_D0 (R383). -/
  | pmcsrD0 (now : U64)
  /-- PERST_N_ASSERT (R383). -/
  | perstNAssert (delays : Nat) (silent : Nat)
  /-- PERST_N_DEASSERT (R408). -/
  | perstNDeassert (ref25 : Bool) (now : U64)
  /-- THERMAL_WARNING (R396). -/
  | thermalWarning (x : Sensor) (c : Nat)
  /-- THERMAL_WARNING_CLEAR (R396). -/
  | thermalWarningClear (x : Sensor) (c : Nat)
  /-- THERMAL_LIMIT (R396). -/
  | thermalLimit (x : Sensor) (c : Nat)
  /-- THERMAL_TRIP (R398). -/
  | thermalTrip (x : Sensor) (c : Nat) (hbm100 : Bool) (now : U64)
  /-- INPUT_UNDERVOLTAGE (R398). -/
  | inputUndervoltage
  /-- INPUT_FAULT (R398). -/
  | inputFault (mv : Nat) (now : U64)
  /-- RAIL_POWER_GOOD_LOSS (R452). -/
  | railPowerGoodLoss (rail : Nat) (now : U64)
  /-- REFCLK_LOSS (R454). -/
  | refclkLoss (clk : Nat) (now : U64)
  /-- PEAK_CLEAR (R395). -/
  | peakClear
  /-- INPUT_POWER_UP (R451). -/
  | inputPowerUp (strap : BitVec 2) (ref25 : Bool)
  /-- BOOT_PHASE_END (R408). -/
  | bootPhaseEnd (unread : Bool) (tests : TileTests)
  /-- PHASE_BOUND_EXPIRY (R409). -/
  | phaseBoundExpiry (tiles : List TileId) (badStacks : List (BitVec 5)) (links : List (DieId × BitVec 2))
  /-- START (R414). -/
  | start
  /-- ENTER_RECOVERY (R412). -/
  | enterRecovery
  /-- HEALTH_TEST_FAIL (R418). -/
  | healthTestFail (src : Nat) (bits : List Bool)
  /-- CONDITIONED_OUTPUT (R419). -/
  | conditionedOutput (src : Nat) (bits : BitVec 1024)
  /-- DRBG_GENERATE (R421). -/
  | drbgGenerate
  /-- RESEED (R422). -/
  | reseed
  /-- KAT (R424). -/
  | kat
  /-- KAT_COMPLETE (R424). -/
  | katComplete (condOk : Bool) (drbgOk : Bool)
  /-- LIFECYCLE_TRANSITION (R431). -/
  | lifecycleTransition (target : BitVec 3) (bad : Option Nat)
  /-- LIFECYCLE_SELF_RESET (R431). -/
  | lifecycleSelfReset
  /-- TOKEN_VERIFY (R435). -/
  | tokenVerify
  /-- NEW_CHALLENGE (R435). -/
  | newChallenge
  /-- DEBUG_OPEN (R437). -/
  | debugOpen (v : U32) (jtag : Bool)
  /-- DEBUG_CLOSE (R437). -/
  | debugClose
  /-- HALT_TILE (R440). -/
  | haltTile (v : U32)
  /-- RESUME_TILE (R440). -/
  | resumeTile (v : U32)
  /-- STEP_TILE (R440). -/
  | stepTile (v : U32)
  /-- KEY_REVOKE (R442). -/
  | keyRevoke (bad : Bool)
  /-- ATTESTATION_REQUEST (R443). -/
  | attestationRequest
  /-- ATTESTATION_DONE (R443). -/
  | attestationDone
  /-- TAP_INSTRUCTION (R458). -/
  | tapInstruction (ir : Tap)
  /-- TAP_RESET (R458). -/
  | tapReset
  /-- READ_REG (R457). -/
  | readReg (off : Nat) (now : U64)
  /-- WRITE_REG (R457). -/
  | writeReg (off : Nat) (v : U32) (a : Access)
  /-- WAKE (R457). -/
  | wake (now : U64)
  /-- STATUS (R457). -/
  | status
  /-- SMBUS_ALERT_RESPONSE (R456). -/
  | smbusAlertResponse
  /-- PORT_LINK_UP (R359). -/
  | portLinkUp (p : BitVec 4) (failed : Nat)
  /-- THERMAL_LIMIT_END (R396). -/
  | thermalLimitEnd (x : Sensor) (c : Nat)
  /-- STEP_DIGEST_COMPLETE (R292). -/
  | stepDigestComplete
  /-- SAVED_CONTEXT_WRITTEN (R302). -/
  | savedContextWritten
  /-- SELFTEST_RESULT (R326). -/
  | selftestResult (ok : Bool) (tiles : List TileId) (spares : List Nat) (badStacks : List Nat)
  /-- INPUT_POWER_LOSS (R450). -/
  | inputPowerLoss
  deriving DecidableEq, Repr

end Sys2Proof
end

