-- ==== Sys2Proof/Decode.lean ====
section
/-!
DEFINITION. Commands that a word spells by the bits of spec/opcode_table.json.  No row of the table gives bits.
-/
namespace Sys2Proof

/-- The command that `nbits` bits `w` spell: none, since the table gives no row any bits. -/
def decodeTableWord (_nbits _w : Nat) : Option Instr := none

end Sys2Proof
end

