-- ==== Sys2Proof/Machine/Sha3.lean ====
section
/-!
DEFINITION. SHA3-256 as FIPS 202 defines it (R289), CRC-32C (R147, R357, R401), and the digest forms of
R289 and R291.
-/
namespace Sys2Proof.Machine

namespace Sha3

/-- Lane (x, y) of a Keccak state. -/
def ln (s : Array U64) (x y : Nat) : U64 := s.getD (x % 5 + 5 * (y % 5)) 0

/-- The rotation offset of lane (x, y), by the walk of FIPS 202. -/
def rhoWalk : Nat → Nat → Nat → Nat → List (Nat × Nat)
  | 0, _, _, _ => []
  | n + 1, t, x, y => (x + 5 * y, ((t + 1) * (t + 2) / 2) % 64) :: rhoWalk n (t + 1) y ((2 * x + 3 * y) % 5)

def rhoTable : Array Nat :=
  (rhoWalk 24 0 1 0).foldl (fun a p => a.setIfInBounds p.1 p.2) (Array.replicate 25 0)

/-- One step of the LFSR that makes the round constants. -/
def lfsr (r : Nat) : Nat := let d := r * 2; if d < 256 then d else d ^^^ 0x171

/-- Round constant bits, from LFSR state `r`: bit 2^j - 1 for j = 0 … 6. -/
def rcBits : Nat → Nat → Nat → Nat → Nat × Nat
  | 0, _, r, acc => (acc, r)
  | n + 1, j, r, acc => rcBits n (j + 1) (lfsr r) (if r % 2 = 1 then acc + 2 ^ (2 ^ j - 1) else acc)

def rcList : Nat → Nat → List U64
  | 0, _ => []
  | n + 1, r => let p := rcBits 7 0 r 0; BitVec.ofNat 64 p.1 :: rcList n p.2

/-- One round of Keccak-f[1600]. -/
def round (s : Array U64) (rc : U64) : Array U64 :=
  let c := (List.range 5).map fun x => ln s x 0 ^^^ ln s x 1 ^^^ ln s x 2 ^^^ ln s x 3 ^^^ ln s x 4
  let d := ((List.range 5).map fun x => c.getD ((x + 4) % 5) 0 ^^^ (c.getD ((x + 1) % 5) 0).rotateLeft 1).toArray
  let a := ((List.range 25).map fun i => s.getD i 0 ^^^ d.getD (i % 5) 0).toArray
  let b := (List.range 25).foldl (fun (acc : Array U64) i =>
    let x := i % 5
    let y := i / 5
    acc.setIfInBounds (y + 5 * ((2 * x + 3 * y) % 5)) ((a.getD i 0).rotateLeft (rhoTable.getD i 0)))
    (Array.replicate 25 0)
  let e := ((List.range 25).map fun i =>
    let x := i % 5
    let y := i / 5
    ln b x y ^^^ (~~~(ln b (x + 1) y) &&& ln b (x + 2) y)).toArray
  e.setIfInBounds 0 (e.getD 0 0 ^^^ rc)

/-- Keccak-f[1600]. -/
def keccakF (s : Array U64) : Array U64 := (rcList 24 1).foldl round s

/-- Absorb one 136-byte block. -/
def absorb (s : Array U64) (blk : List Byte) : Array U64 :=
  keccakF (((List.range 25).map fun i =>
    s.getD i 0 ^^^ (if i < 17 then BitVec.ofNat 64 (leAt blk (8 * i) 8) else 0)).toArray)

/-- Absorb a whole padded message of `n` blocks. -/
def absorbAll : Nat → Array U64 → List Byte → Array U64
  | 0, s, _ => s
  | n + 1, s, m => absorbAll n (absorb s (m.take 136)) (m.drop 136)

/-- The padding of SHA3: 0x06, zeros, and the top bit of the last byte of the block. -/
def pad (len : Nat) : List Byte :=
  let k := 136 - len % 136
  if k = 1 then [0x86#8] else 0x06#8 :: (List.replicate (k - 2) 0#8 ++ [0x80#8])

end Sha3

/-- SHA3-256 of a byte string; byte 0 of the digest is its most significant byte (R289). -/
def sha3 (m : List Byte) : Digest :=
  let p := m ++ Sha3.pad m.length
  let s := Sha3.absorbAll (p.length / 136) (Array.replicate 25 0) p
  BitVec.ofNat 256 (ofBe (((List.range 4).map fun i => leBytes 8 (s.getD i 0).toNat).flatten))

/-- CRC-32C, reflected, over bytes, from register `c`. -/
def crcByte : Nat → Nat → Nat
  | 0, c => c
  | n + 1, c => crcByte n (if c % 2 = 1 then (c / 2) ^^^ 0x82F63B78 else c / 2)

/-- CRC-32C of a byte string (R147, R357, R401). -/
def crc32c (m : List Byte) : U32 :=
  BitVec.ofNat 32 ((m.foldl (fun c b => crcByte 8 (c ^^^ b.toNat)) 0xFFFFFFFF) ^^^ 0xFFFFFFFF)

/-- Chunks of `k` bytes, the last one possibly shorter. -/
def chunksOf (k : Nat) : Nat → List Byte → List (List Byte)
  | 0, _ => []
  | n + 1, l => if l.isEmpty then [] else l.take k :: chunksOf k n (l.drop k)

/-- A region digest: SHA3-256 of the concatenated digests of its 2 MiB chunks, in address order (R289). -/
def regionDigest (bs : List Byte) : Digest :=
  sha3 ((chunksOf 0x200000 (bs.length / 0x200000 + 1) bs).map (fun c => digestBytes (sha3 c))).flatten

/-- fold64 of a digest (R291). -/
def fold64 (d : Digest) : U64 :=
  d.extractLsb' 192 64 ^^^ d.extractLsb' 128 64 ^^^ d.extractLsb' 64 64 ^^^ d.extractLsb' 0 64

end Sys2Proof.Machine
end

