-- ==== Sys2Proof/Machine/PowerState.lean ====
section
/-!
DEFINITION. The state of the power manager, of the pace governors and of the Sump beside their registers (01, 15).
-/
namespace Sys2Proof.Machine

/-- An agent's answer to a power request (R385): ACK, REFUSE with its reason, DELAY, or none yet. -/
inductive Answer where
  | ack
  | refuse (reason : Nat)
  | delay
  | silent
  deriving DecidableEq, Repr

/-- A power-state request in progress (R384-R387): the answers by agent code, and whether FORCE has acted on the refusals. -/
structure PwrReq where
  target : Nat
  force : Bool
  answers : Tab Nat Answer
  forced : Bool := false
  deriving DecidableEq, Repr

/-- What the Sump holds (R390): the saved registers, the image-slot table's states, and the digest. -/
structure Sump where
  valid : Bool := false
  entry : Nat := 0
  time : Nat := 0
  regs : Tab Reg U32 := []
  digest : Digest := 0
  deriving DecidableEq, Repr

/-- Power manager and governors beside the PWR and PGV registers. -/
structure Power where
  req : Option PwrReq := none
  /-- a forced pause put its context into HBM: the entry stops at this state (R387) -/
  stopAt : Option Nat := none
  /-- PMCSR reads D3hot (R383) -/
  d3hot : Bool := false
  /-- an exit to S0 is in progress, its failed waits, and the AON tick of its wake (R393, R394) -/
  exiting : Bool := false
  retries : Nat := 0
  lastWake : Nat := 0
  sump : Sump := {}
  /-- PTP time in ns at the entry to the present state -/
  ptpAtEntry : Nat := 0
  /-- budget of each die in mW, and the share of time in percent that its pacing holds take (R24) -/
  budget : Tab Nat Nat := []
  density : Tab Nat Nat := []
  /-- droop sensors (die, sensor) that failed their self-check, those that the MC has retired, and the dies whose hold a sag
  asserts (R21-R23) -/
  badSensors : List (Nat × Nat) := []
  retiredSensors : List (Nat × Nat) := []
  droop : List Nat := []
  /-- sensors at or above their warning; dies paced at their junction limit, and stacks whose accesses are throttled (R396) -/
  hot : List Sensor := []
  dieLimit : List Nat := []
  hbmThrottle : List Nat := []
  deriving DecidableEq, Repr

end Sys2Proof.Machine
end

