-- ==== Sys2Proof/Machine/BootState.lean ====
section
/-!
DEFINITION. The state of boot, of the entropy block, of lifecycle and debug, of the pins, and the values that the module
has answered to the outside, beside their registers (16, 17, 18, 19).
-/
namespace Sys2Proof.Machine

/-- A STANDING record (R414). -/
structure StandRec where
  offset : Nat := 0
  length : Nat := 0
  block : List Byte := []
  start : Nat := 0
  deriving DecidableEq, Repr

/-- The body of a configuration record (R407). -/
inductive RecBody where
  /-- port configuration (1 for 8 × 1.6TbE), enabled ports, VLAN ID, express and preemptable PCPs, own address and whether it is IPv4 -/
  | link (cfg : Nat) (mask : Nat) (vlan : Option Nat) (pcpExpress pcpPreempt : Nat) (addr : Option Nat) (v4 : Bool)
  /-- permitted profiles by code, and initial PWR_HOST_CAP, PWR_IDLE, PWR_THERM_LIM -/
  | envelope (profiles : Nat) (hostCap idle thermLim : U32)
  /-- domain, peer-to-peer delay, UDP/IPv6, time from PPS_IN, PTP_REL_MARGIN -/
  | ptp (domain : Nat) (p2p udp pps : Bool) (margin : U32)
  /-- UDP port, multicast address, pod -/
  | bexir (port mcast pod : Nat)
  | standing (r : StandRec)
  /-- HIF_POLICY [3:0], FLT_CTRL.HOLD, ECHO_CTRL MODE and FULL, ADM_CTRL.MODE, IMG_SIG -/
  | policy (hif : Nat) (hold : Bool) (echoMode : Nat) (echoFull : Bool) (admMode : Nat) (imgSig : Bool)
  deriving DecidableEq, Repr

/-- What the applied configuration records set outside the registers (R407). -/
structure CfgRec where
  portMask : Nat := 0xFFFF
  vlan : Option Nat := none
  pcpExpress : Nat := 7
  pcpPreempt : Nat := 3
  addr : Option Nat := none
  v4 : Bool := false
  profiles : Nat := 0xFFFF
  ptpDomain : Nat := 0
  ptpP2p : Bool := false
  ptpUdp : Bool := false
  mcast : Nat := 0xFF02000000000000000000000000BE58
  imgSig : Bool := false
  standing : Option StandRec := none
  deriving DecidableEq, Repr

/-- The retirement table of the flash (R313): tiles (die, row, physical column), rows (die, row), pseudo-channel remaps (stack,
logical, physical), and failed dies and stacks. -/
structure RetTable where
  tiles : List (Nat × Nat × Nat) := []
  rows : List (Nat × Nat) := []
  remaps : List (Nat × Nat × Nat) := []
  dies : List Nat := []
  badStacks : List Nat := []
  deriving DecidableEq, Repr

/-- Boot beside its registers (16). -/
structure Boot where
  /-- bring-up has started since the last reset (R451) -/
  started : Bool := false
  cfg : CfgRec := {}
  /-- length of a staged image that is being written to the flash; the flash has been written and the sequence restarts (R413) -/
  commit : Option Nat := none
  restartDue : Bool := false
  /-- the standing image is loaded and waits for BOOT_CTRL.START (R414) -/
  standHost : Bool := false
  /-- tiles (die, row, column) and rows (die, row) that are fused off (R35, R39) -/
  fusedTiles : List (Nat × Nat × Nat) := []
  fusedRows : List (Nat × Nat) := []
  /-- the retirement table in force -/
  table : RetTable := {}
  /-- the CRC-32C of each of the 48 chunks of table memory that the table-check units keep: every tile holds one table set (R147) -/
  tblCrc : List U32 := []
  deriving DecidableEq, Repr

/-- A noise source (R417-R419): whether its start-up bits have passed, its last bit and how often it has come in a row, and
its buffer where that is full. -/
structure Noise where
  passed : Bool := false
  last : Bool := false
  run : Nat := 0
  full : Option (BitVec 1024) := none
  deriving DecidableEq, Repr

/-- Who waits for DRBG output (R421, R427). -/
inductive DrbgUse where
  | fresh (entry : Nat)
  /-- a HELLO: to every module, or to a rank in answer to its nonce -/
  | hello (dst : Option Nat) (nonce : Nat)
  | attest
  deriving DecidableEq, Repr

/-- A generate request: its bit count and its consumer. -/
structure DrbgReq where
  bits : Nat
  use : DrbgUse
  deriving DecidableEq, Repr

/-- The entropy block beside its registers (17). -/
structure Ent where
  src : Tab Nat Noise := []
  /-- the source whose buffer the conditioner takes next -/
  next : Nat := 0
  pool : List Digest := []
  katPassed : Bool := false
  key : BitVec 256 := 0
  v : U128 := 0
  waiting : List DrbgReq := []
  /-- requests that the MC keeps in its own queue (R421, R327) -/
  mcQueue : List DrbgReq := []
  reseedDue : Bool := false
  /-- host input whose reseed waits for a conditioned output (R423) -/
  hostInput : Option (List Byte) := none
  /-- the alarm flag of the AON domain (R426) -/
  alarm : Bool := false
  deriving DecidableEq, Repr

/-- Identity entry of OTP (R433): the wrapped key-generation seed and the digest of the public key. -/
structure IdentEntry where
  wrapped : BitVec 256
  digest : Digest
  deriving DecidableEq, Repr

/-- Owner-key entry of OTP (R433). -/
structure OwnerEntry where
  key : List Byte
  digest : Digest
  deriving DecidableEq, Repr

/-- The fuses and OTP fields, with their three copies where R319 triplicates them. -/
structure Otp where
  lc : Tab Nat U32 := []
  revoked : Tab Nat (BitVec 4) := []
  keys : Tab Nat Digest := []
  ident : Tab Nat IdentEntry := []
  owner : Tab Nat OwnerEntry := []
  serial : U128 := 0
  deviceKey : BitVec 256 := 0
  corkorKey : List Byte := []
  deriving DecidableEq, Repr

/-- An accepted token (R434, R435). -/
structure Token where
  typ : Nat
  signer : Nat
  arg : Nat
  payload : List Byte := []
  deriving DecidableEq, Repr

/-- Lifecycle, debug and attestation beside the SEC registers (18). -/
structure Sec where
  corkorTok : Option Token := none
  ownerTok : Option Token := none
  session : Nat := 0
  source : Nat := 0
  /-- a transition is done, and the module resets itself 10 ms later (R431) -/
  resetDue : Bool := false
  /-- nonce of the attestation in progress -/
  attNonce : List Byte := []
  /-- random bits of the attestation in progress, once the DRBG has served them (R443) -/
  attRnd : Option (BitVec 256) := none
  deriving DecidableEq, Repr

/-- The pins and supplies of the package (19). -/
structure Pins where
  alertN : Bool := true
  thermtripN : Bool := true
  perstN : Bool := false
  inputUp : Bool := false
  ref25 : Bool := true
  smbAddr : BitVec 2 := 3
  /-- the instruction in force at the TAP (R458) -/
  tap : Tap := .idcode
  deriving DecidableEq, Repr

/-- What the module last answered to an access from outside. -/
structure Out where
  read : U32 := 0
  /-- words of the last MCTP response, and its completion code (R457) -/
  mctp : List U32 := []
  mctpErr : Nat := 0
  smbusAra : Option Nat := none
  /-- what the TAP shifts out (R458) -/
  tdo : U32 := 0
  configRetry : Bool := false
  /-- flits that left the compute dies on the links to the IOD -/
  iod : List (Nat × Flit) := []
  deriving DecidableEq, Repr

end Sys2Proof.Machine
end

