-- ==== Sys2Proof/Config.lean ====
section
/-!
DEFINITION. What the manual leaves open and what it takes from other standards without stating it: constants without a body,
of which nothing can be proved.
-/
namespace Sys2Proof

/-- A fresh free value: the manual lets some value result and does not say which (notes/assumptions/4.md). -/
opaque Config.freeValue : Nat → BitVec 512

/-- ML-DSA-44 verification (FIPS 204): public key, message digest, signature (notes/assumptions/5.md). -/
opaque Config.mldsaVerify : List Byte → Digest → List Byte → Bool

/-- ML-DSA-44 key generation (FIPS 204): the 1,312-byte public key of a seed (notes/assumptions/5.md). -/
opaque Config.mldsaPublic : BitVec 256 → List Byte

/-- What the SEC engine's device key masks a wrapped key-generation seed with (R433, notes/assumptions/5.md). -/
opaque Config.wrapMask : BitVec 256 → BitVec 256

/-- The module's link-local IPv6 address, by its fuse serial; the manual does not derive it (R407, notes/assumptions/11.md). -/
opaque Config.linkLocal : BitVec 128 → Nat

/-- ML-DSA-44 hedged signing (FIPS 204): seed, message digest and 256 random bits give 2,420 bytes
(notes/assumptions/5.md). -/
opaque Config.mldsaSign : BitVec 256 → Digest → BitVec 256 → List Byte

/-- The coordinates that a stochastic rounding in a lane of a vector operation is keyed by, by tile, beat and lane; the operation's encoding
names none (R86, R263, notes/assumptions/13.md). -/
opaque Config.vxKey : TileId → Nat → Nat → Machine.SrKey

/-- An element of a format that the manual defines no rounding into, by format, mode and value (notes/assumptions/13.md). -/
opaque Config.openElem : Nat → Machine.RMode → Machine.FV → BitVec 8

/-- The preload leaf of a tree, by the tile's vector and operand registers and the descriptor (R116, notes/assumptions/15.md). -/
opaque Config.preload : Machine.Tab Nat Line → Machine.Tab Nat Line → Nat → Line

/-- Whether a VCMP predicate code holds of a relation: 0 below, 1 equal, 2 above, 3 unordered (notes/assumptions/11.md). -/
opaque Config.vcmp : Nat → Nat → Bool

/-- How VQMX lays out a scale and 32 elements in its result register (notes/assumptions/11.md). -/
opaque Config.vqmxLayout : Nat → List Nat → BitVec 512

/-- The FP32 scale that STATS_FIN takes from its operand register (notes/assumptions/11.md). -/
opaque Config.statsScale : BitVec 512 → BitVec 32

/-- How SV_CTXRD lays out the words of a stream context in its register (notes/assumptions/11.md). -/
opaque Config.ctxLayout : List (BitVec 32) → BitVec 512

/-- The host address to which a HOST-mode draw of a stream exports its row, by the image's digest (notes/assumptions/11.md). -/
opaque Config.exportAddr : Nat → Nat → Nat

/-- Which (chain, variable) positions a Roaster exchange region holds, in order, by the image's digest and the region ID
(notes/assumptions/11.md). -/
opaque Config.xchgLayout : Nat → Nat → List (Nat × Nat)

/-- What an operand that is not finite contributes to a field or an energy, which the manual does not state
(notes/assumptions/18.md). -/
opaque Config.openField : BitVec 32 → Int

/-- How section 0x0007 of an image lays out the field-engine descriptors (notes/assumptions/11.md). -/
opaque Config.feSection : List Byte → Machine.FeDesc

/-- The cross-module barriers that an image names, by its digest (notes/assumptions/11.md). -/
opaque Config.imageBarriers : Nat → List Machine.BarrierDesc

/-- Bytes that the hardware state of R303 takes in a checkpoint copy of an image, by its digest (notes/assumptions/11.md). -/
opaque Config.hwStateBytes : Nat → Nat

/-- The stream whose output a region carries, where it is a stream buffer, by the image's digest and the region's ID (R288,
notes/assumptions/11.md). -/
opaque Config.streamBuffer : Nat → Nat → Option Nat

/-- Bytes that the field-engine state takes in a checkpoint copy of an image, by its digest (notes/assumptions/11.md). -/
opaque Config.feBytes : Nat → Nat

/-- How the hardware state of R303 is laid out in a checkpoint copy and a saved context (notes/assumptions/11.md). -/
opaque Config.stateBody : Machine.Snap → List Byte

/-- What the hardware state in that layout says, where it is such a state (notes/assumptions/11.md). -/
opaque Config.stateParse : List Byte → Option Machine.Snap

/-- How the entries of the retirement table are laid out in its flash region, and what such bytes say (notes/assumptions/11.md). -/
opaque Config.retireBody : Machine.RetTable → List Byte
opaque Config.retireParse : List Byte → Option Machine.RetTable

/-- How the field-engine state of every tile is serialised for a step digest (notes/assumptions/11.md). -/
opaque Config.feBody : List (TileId × Machine.FeTile) → List Byte

/-- This module's own PTP data set, as the number that PtpBody.announce carries (R371, notes/assumptions/66.md). -/
opaque Config.ptpDataset : BitVec 128 → Nat

/-- The host address at which a host places the payload of a BEXIR_DATA or XCHG_ASYNC entry, by its SEQ, for a member that replays alone
(R298, R368, notes/assumptions/43.md). -/
opaque Config.replayAddr : Nat → Nat

/-- What the body of a configuration record of a type says; none where it breaks a field rule (notes/assumptions/11.md). -/
opaque Config.recordBody : Nat → List Byte → Option Machine.RecBody

end Sys2Proof
end

