-- ==== Sys2Proof/Machine/Mem.lean ====
section
/-!
DEFINITION. Memory: bytes by address, in one canonical form (addresses strictly rising, no byte that equals what an unlisted
address reads as), and the address spaces of the module laid side by side.
-/
namespace Sys2Proof.Machine

/-- What an address that is not listed reads as: 0 (DESIGN CHOICE, notes/assumptions/3.md). -/
def memDefault : Byte := 0#8

/-- The byte at an address. -/
def memGet : List Host.Cell → Nat → Byte
  | [], _ => memDefault
  | (a, v) :: m, k => if a = k then v else if k < a then memDefault else memGet m k

/-- The memory with one byte written. -/
def memSet : List Host.Cell → Nat → Byte → List Host.Cell
  | [], k, b => if b = memDefault then [] else [(k, b)]
  | (a, v) :: m, k, b =>
    if a < k then (a, v) :: memSet m k b
    else if a = k then (if b = memDefault then m else (k, b) :: m)
    else if b = memDefault then (a, v) :: m else (k, b) :: (a, v) :: m

/-- The memory with bytes written from an address on. -/
def memWrite (m : List Host.Cell) : Nat → List Byte → List Host.Cell
  | _, [] => m
  | k, b :: bs => memWrite (memSet m k b) (k + 1) bs

/-- `n` bytes from an address on. -/
def memRead (m : List Host.Cell) (a n : Nat) : List Byte := (List.range n).map fun i => memGet m (a + i)

/-- The memory with every byte of [lo, hi) back at what an unlisted address reads as. -/
def memWipe (m : List Host.Cell) (lo hi : Nat) : List Host.Cell := m.filter fun c => !(lo ≤ c.1 && c.1 < hi)

/-- Every address of the memory lies at `k` or above, and addresses rise strictly, and no byte is the default. -/
def memFrom : Nat → List Host.Cell → Bool
  | _, [] => true
  | k, (a, v) :: m => k ≤ a && v != memDefault && memFrom (a + 1) m

/-- The canonical form of memory. -/
def Memory.wf (m : List Host.Cell) : Bool := memFrom 0 m

/-! ### Address spaces (R46, R238, R330, R413, R400) -/

/-- Base of an address space. -/
def spaceBase (code : Nat) : Nat := code * 2 ^ 64

/-- The module address space of HBM (R238). -/
def hbm (a : Nat) : Nat := spaceBase 0 + a
/-- Host memory, which the module reads and writes by DMA. -/
def hostMem (a : Nat) : Nat := spaceBase 1 + a
/-- The staging SRAM of the IOD (R413). -/
def staging (a : Nat) : Nat := spaceBase 2 + a
/-- The configuration flash (R400). -/
def flash (a : Nat) : Nat := spaceBase 3 + a
/-- A line of a tile's scratchpad: 32 banks of 512 lines of 64 bytes (R46). -/
def spm (t : TileId) (bank line : Nat) : Nat := spaceBase (16 + 2 * t.toNat) + (bank * 512 + line) * 64
/-- The scratchpad of the unmapped tile of a physical row (R38, R51). -/
def spmUnmapped (d : DieId) (r : BitVec 4) : Nat := spaceBase (16 + 2 * 2048 + (16 * d.toNat + r.toNat))
/-- The end of the address spaces of the compute dies. -/
def dieSpaces : Nat := spaceBase (16 + 2 * 2048 + 128)
/-- The bundle memory of a tile: 4,096 bundles of 32 bytes (R41, R45). -/
def bundleMem (t : TileId) (addr : Nat) : Nat := spaceBase (17 + 2 * t.toNat) + addr * 32

end Sys2Proof.Machine
end

