-- ==== Sys2Proof/Machine/State.lean ====
section
/-!
DEFINITION. The whole state of the module, its reasons to stop, and the state after reset.
-/
namespace Sys2Proof.Machine

/-- Why the machine stops with a fault: for no reason, since the manual gives every command of the table an effect.  Errors of the
module are effects on the state. -/
inductive Fault where
  deriving DecidableEq, Repr

/-- Why a command has no meaning. -/
inductive Refusal where
  /-- The command has no meaning yet; raised by its arm of `exec`.  Safe. -/
  | notModelled (mnemonic : String)
  deriving DecidableEq, Repr

/-- An image slot of HIF_IMG_SEL (R250, R279): the image it names, its extent, its load class, and whether the six check
phases are running. -/
structure Slot where
  loading : Bool := false
  verified : Bool := false
  addr : Nat := 0
  len : Nat := 0
  queue : Nat := 0
  cid : Nat := 0
  head : Nat := 0
  flags : Nat := 0
  img : Image := {}
  deriving DecidableEq, Repr

/-- The module. -/
structure State where
  /-- the registers of BAR0, one home each -/
  regs : Tab Reg U32
  /-- HI words latched by a read of LO (R11) -/
  latched : Tab Reg U32
  /-- LO words held until HI is written (R11) -/
  held : Tab Reg U32
  /-- scratchpads, bundle memories, HBM, host memory, staging SRAM and flash -/
  mem : List Host.Cell
  tiles : Tab TileId Tile
  /-- the row that each stream's SIEVE_DRAW has gathered -/
  rows : Tab (BitVec 9) Row
  slots : Tab Nat Slot
  job : Job
  echo : Echo
  flt : Flt
  hif : Hif
  net : Bexir
  pwr : Power
  boot : Boot
  ent : Ent
  sec : Sec
  /-- fuses and OTP -/
  otp : Otp
  pins : Pins
  out : Out
  /-- the model's own counter: how many free values have been taken -/
  free : Nat
  /-- commands that wait, first in, first out -/
  pending : List Instr
  deriving DecidableEq, Repr

/-- The module as its input power is about to rise: every register at its reset value, memory with nothing listed, no
command waiting (R10, R450). -/
def State.reset : State where
  regs := []
  latched := []
  held := []
  mem := []
  tiles := []
  rows := []
  slots := []
  job := {}
  echo := {}
  flt := {}
  hif := {}
  net := {}
  pwr := {}
  boot := {}
  ent := {}
  sec := {}
  otp := {}
  pins := {}
  out := {}
  free := 0
  pending := []

end Sys2Proof.Machine
end

