-- ==== Sys2Proof/Machine/Ops.lean ====
section
/-!
DEFINITION. The named operations on the state.  Every command's meaning is a list of effects that it reads off the state; the
effects are the only ways the state changes, so what every step keeps is proved once for each of them.
-/
namespace Sys2Proof.Machine

/-! ### Reading -/

/-- The word that a register holds. -/
def State.reg (s : State) (r : Reg) : U32 := tget s.regs r.reset r

/-- A field of a register (R10). -/
def State.fget (s : State) (r : Reg) (f : Fld) : Nat := f.get (s.reg r)

/-- The bit that a one-bit field holds. -/
def State.flag (s : State) (r : Reg) (f : Fld) : Bool := s.fget r f = 1

/-- A LO/HI pair as one number (R11). -/
def State.pair (s : State) (lo hi : Reg) : Nat := (s.reg lo).toNat + 2 ^ 32 * (s.reg hi).toNat

/-- A compute tile. -/
def State.tile (s : State) (t : TileId) : Tile := tget s.tiles {} t

/-- The row that a stream's draw has gathered. -/
def State.row (s : State) (n : BitVec 9) : Row := tget s.rows {} n

/-- An image slot. -/
def State.slot (s : State) (j : Nat) : Slot := tget s.slots {} j

/-- A byte of memory. -/
def State.byte (s : State) (a : Nat) : Byte := memGet s.mem a

/-- Bytes of memory. -/
def State.bytes (s : State) (a n : Nat) : List Byte := memRead s.mem a n

/-- A scratchpad line. -/
def State.line (s : State) (t : TileId) (bank line : Nat) : Line := ofLineBytes (s.bytes (spm t bank line) 64)

/-! ### Effects -/

/-- An effect. -/
inductive Eff where
  | reg (r : Reg) (v : U32)
  | regs (t : Tab Reg U32)
  | latched (t : Tab Reg U32)
  | held (t : Tab Reg U32)
  | store (a : Nat) (bs : List Byte)
  | wipe (lo hi : Nat)
  | tile (t : TileId) (v : Tile)
  | tiles (t : Tab TileId Tile)
  | row (n : BitVec 9) (v : Row)
  | rows (t : Tab (BitVec 9) Row)
  | slot (j : Nat) (v : Slot)
  | slots (t : Tab Nat Slot)
  | job (v : Job)
  | echo (v : Echo)
  | flt (v : Flt)
  | hif (v : Hif)
  | net (v : Bexir)
  | pwr (v : Power)
  | boot (v : Boot)
  | ent (v : Ent)
  | sec (v : Sec)
  | pins (v : Pins)
  | out (v : Out)
  /-- a copy of the lifecycle word takes set bits (R429: OTP bits only change from 0 to 1) -/
  | otpLc (copy : Nat) (v : U32)
  /-- a copy of the revocation bits takes set bits (R442) -/
  | otpRevoke (copy : Nat) (v : BitVec 4)
  /-- an identity entry that holds nothing is programmed (R433) -/
  | otpIdent (k : Nat) (v : IdentEntry)
  /-- an owner-key entry that holds nothing is programmed (R433) -/
  | otpOwner (k : Nat) (v : OwnerEntry)
  /-- a free value is taken -/
  | tick
  deriving DecidableEq, Repr

/-- Register words with their reserved bits at 0 (R10, R12). -/
def maskRegs (t : Tab Reg U32) : Tab Reg U32 := t.map fun p => (p.1, p.2 &&& p.1.impl)

/-- One effect.  A register keeps its reserved bits at 0 (R10, R12); memory keeps its canonical form; OTP only gains
bits and entries (R429, R442). -/
def State.apply (s : State) : Eff → State
  | .reg r v => { s with regs := tset s.regs r (v &&& r.impl) }
  | .regs t => { s with regs := maskRegs t }
  | .latched t => { s with latched := t }
  | .held t => { s with held := t }
  | .store a bs => { s with mem := memWrite s.mem a bs }
  | .wipe lo hi => { s with mem := memWipe s.mem lo hi }
  | .tile t v => { s with tiles := tset s.tiles t v }
  | .tiles t => { s with tiles := t }
  | .row n v => { s with rows := tset s.rows n v }
  | .rows t => { s with rows := t }
  | .slot j v => { s with slots := tset s.slots j v }
  | .slots t => { s with slots := t }
  | .job v => { s with job := v }
  | .echo v => { s with echo := v }
  | .flt v => { s with flt := v }
  | .hif v => { s with hif := v }
  | .net v => { s with net := v }
  | .pwr v => { s with pwr := v }
  | .boot v => { s with boot := v }
  | .ent v => { s with ent := v }
  | .sec v => { s with sec := v }
  | .pins v => { s with pins := v }
  | .out v => { s with out := v }
  | .otpLc c v => { s with otp := { s.otp with lc := tset s.otp.lc c (tget s.otp.lc 0 c ||| v) } }
  | .otpRevoke c v => { s with otp := { s.otp with revoked := tset s.otp.revoked c (tget s.otp.revoked 0 c ||| v) } }
  | .otpIdent k v =>
    match tfind s.otp.ident k with
    | none => { s with otp := { s.otp with ident := tset s.otp.ident k v } }
    | some _ => s
  | .otpOwner k v =>
    match tfind s.otp.owner k with
    | none => { s with otp := { s.otp with owner := tset s.otp.owner k v } }
    | some _ => s
  | .tick => { s with free := s.free + 1 }

/-- Effects in order. -/
def State.run : State → List Eff → State
  | s, [] => s
  | s, e :: es => State.run (s.apply e) es

/-- What a command does: the effects it has in a state. -/
abbrev Act : Type := State → List Eff

/-- The state that a meaning leaves. -/
def State.after (s : State) (a : Act) : State := s.run (a s)

/-- The outcome of a command that completes with the effects of `a`. -/
def State.does (s : State) (a : Act) : Host.Outcome State Fault Refusal := .next (s.after a)

/-! ### Building meanings -/

/-- No effect. -/
def actNop : Act := fun _ => []

/-- `a`, then `b` on the state that `a` leaves. -/
def actSeq (a b : Act) : Act := fun s => a s ++ b (s.run (a s))

/-- Meanings in order, each on the state that the ones before it leave. -/
def actAll : List Act → Act
  | [] => actNop
  | a :: as => actSeq a (actAll as)

/-- One meaning per element, in order. -/
def actEach {α : Type} (xs : List α) (f : α → Act) : Act := actAll (xs.map f)

/-- `a` where the condition holds, else `b`. -/
def actIf (c : State → Bool) (a b : Act) : Act := fun s => if c s then a s else b s

/-- `a` where the condition holds. -/
def actWhen (c : State → Bool) (a : Act) : Act := actIf c a actNop

/-- `a` where `c`. -/
def actOn (c : Bool) (a : Act) : Act := if c then a else actNop

/-- A meaning that is chosen by reading the state. -/
def actGet {α : Type} (f : State → α) (k : α → Act) : Act := fun s => k (f s) s

/-- A meaning for the value of an option, nothing where there is none. -/
def actOpt {α : Type} (o : Option α) (k : α → Act) : Act :=
  match o with
  | none => actNop
  | some x => k x

/-- Set a register. -/
def setReg (r : Reg) (v : U32) : Act := fun _ => [.reg r v]

/-- Change a register. -/
def modReg (r : Reg) (f : U32 → U32) : Act := fun s => [.reg r (f (s.reg r))]

/-- Set a field of a register. -/
def setF (r : Reg) (f : Fld) (v : Nat) : Act := modReg r fun w => f.put w v

/-- A counter register counts up and holds at 0xFFFF_FFFF. -/
def incReg (r : Reg) (n : Nat := 1) : Act := modReg r fun w => sat32 w n

/-- A counter field counts up and holds at all ones. -/
def incF (r : Reg) (f : Fld) (n : Nat := 1) : Act := modReg r fun w => satFld w f.hi f.lo n

/-- A LO/HI pair takes a number (R11). -/
def setPair (lo hi : Reg) (v : Nat) : Act := fun _ =>
  [.reg lo (BitVec.ofNat 32 v), .reg hi (BitVec.ofNat 32 (v / 2 ^ 32))]

/-- Change a tile. -/
def modTile (t : TileId) (f : Tile → Tile) : Act := fun s => [.tile t (f (s.tile t))]

/-- Change a stream's row. -/
def modRow (n : BitVec 9) (f : Row → Row) : Act := fun s => [.row n (f (s.row n))]

/-- Change an image slot. -/
def modSlot (j : Nat) (f : Slot → Slot) : Act := fun s => [.slot j (f (s.slot j))]

def modJob (f : Job → Job) : Act := fun s => [.job (f s.job)]
def modEcho (f : Echo → Echo) : Act := fun s => [.echo (f s.echo)]
def modFlt (f : Flt → Flt) : Act := fun s => [.flt (f s.flt)]
def modHif (f : Hif → Hif) : Act := fun s => [.hif (f s.hif)]
def modNet (f : Bexir → Bexir) : Act := fun s => [.net (f s.net)]
def modPwr (f : Power → Power) : Act := fun s => [.pwr (f s.pwr)]
def modBoot (f : Boot → Boot) : Act := fun s => [.boot (f s.boot)]
def modEnt (f : Ent → Ent) : Act := fun s => [.ent (f s.ent)]
def modSec (f : Sec → Sec) : Act := fun s => [.sec (f s.sec)]
def modPins (f : Pins → Pins) : Act := fun s => [.pins (f s.pins)]
def modOut (f : Out → Out) : Act := fun s => [.out (f s.out)]

/-- Store bytes. -/
def store (a : Nat) (bs : List Byte) : Act := fun _ => [.store a bs]

/-- Key of a scratchpad line of a tile. -/
def lineKey (bank line : Nat) : Nat := bank * 512 + line

/-- Words of a line are written anew: their code is right again (R50). -/
def Tile.mended (τ : Tile) (key : Nat) (words : BitVec 8) : Tile :=
  let x := tget τ.upset {} key
  let y : Ecc := { ce := x.ce &&& ~~~words, ue := x.ue &&& ~~~words }
  { τ with upset := if y = {} then tdel τ.upset key else tset τ.upset key y }

/-- Store a scratchpad line. -/
def storeLine (t : TileId) (bank line : Nat) (v : Line) : Act :=
  actSeq (store (spm t bank line) (lineBytes v)) (modTile t fun τ => τ.mended (lineKey bank line) 255)

/-- Bytes back at what an unlisted address reads as. -/
def wipe (lo hi : Nat) : Act := fun _ => [.wipe lo hi]

/-- Take a free value (notes/assumptions/4.md). -/
def withFree (k : BitVec 512 → Act) : Act := fun s =>
  .tick :: k (Config.freeValue s.free) (s.apply .tick)

end Sys2Proof.Machine
end

