-- ==== Sys2Proof/Machine/Aes.lean ====
section
/-!
DEFINITION. AES as FIPS 197 defines it: AES-128 for the counter generator (R125, R148), AES-256 for the
expander of the entropy block (R420).  The S-box is computed from its definition, the inverse in GF(2^8)
followed by the affine map.
-/
namespace Sys2Proof.Machine.Aes

/-- Multiplication by x in GF(2^8) with the polynomial 0x11B. -/
def xtime (a : Nat) : Nat :=
  let d := a * 2
  if d < 256 then d else (d ^^^ 0x11B)

/-- Product in GF(2^8), over the 8 bits of `b`. -/
def gmulAux : Nat → Nat → Nat → Nat
  | 0, _, _ => 0
  | n + 1, a, b => (if b % 2 = 1 then a else 0) ^^^ gmulAux n (xtime a) (b / 2)

def gmul (a b : Nat) : Nat := gmulAux 8 a b

/-- a^254, the inverse of a in GF(2^8), with 0 for 0. -/
def ginv (a : Nat) : Nat :=
  let a2 := gmul a a
  let a3 := gmul a2 a
  let a6 := gmul a3 a3
  let a12 := gmul a6 a6
  let a15 := gmul a12 a3
  let a30 := gmul a15 a15
  let a60 := gmul a30 a30
  let a120 := gmul a60 a60
  let a126 := gmul a120 a6
  let a127 := gmul a126 a
  gmul a127 a127

/-- Rotation left of a byte. -/
def rotl8 (a k : Nat) : Nat := ((a <<< k) ||| (a >>> (8 - k))) % 256

/-- The S-box of FIPS 197. -/
def sboxOf (a : Nat) : Nat :=
  let i := ginv a
  i ^^^ rotl8 i 1 ^^^ rotl8 i 2 ^^^ rotl8 i 3 ^^^ rotl8 i 4 ^^^ 0x63

/-- The S-box as a table, computed once. -/
def sboxTable : Array Nat := ((List.range 256).map sboxOf).toArray

def sbox (a : Nat) : Nat := sboxTable.getD (a % 256) 0

/-- A key word of four bytes. -/
abbrev W4 := List Nat

def xorW (a b : W4) : W4 := List.zipWith (· ^^^ ·) a b

/-- The next word of the key schedule, for `nk` key words, index `i` and the words so far, newest first. -/
def nextWord (nk i rcon : Nat) (ws : List W4) : W4 :=
  let prev := ws.headD []
  let back := ws.getD (nk - 1) []
  let t :=
    if i % nk = 0 then
      match prev with
      | b0 :: rest => xorW ((rest ++ [b0]).map sbox) [rcon, 0, 0, 0]
      | [] => []
    else if nk > 6 ∧ i % nk = 4 then prev.map sbox
    else prev
  xorW back t

/-- Key expansion: `n` more words. -/
def expandAux (nk : Nat) : Nat → Nat → Nat → List W4 → List W4
  | 0, _, _, ws => ws
  | n + 1, i, rcon, ws =>
    expandAux nk n (i + 1) (if i % nk = 0 then xtime rcon else rcon) (nextWord nk i rcon ws :: ws)

/-- Groups of four. -/
def chunk4 : Nat → List Nat → List W4
  | 0, _ => []
  | n + 1, l => l.take 4 :: chunk4 n (l.drop 4)

/-- The round keys, 16 bytes each, for a key of `nk` words and `nr` rounds. -/
def roundKeys (nk nr : Nat) (key : List Nat) : List (List Nat) :=
  let ws := (expandAux nk (4 * (nr + 1) - nk) nk 1 (chunk4 nk key).reverse).reverse
  (List.range (nr + 1)).map fun r => ((ws.drop (4 * r)).take 4).flatten

/-- ShiftRows on a state in column order. -/
def shiftRows (s : List Nat) : List Nat :=
  (List.range 16).map fun i => s.getD ((i + 4 * (i % 4)) % 16) 0

/-- MixColumns on one column. -/
def mixCol : List Nat → List Nat
  | [a, b, c, d] =>
    [xtime a ^^^ xtime b ^^^ b ^^^ c ^^^ d, a ^^^ xtime b ^^^ xtime c ^^^ c ^^^ d,
     a ^^^ b ^^^ xtime c ^^^ xtime d ^^^ d, xtime a ^^^ a ^^^ b ^^^ c ^^^ xtime d]
  | l => l

def mixColumns (s : List Nat) : List Nat := ((chunk4 4 s).map mixCol).flatten

/-- The rounds after the first AddRoundKey. -/
def rounds : List (List Nat) → List Nat → List Nat
  | [], s => s
  | [k], s => List.zipWith (· ^^^ ·) (shiftRows (s.map sbox)) k
  | k :: ks, s => rounds ks (List.zipWith (· ^^^ ·) (mixColumns (shiftRows (s.map sbox))) k)

/-- Cipher of FIPS 197. -/
def cipher (rk : List (List Nat)) (block : List Nat) : List Nat :=
  rounds rk.tail (List.zipWith (· ^^^ ·) block (rk.headD []))

/-- AES-128-Encrypt(K, C) with byte 0 the most significant byte (R125). -/
def aes128 (key blk : U128) : U128 :=
  let out := cipher (roundKeys 4 10 ((beBytes 16 key.toNat).map BitVec.toNat)) ((beBytes 16 blk.toNat).map BitVec.toNat)
  BitVec.ofNat 128 (ofBe (out.map (BitVec.ofNat 8)))

/-- AES-256 encryption of one block (R420). -/
def aes256 (key : BitVec 256) (blk : U128) : U128 :=
  let out := cipher (roundKeys 8 14 ((beBytes 32 key.toNat).map BitVec.toNat)) ((beBytes 16 blk.toNat).map BitVec.toNat)
  BitVec.ofNat 128 (ofBe (out.map (BitVec.ofNat 8)))

end Sys2Proof.Machine.Aes
end

