-- ==== Sys2Proof/Machine/Rng.lean ====
section
/-!
DEFINITION. The counter generator and its distributions (05_counter_rng.md): counter blocks, slices, the tabled
transforms G, N and L with coefficients by R466, and the uniforms of stochastic rounding (R86, R102).
The functions f of R141 are evaluated in fixed point with 200 fractional bits; R466 asks for the exact value
rounded to a multiple of 2^-24, and the guard bits are logged (assumption 10).
-/
namespace Sys2Proof.Machine

/-! ### Blocks and slices -/

/-- The counter block of R126. -/
def cgCounter (step site strm blk : Nat) : U128 :=
  BitVec.ofNat 128 ((step % 2 ^ 48) * 2 ^ 80 + (site % 2 ^ 16) * 2 ^ 64 + (strm % 2 ^ 20) * 2 ^ 44 + blk % 2 ^ 44)

/-- cg_block of R148. -/
def cgBlock (seed : U128) (step site strm blk : Nat) : U128 := Aes.aes128 seed (cgCounter step site strm blk)

/-- Slice k of width w, slice 0 the most significant (R136). -/
def sliceOf (out : U128) (w k : Nat) : Nat := (out.toNat >>> (128 - w * (k + 1))) % 2 ^ w

/-- cg_slice of R148. -/
def cgSlice (seed : U128) (step site strm e w : Nat) : Nat :=
  let n := 128 / w
  sliceOf (cgBlock seed step site strm (e / n)) w (e % n)

/-- The 24-bit uniform of a tabled draw (R136). -/
def cgU24 (seed : U128) (step site strm e : Nat) : Nat := cgSlice seed step site strm e 32 / 256

/-- The 16-bit uniform of a stochastic rounding (R86). -/
def srUniform (seed : U128) (step site strm e : Nat) : Nat := cgSlice seed step site strm e 16

/-- The key index of a tree rounding: block number B, node number h, lane (R102). -/
def treeKey (b h ln : Nat) : Nat := b * 2 ^ 26 + h * 2 ^ 4 + ln

/-! ### Fixed-point elementary functions, 200 fractional bits -/

def fxP : Nat := 200
def fxOne : Nat := 2 ^ fxP

/-- Σ z^(2i+1)/(2i+1) over `n` terms from term i, with p = z^(2i+1) and z2 = z². -/
def atanhAux : Nat → Nat → Nat → Nat → Nat
  | 0, _, _, _ => 0
  | n + 1, i, p, z2 => p / (2 * i + 1) + atanhAux n (i + 1) (p * z2 / fxOne) z2

/-- ln(num / den) for positive num and den, in units of 2^-200: scale by a power of two into [1, 2) and sum
2 atanh((m−1)/(m+1)). -/
def fxLn (num den : Nat) : Int :=
  let k : Int := (bitLen num : Int) - bitLen den
  -- m = num / (den 2^k) lies in (1/2, 2)
  let a := if k ≥ 0 then num else num * 2 ^ (-k).toNat
  let b := if k ≥ 0 then den * 2 ^ k.toNat else den
  let zneg := a < b
  let z := (if zneg then b - a else a - b) * fxOne / (a + b)
  let s := 2 * atanhAux 70 0 z (z * z / fxOne)
  (if zneg then -(s : Int) else s) + k * ln2Fx

/-- arctan(1/q) in fixed point. -/
def atanInvAux : Nat → Nat → Nat → Nat → Int
  | 0, _, _, _ => 0
  | n + 1, i, p, q2 =>
    (if i % 2 = 0 then (p / (2 * i + 1) : Int) else -((p / (2 * i + 1) : Nat) : Int)) + atanInvAux n (i + 1) (p / q2) q2

/-- π by Machin's formula. -/
def fxPi : Nat := (16 * atanInvAux 100 0 (fxOne / 5) 25 - 4 * atanInvAux 100 0 (fxOne / 239) (239 * 239)).toNat

/-- √(2π) in fixed point. -/
def fxSqrt2Pi : Nat := isqrt (2 * fxPi * fxOne)

/-- Σ (−1)^n t^(2n+1) / (2^n n! (2n+1)), with p = t^(2n+1)/(2^n n!). -/
def erfAux : Nat → Nat → Nat → Nat → Int
  | 0, _, _, _ => 0
  | k + 1, n, p, t2 =>
    (if n % 2 = 0 then (p / (2 * n + 1) : Int) else -((p / (2 * n + 1) : Nat) : Int)) +
      erfAux k (n + 1) (p * t2 / fxOne / (2 * (n + 1))) t2

/-- The upper tail of the standard normal at t ≥ 0, in fixed point. -/
def fxTail (t : Nat) : Int :=
  (fxOne / 2 : Int) - erfAux 130 0 t (t * t / fxOne) * fxOne / fxSqrt2Pi

/-- Bisection for the t with tail equal to `u` (fixed point), over `n` halvings of [lo, lo + step]. -/
def tailInv : Nat → Nat → Nat → Int → Nat
  | 0, lo, _, _ => lo
  | n + 1, lo, step, u =>
    let mid := lo + step / 2
    if fxTail mid > u then tailInv n mid (step / 2) u else tailInv n lo (step / 2) u

/-- f(u) of R141 at u = num × 2^-26, 0 < num < 2^26, in units of 2^-200: table 1 G, 2 N, 3 L. -/
def tblF (tbl num : Nat) : Int :=
  match tbl with
  | 1 => -(fxLn (fxLn (2 ^ 26) num).toNat fxOne)
  | 3 => fxLn num (2 ^ 26 - num)
  | _ =>
    if num ≤ 2 ^ 25 then -(tailInv 120 0 (8 * fxOne) (num * 2 ^ (fxP - 26) : Int) : Int)
    else tailInv 120 0 (8 * fxOne) (((2 ^ 26 - num) * 2 ^ (fxP - 26) : Nat) : Int)

/-! ### Tables -/

/-- First v and remainder bits w of segment `seg` (R142, R466). -/
def segV0 (seg : Nat) : Nat × Nat :=
  let o := (seg % 2048) / 128
  let sub := seg % 128
  if o = 15 then (2 * sub, 1) else (2 ^ (22 - o) + sub * 2 ^ (15 - o), 15 - o)

/-- Nearest integer to v × 2^24 for v in units of 2^-200, ties to even. -/
def fxRound24 (v : Int) : Int :=
  let t := roundUnits .rne v.natAbs (-(fxP : Int)) false (-24)
  if v < 0 then -(t : Int) else t

/-- The coefficients c0, c1, c2 of a segment by R466. -/
def tblCoef (tbl seg : Nat) : Int × Int × Int :=
  let vw := segV0 seg
  let g (h : Nat) : Int :=        -- x = h / 2, u in units of 2^-26
    let n := 4 * vw.1 + 2 * h * 2 ^ vw.2 + 2
    tblF tbl (if seg < 2048 then n else 2 ^ 26 - n)
  let g0 := g 0
  let g1 := g 1
  let g2 := g 2
  let a2 := 2 * g0 - 4 * g1 + 2 * g2
  (fxRound24 g0, fxRound24 (g2 - g0 - a2), fxRound24 a2)

/-- Segment and xf of a 24-bit uniform (R142). -/
def tblSeg (u24 : Nat) : Nat × Nat :=
  let side := u24 / 2 ^ 23 % 2
  let v := if side = 1 then (2 ^ 24 - 1 - u24 % 2 ^ 24) else u24 % 2 ^ 24
  let z := 23 - bitLen v
  let o := if z ≥ 15 then 15 else z
  let w := if z ≥ 15 then 1 else 15 - o
  let sub := if z ≥ 15 then v / 2 else (v / 2 ^ w) % 128
  (side * 2048 + o * 128 + sub, (v % 2 ^ w) * 2 ^ (16 - w))

/-- table_eval of R142: TBL 1 G, 2 N, 3 L. -/
def tableEval (tbl u24 : Nat) : U32 :=
  let p := tblSeg u24
  let c := tblCoef tbl p.1
  let xf : Int := p.2
  ofFixed (c.1 * 2 ^ 32 + c.2.1 * xf * 2 ^ 16 + c.2.2 * xf * xf) (-56)

/-- The coefficient section of the vector file: c0, c1, c2 as little-endian s32 values in segment order, for
tables G, N and L (R149). -/
def tblBytes : List Byte :=
  ([1, 2, 3].map fun t => ((List.range 4096).map fun sg =>
    let c := tblCoef t sg
    leBytes 4 (wrapInt 32 c.1) ++ leBytes 4 (wrapInt 32 c.2.1) ++ leBytes 4 (wrapInt 32 c.2.2)).flatten).flatten

/-! ### Draw kinds -/

/-- The draw kinds of R137, as the site table codes them (R271). -/
inductive DrawKind where
  | sr | u8 | u16 | u32 | bern | norm | gumbel | logit | unif
  deriving DecidableEq, Repr

/-- KIND code of a site-table entry (R271); none for 9-255. -/
def DrawKind.ofCode : Nat → Option DrawKind
  | 0 => some .sr | 1 => some .u8 | 2 => some .u16 | 3 => some .u32 | 4 => some .bern
  | 5 => some .norm | 6 => some .gumbel | 7 => some .logit | 8 => some .unif | _ => none

/-- Width of a draw (R139). -/
def DrawKind.width : DrawKind → Nat
  | .u8 => 8
  | .u16 | .sr | .bern => 16
  | _ => 32

/-- Table of a tabled kind (R139, R141). -/
def DrawKind.table : DrawKind → Option Nat
  | .gumbel => some 1
  | .norm => some 2
  | .logit => some 3
  | _ => none

/-- The result of a draw, from its slice; `p` is the BERN threshold (R139, R140).  BERN's 1 or 0 is the integer (DESIGN CHOICE:
notes/assumptions/65.md). -/
def DrawKind.result (k : DrawKind) (slice p : Nat) : U32 :=
  match k with
  | .unif => BitVec.ofNat 32 (fp32.round .rne false false (slice / 256) (-24)).1
  | .bern => if slice < p then 1#32 else 0#32
  | .norm => tableEval 2 (slice / 256)
  | .gumbel => tableEval 1 (slice / 256)
  | .logit => tableEval 3 (slice / 256)
  | _ => BitVec.ofNat 32 slice

end Sys2Proof.Machine
end

