-- ==== Sys2Proof/Machine/Beat.lean ====
section
/-!
DEFINITION. What every command on a tile shares: when a tile may act in a beat, its error bits, faults, register results,
scratchpad lines with their tags, and keys (R14, R48, R50, R70, R264).
-/
namespace Sys2Proof.Machine

/-! ### Faults -/

/-- A tile that must stop: it completes the beat it is in and starts no other (R70, R440). -/
def Tile.freeze (τ : Tile) : Tile :=
  match τ.mode with
  | .run => if τ.mid then { τ with freezeReq := true } else { τ with mode := .frozen }
  | .halted => { τ with mode := .frozen }
  | _ => τ

/-- Every tile stops (R309). -/
def freezeTiles : Act := fun s => [.tiles (s.tiles.map fun p => (p.1, p.2.freeze))]

/-- A job is loaded (R339). -/
def jobLoaded (s : State) : Bool := s.job.phase != .none && s.job.phase != .loading

/-- A fault waits for the MC, behind those that wait already (R321); one that a repair has met before needs it again. -/
def Flt.note (x : Flt) (f : FaultRec) : Flt :=
  { x with pending := if x.pending.contains f then x.pending else x.pending ++ [f], mended := x.mended.erase f }

/-- A run-time fault of a loaded job: the job freezes, and the fault waits for the MC's diagnosis (R70, R309, R320). -/
def raiseFault (f : FaultRec) : Act :=
  actWhen jobLoaded (actAll [
    modFlt fun x => x.note f,
    modJob fun j => { j with phase := if j.phase = .running then .frozen else j.phase },
    freezeTiles,
    setF .fltStatus F.fltStatus_STATE 1])

/-- Set a bit of TILE_ERR. -/
def tileErr (t : TileId) (f : Fld) : Act := setF (.tileErr t) f 1

/-- The record of a TILE_FAULT (R276, R309). -/
def tileRec (t : TileId) (f : Fld) : FaultRec := { code := 0x88, bit := f.lo, die := (dieOf t).toNat, loc := t.toNat }

/-- Set a fault bit of TILE_ERR: TILE_FAULT at the tile (R70, R276). -/
def tileFault (t : TileId) (f : Fld) : Act := actAll [tileErr t f, raiseFault (tileRec t f)]

/-- The information bits of a floating-point operation (R91, R93). -/
def tileFp (t : TileId) (fl : FpFlags) : Act :=
  actAll [actOn fl.inv (tileErr t F.tileErr_FP_INVALID), actOn fl.ovf (tileErr t F.tileErr_FP_OVF)]

/-! ### Beats -/

/-- A droop hold stops the tiles of the die from starting beats (R21). -/
def dieHeld (s : State) (d : DieId) : Bool := s.flag (.pgvStatus d) F.pgvStatus_DROOP_HOLD

/-- A hold of either kind is in force on the die: its tiles start no beat (R14, R19, R21, R24). -/
def dieStopped (s : State) (d : DieId) : Bool := dieHeld s d || s.flag (.pgvStatus d) F.pgvStatus_PACING

/-- Step `k` ends at a boundary where every tile holds: one of a checkpoint, a step digest, a pause or a forced suspension (R292,
R302, R317, R326). -/
def boundaryHolds (s : State) (k : Nat) : Bool :=
  let i := s.job.img.ckpt.interval
  (i ≠ 0 && k % i = 0) || (s.job.digInt ≠ 0 && k % s.job.digInt = 0) || s.job.pauseAt = some k || s.job.suspendAt = some k

/-- A tile whose step copy reads `k` holds before its first beat of step `k`: the boundary is not reached by every tile yet and
holds them, or it is reached and not done with. -/
def stepHeld (s : State) (k : Nat) : Bool :=
  s.job.holds.contains k || (decide (s.job.step < k) && boundaryHolds s k)

/-- A tile may start its next beat (R14): it runs, its bundle has arrived (R45), and nothing holds it. -/
def canStart (s : State) (t : TileId) : Bool :=
  let τ := s.tile t
  τ.mode == .run && !τ.mid && !τ.freezeReq && !dieStopped s (dieOf t) && s.job.phase == .running &&
    !stepHeld s τ.step && (!τ.haltReq || 0 < τ.stepsLeft) && decide (τ.bpos < τ.bfilled)

/-- A slot of the tile's current bundle may act: the tile is in a beat whose CTL slot has not been reached, or may start
one. -/
def canAct (s : State) (t : TileId) : Bool := ((s.tile t).mid && (s.tile t).ctl.isNone) || canStart s t

/-- The tile is in a beat. -/
def enterBeat (t : TileId) : Act := modTile t fun τ => { τ with mid := true }

/-- One slot of a tile's beat.  Offered to a tile that may not act, it is not performed (notes/assumptions/6.md). -/
def inBeat (t : TileId) (a : Act) : Act := actWhen (fun s => canAct s t) (actSeq (enterBeat t) a)

/-- The beat waits for something. -/
def addWait (t : TileId) (w : Wait) : Act := modTile t fun τ => { τ with waits := τ.waits ++ [w] }

/-- The first wait of this kind has been met. -/
def dropWait (t : TileId) (w : Wait) : Act := modTile t fun τ => { τ with waits := τ.waits.erase w }

/-- The beat waits for an HBM stream element: PGV_HLATE_COUNT counts the beat once (R31, R34). -/
def countLate (t : TileId) : Act := actWhen (fun s => !(s.tile t).late) (actSeq (incReg (.pgvHlateCount (dieOf t))) (modTile t fun τ => { τ with late := true }))

/-! ### Registers of a tile -/

/-- A vector register (R57). -/
def Tile.vreg (τ : Tile) (n : Nat) : Line := tget τ.vr 0 n
/-- An operand register MO0-MO7, or the A or B scale register as 8 and 9 (R54, R264). -/
def Tile.moreg (τ : Tile) (n : Nat) : Line := tget τ.mo 0 n
/-- An index register (R47). -/
def Tile.ixreg (τ : Tile) (n : Nat) : Nat := tget τ.ix 0 n
/-- A CG index register (R138). -/
def Tile.cgxreg (τ : Tile) (n : Nat) : Nat := tget τ.cgx 0 n
/-- A mask register (R263). -/
def Tile.maskreg (τ : Tile) (n : Nat) : BitVec 16 := tget τ.mask 0 n
/-- The tag sideband of a vector register (R264). -/
def Tile.tag (τ : Tile) (n : Nat) : Option U64 := tfind τ.vtag n
/-- The seed in a key slot (R131). -/
def Tile.seed (τ : Tile) (n : Nat) : U128 := (tget τ.keys {} n).seed
/-- An accumulator set: `false` is A, `true` is B (R55). -/
def Tile.set (τ : Tile) (b : Bool) : AccSet := if b then τ.setB else τ.setA
def Tile.putSet (τ : Tile) (b : Bool) (x : AccSet) : Tile := if b then { τ with setB := x } else { τ with setA := x }

/-- A result that later beats see (R48). -/
def addWrite (t : TileId) (w : RegW) : Act := modTile t fun τ => { τ with writes := τ.writes ++ [w] }

/-- A register write lands.  A write of single lanes leaves no tag, since the line is no partial any more. -/
def Tile.land (τ : Tile) : RegW → Tile
  | .vec n v tag =>
    { τ with vr := tset τ.vr n v, vtag := (match tag with | none => tdel τ.vtag n | some g => tset τ.vtag n g) }
  | .lane n j v => { τ with vr := tset τ.vr n (setLane (τ.vreg n) j v), vtag := tdel τ.vtag n }
  | .mo n v => { τ with mo := tset τ.mo n v }
  | .mask n v => { τ with mask := tset τ.mask n v }
  | .drain b v tag => τ.putSet b { τ.set b with out := v, outTag := tag }
  | .ix n v => { τ with ix := tset τ.ix n (v % 512) }
  | .ixInc n => { τ with ix := tset τ.ix n ((τ.ixreg n + 1) % 512) }
  | .cgx n v => { τ with cgx := tset τ.cgx n (v % 2 ^ 48) }
  | .cgxInc n k => { τ with cgx := tset τ.cgx n ((τ.cgxreg n + k) % 2 ^ 48) }

/-- Every register write of the beat lands (R48). -/
def landWrites (t : TileId) : Act := modTile t fun τ => { (τ.writes.foldl Tile.land τ) with writes := [] }

/-! ### Scratchpad lines -/

/-- The line number that an LS access resolves: LINE plus the index register, modulo 512 (R47, R264). -/
def lsLine (τ : Tile) (line : Nat) (ixen : Bool) (ix : Nat) : Nat :=
  if ixen then (line + τ.ixreg ix) % 512 else line % 512

/-- Post-increment of an index register, 9 bits (R47). -/
def ixInc (t : TileId) (ixen inc : Bool) (ix : Nat) : Act :=
  actOn (ixen && inc) (addWrite t (.ixInc ix))

/-- Position of a line in the tile's partial region (R258, R264). -/
def partPos (r : TileRec) (bank line : Nat) : Option Nat :=
  if r.partLines ≠ 0 ∧ bank = r.partBank ∧ r.partLine ≤ line ∧ line < r.partLine + r.partLines
  then some (line - r.partLine) else none

/-- Address of the tag of position `p` of the partial region (R264): byte 8p of the tag array. -/
def tagAddr (t : TileId) (r : TileRec) (p : Nat) : Nat := spm t r.tagBank r.tagLine + 8 * p

/-- The tag of position `p` in its line of the tag array. -/
def tagIn (p : Nat) (v : Line) : U64 := v.extractLsb' (64 * (p % 8)) 64

/-- The tag that a line of the partial region carries; 0 is the tag of a line stored without one. -/
def tagOf (s : State) (t : TileId) (bank line : Nat) : Option U64 :=
  (partPos (s.tile t).trec bank line).map fun p => tagIn p (s.line t (s.tile t).trec.tagBank ((s.tile t).trec.tagLine + p / 8))

/-- Store a line, with its tag where it lies in the partial region (R264). -/
def storeTagged (t : TileId) (bank line : Nat) (v : Line) (tag : Option U64) : Act :=
  actAll [storeLine t bank line v,
    actGet (fun s => partPos (s.tile t).trec bank line) fun o => actOpt o fun p =>
      actGet (fun s => (s.tile t).trec) fun r => actSeq (store (tagAddr t r p) (leBytes 8 ((tag.getD 0).toNat)))
        (modTile t fun τ => τ.mended (lineKey r.tagBank (r.tagLine + p / 8)) (1#8 <<< (p % 8)))]

/-- A line of a declared slack buffer of the tile (R49, R269). -/
def inBuffer (s : State) (t : TileId) (bank line : Nat) : Bool :=
  s.job.img.streams.any fun d =>
    d.tile = t.toNat && d.bufNbanks ≠ 0 && d.bufBank ≤ bank && bank < d.bufBank + d.bufNbanks &&
      d.bufLine ≤ line && line < d.bufLine + d.bufLines

/-- A scheduled store: one that resolves to a buffer line is dropped, a fault (R49). -/
def guardedStore (t : TileId) (bank line : Nat) (v : Line) (tag : Option U64) : Act :=
  actIf (fun s => inBuffer s t bank line) (tileFault t F.tileErr_SPM_GUARD) (storeTagged t bank line v tag)

/-! ### The scratchpad's code (R50) -/

/-- Words go wrong: a wrong bit more in a word that has one makes it uncorrectable. -/
def Ecc.join (x y : Ecc) : Ecc :=
  let ue := x.ue ||| y.ue ||| (x.ce &&& y.ce)
  { ce := (x.ce ||| y.ce) &&& ~~~ue, ue }

/-- Wrong bits come into a line. -/
def hitLine (t : TileId) (bank line : Nat) (e : Ecc) : Act :=
  actOn (decide (e ≠ {})) (modTile t fun τ => { τ with upset := tset τ.upset (lineKey bank line) ((tget τ.upset {} (lineKey bank line)).join e) })

/-- Words of a mask. -/
def wordsOf (m : BitVec 8) : List Nat := (List.range 8).filter fun w => m.getLsbD w

/-- TILE_ECC_ADDR for a scratchpad word (R71). -/
def eccAddr (bank line w : Nat) (ue : Bool) : U32 := BitVec.ofNat 32 ((bank * 512 + line) * 64 + 8 * w + b2n ue * 2 ^ 30)

/-- What the port finds wrong in a line, recorded: the words are taken in ascending order (notes/assumptions/4.md). -/
def noteEcc (t : TileId) (bank line : Nat) (x : Ecc) : Act :=
  actAll [
    actOn (decide (x.ce ≠ 0)) (actSeq (incF (.tileEcc t) F.tileEcc_SPM_CE (wordsOf x.ce).length) (tileErr t F.tileErr_SPM_CE)),
    actOpt (wordsOf (x.ce ||| x.ue)).getLast? fun w => setReg (.tileEccAddr t) (eccAddr bank line w (x.ue.getLsbD w)),
    actOn (decide (x.ue ≠ 0)) (tileFault t F.tileErr_SPM_UE)]

/-- A line with the words of a mask taken from another. -/
def mixWords (m : BitVec 8) (v f : Line) : Line :=
  (wordsOf m).foldl (fun l w => (l &&& ~~~((0xFFFFFFFFFFFFFFFF#512) <<< (64 * w))) ||| (f &&& ((0xFFFFFFFFFFFFFFFF#512) <<< (64 * w)))) v

/-- Words of a line are read through the scheduled port.  A single error is corrected and counted, and stays in the array; a double error is a
fault, and what the port delivers of its word is a free value (notes/assumptions/4.md). -/
def readWords (t : TileId) (bank line : Nat) (words : BitVec 8) (k : Line → Act) : Act :=
  actGet (fun s => tget (s.tile t).upset {} (lineKey bank line)) fun x =>
    let y : Ecc := { ce := x.ce &&& words, ue := x.ue &&& words }
    actSeq (noteEcc t bank line y)
      (if y.ue = 0 then actGet (fun s => s.line t bank line) k
        else withFree fun f => actGet (fun s => s.line t bank line) fun v => k (mixWords y.ue v f))

/-- A whole line is read through the scheduled port; `e` names the wrong bits that have come into it. -/
def readLine (t : TileId) (bank line : Nat) (e : Ecc) (k : Line → Act) : Act :=
  actSeq (hitLine t bank line e) (readWords t bank line 255 k)

/-- The tag that a load takes with its line: its word of the tag array is read through the port of TAG_BANK (R264). -/
def readTag (t : TileId) (bank line : Nat) (k : Option U64 → Act) : Act :=
  actGet (fun s => (s.tile t).trec) fun r =>
    match partPos r bank line with
    | none => k none
    | some p => readWords t r.tagBank (r.tagLine + p / 8) (1#8 <<< (p % 8)) fun v => k (some (tagIn p v))

/-! ### Image look-ups -/

/-- Tree descriptor of the tile (R260). -/
def tdOf (τ : Tile) (i : Nat) : TreeDesc := τ.trec.tds.getD i {}

/-- SP descriptor of the tile (R261). -/
def spdOf (τ : Tile) (i : Nat) : SpDesc := τ.trec.spds.getD i {}

/-- Site-table entry (R271). -/
def siteOf (s : State) (n : Nat) : Site := (s.job.img.sites.find? fun x => x.site = n).getD {}

/-- Region-table entry (R270). -/
def regionOf (s : State) (n : Nat) : Option Region := s.job.img.regions.find? fun x => x.id = n

/-- HBM stream descriptor (R269). -/
def streamOf (s : State) (n : Nat) : Option StreamDesc := s.job.img.streams.find? fun x => x.id = n

/-- Tiles of the job with a record: those whose step copies count (R128). -/
def jobTiles (s : State) : List TileId := (s.tiles.filter fun p => p.2.hasRec).map Prod.fst

end Sys2Proof.Machine
end

