-- ==== Sys2Proof/Machine/CgOps.lean ====
section
/-!
DEFINITION. Operations of the counter-generator core of a tile and of the seed store (R61, R62, R125-R147).
-/
namespace Sys2Proof.Machine

/-- Every compute die. -/
def allDies : List DieId := (List.range 8).map fun i => BitVec.ofNat 3 i

/-- A seed-store entry of a die (R130, R151). -/
def seedEntry (s : State) (d : DieId) (n : BitVec 4) : U128 :=
  s.reg (.cgsSeed d n 3) ++ s.reg (.cgsSeed d n 2) ++ s.reg (.cgsSeed d n 1) ++ s.reg (.cgsSeed d n 0)

/-- The entry is valid (R130). -/
def seedValid (s : State) (d : DieId) (n : BitVec 4) : Bool := bitOf (s.reg (.cgsStatus d)) n.toNat

/-- Write a seed-store entry of a die and set it valid (R130, R133). -/
def putSeed (d : DieId) (n : BitVec 4) (v : U128) : Act :=
  actAll [
    actEach [0, 1, 2, 3] fun w => setReg (.cgsSeed d n (BitVec.ofNat 2 w)) (v.extractLsb' (32 * w) 32),
    modReg (.cgsStatus d) fun r => setBit r n.toNat]

/-- Clear every entry of a die to 0 and mark it invalid (R130). -/
def clearSeeds (d : DieId) : Act :=
  actAll [
    actEach (List.range 16) fun n => actEach [0, 1, 2, 3] fun w => setReg (.cgsSeed d (BitVec.ofNat 4 n) (BitVec.ofNat 2 w)) 0,
    setReg (.cgsStatus d) 0, setReg (.cgsPending d) 0]

/-- A key slot takes a seed and expands its round keys over 10 beats (R62, R131). -/
def loadKey (t : TileId) (slot : Nat) (v : U128) : Act :=
  modTile t fun τ => { τ with keys := tset τ.keys slot { seed := v, ready := τ.beat + 10, loaded := true } }

/-- CGX post-increment: codes 0-3 stand for 1, 4, 8 and 16 (R138, R267). -/
def cgxCode (c : Nat) : Nat := match c with | 0 => 1 | 1 => 4 | 2 => 8 | _ => 16

/-- Issue a counter block (R61). -/
def issueBlock (t : TileId) (i : CgIssue) : Act := modTile t fun τ => { τ with pipe := τ.pipe ++ [i] }

/-- The elements of an emerged block: its slices go to lanes, or to the transform unit (R136, R139, R144, R145). -/
def emergeBlock (t : TileId) (i : CgIssue) : Act :=
  let out := Aes.aes128 i.seed i.ctr
  match DrawKind.ofCode i.kind with
  | none => actNop
  | some k =>
    let n := 128 / k.width
    match k.table with
    | some _ => modTile t fun τ => { τ with tabq := τ.tabq ++ [{
        beat := i.beat, kind := i.kind, vreg := i.vreg, lane0 := i.lane0,
        u24 := (List.range n).map fun j => sliceOf out k.width j / 256 }] }
    | none => actEach (List.range n) fun j =>
        addWrite t (.lane i.vreg ((i.lane0 + j) % 16) (k.result (sliceOf out k.width j) i.thr))

/-- Blocks issued 10 beats ago or earlier emerge (R61, R145). -/
def emergeDue (t : TileId) : Act :=
  actGet (fun s => s.tile t) fun τ => actAll [
    modTile t fun τ => { τ with pipe := τ.pipe.filter fun i => τ.beat < i.beat + 10 },
    actEach (τ.pipe.filter fun i => !(τ.beat < i.beat + 10)) (emergeBlock t)]

/-- Tabled draws whose block emerged one beat ago are written (R144, R145). -/
def tableDue (t : TileId) : Act :=
  actGet (fun s => s.tile t) fun τ => actAll [
    modTile t fun τ => { τ with tabq := τ.tabq.filter fun i => τ.beat < i.beat + 11 },
    actEach (τ.tabq.filter fun i => !(τ.beat < i.beat + 11)) fun i =>
      actOpt ((DrawKind.ofCode i.kind).bind DrawKind.table) fun tb =>
        actEach i.u24.zipIdx fun p => addWrite t (.lane i.vreg ((i.lane0 + p.2) % 16) (tableEval tb p.1))]

end Sys2Proof.Machine
end

