-- ==== Sys2Proof/Machine/Ls.lean ====
section
/-!
DEFINITION. The commands of the LS slots: loads, stores, takes and index registers (R47-R50, R54, R264).  A load is seen from
the next beat on; a store is seen by the loads of the next beat (R48).
-/
namespace Sys2Proof.Machine

/-- The line that an LS access of the tile resolves (R47). -/
def withLine (t : TileId) (line : Nat) (ixen : Bool) (ix : Nat) (k : Nat → Act) : Act :=
  actGet (fun s => lsLine (s.tile t) line ixen ix) k

/-- LDV: a line into a vector register, with its tag where it lies in the partial region (R264). -/
def execLdv (t : TileId) (bank line : Nat) (ixen : Bool) (ix : Nat) (inc : Bool) (reg : Nat) (e : Ecc) (s : State) :
    Host.Outcome State Fault Refusal :=
  s.does (inBeat t (withLine t line ixen ix fun l => actAll [
    readLine t bank l e fun v => readTag t bank l fun g => addWrite t (.vec reg v g),
    ixInc t ixen inc ix]))

/-- STV: a vector register to a line, with its tag in the partial region; a buffer line is guarded (R49, R264). -/
def execStv (t : TileId) (bank line : Nat) (ixen : Bool) (ix : Nat) (inc : Bool) (reg : Nat) (s : State) :
    Host.Outcome State Fault Refusal :=
  s.does (inBeat t (withLine t line ixen ix fun l => actAll [
    actGet (fun s => s.tile t) fun τ => guardedStore t bank l (τ.vreg reg) (τ.tag reg),
    ixInc t ixen inc ix]))

/-- LDM: a line into MO0-MO7, or into the A or B scale register as 8 and 9 (R54, R264). -/
def execLdm (t : TileId) (bank line : Nat) (ixen : Bool) (ix : Nat) (inc : Bool) (reg : Nat) (e : Ecc) (s : State) :
    Host.Outcome State Fault Refusal :=
  s.does (inBeat t (withLine t line ixen ix fun l => actAll [
    readLine t bank l e fun v => addWrite t (.mo reg v),
    ixInc t ixen inc ix]))

/-- Take a full buffer line into a register and empty it (R49). -/
def takeLine (t : TileId) (bank l reg : Nat) (matrix : Bool) : Act :=
  actAll [
    readWords t bank l 255 fun v => addWrite t (if matrix then .mo reg v else .vec reg v none),
    modTile t fun τ => { τ with full := τ.full.erase (lineKey bank l) }]

/-- A take: of a full line at once; of an empty line the beat waits, and PGV_HLATE_COUNT counts the beat (R31, R49). -/
def takeOrWait (t : TileId) (bank l reg : Nat) (matrix : Bool) (e : Ecc) : Act :=
  actIf (fun s => (s.tile t).full.contains (lineKey bank l)) (actSeq (hitLine t bank l e) (takeLine t bank l reg matrix))
    (actSeq (countLate t) (addWait t (.take bank l reg matrix)))

/-- TKV: take a stream-buffer line into a vector register (R49, R264). -/
def execTkv (t : TileId) (bank line : Nat) (ixen : Bool) (ix : Nat) (inc : Bool) (reg : Nat) (e : Ecc) (s : State) :
    Host.Outcome State Fault Refusal :=
  s.does (inBeat t (withLine t line ixen ix fun l => actAll [takeOrWait t bank l reg false e, ixInc t ixen inc ix]))

/-- TKM: take a stream-buffer line into an operand or scale register (R264). -/
def execTkm (t : TileId) (bank line : Nat) (ixen : Bool) (ix : Nat) (inc : Bool) (reg : Nat) (e : Ecc) (s : State) :
    Host.Outcome State Fault Refusal :=
  s.does (inBeat t (withLine t line ixen ix fun l => actAll [takeOrWait t bank l reg true e, ixInc t ixen inc ix]))

/-- STD: the drain output of set A or set B to a line, with its tag in the partial region (R117, R264). -/
def execStd (t : TileId) (bank line : Nat) (ixen : Bool) (ix : Nat) (inc : Bool) (set : Bool) (s : State) :
    Host.Outcome State Fault Refusal :=
  s.does (inBeat t (withLine t line ixen ix fun l => actAll [
    actGet (fun s => (s.tile t).set set) fun x => guardedStore t bank l x.out x.outTag,
    ixInc t ixen inc ix]))

/-- IXSET: an index register takes a literal of 9 bits (R47, R264). -/
def execIxset (t : TileId) (ix line : Nat) (s : State) : Host.Outcome State Fault Refusal :=
  s.does (inBeat t (addWrite t (.ix ix line)))

end Sys2Proof.Machine
end

