-- ==== Sys2Proof/Machine/Tree.lean ====
section
/-!
DEFINITION. The canonical tree and its tags (R98-R103, R117-R120), fused row statistics (R114, R115) and the Flowstone
accumulator (R58-R60): functions on values, before any tile uses them.
-/
namespace Sys2Proof.Machine

/-- D = ceil(log2 L) (R99). -/
def treeDepth (l : Nat) : Nat := if l ≤ 1 then 0 else bitLen (l - 1)

/-- Node number of node (level, j) (R100). -/
def nodeNum (level j : Nat) : Nat := 2 ^ (21 - level) + j

/-- Level of a node number (R100). -/
def nodeLevel (h : Nat) : Nat := 21 - (bitLen h - 1)

/-- Rounding mode code of an operation with its uniform (R82); 0b11 is refused at schedule load. -/
def rmodeOf (code u : Nat) : RMode := match code with | 0 => .rne | 1 => .rtz | _ => .sr u

/-- The keys of a tree (R102, R103): seed, key step, site, block number. -/
structure TreeKeys where
  seed : U128
  step : Nat
  site : Nat
  block : Nat
  deriving DecidableEq, Repr

/-- The uniform of a tree rounding at node number `h` and a lane (R102). -/
def TreeKeys.uniform (k : TreeKeys) (h ln : Nat) : Nat := srUniform k.seed k.step k.site 0 (treeKey k.block h ln)

/-- The mode of a leaf rounding (R104). -/
def leafMode (k : TreeKeys) (trm h ln : Nat) : RMode := if trm = 2 then .sr (k.uniform h ln) else .rne

/-- The mode of a node, combine or add-forward rounding (R104). -/
def nodeMode (k : TreeKeys) (trm h ln : Nat) : RMode := if trm = 0 then .rne else .sr (k.uniform h ln)

/-- Lane-wise results with the status bits of all lanes. -/
def joinLanes (rs : List (U32 × FpFlags)) : Line × FpFlags :=
  (ofLanes (rs.map Prod.fst), rs.foldl (fun a r => a.or r.2) {})

/-- A node: the sum of its children, rounded once (R99, R113). -/
def nodeSum (k : TreeKeys) (trm h : Nat) (a b : Line) : Line × FpFlags :=
  joinLanes ((List.range 16).map fun j => fadd (nodeMode k trm h j) (lane a j) (lane b j))

/-- The integer sums of two INT32 lines, modulo 2^32 (R56). -/
def intSum (a b : Line) : Line := ofLanes ((List.range 16).map fun j => lane a j + lane b j)

/-- Some lane of the integer sum passes the INT32 range (R56). -/
def intOvf (a b : Line) : Bool :=
  (List.range 16).any fun j =>
    let z := (lane a j).toInt + (lane b j).toInt
    decide (z < -(2 ^ 31) ∨ 2 ^ 31 ≤ z)

/-- An element written in a format (R87-R89).  A format that the manual defines no rounding into has its default NaN, 0xFF, for a NaN (R75,
R90), and an open function of the value for a number (notes/assumptions/13.md). -/
def elemWrite (fmt : Nat) (m : RMode) (sat : Bool) (v : FV) : Nat × FpFlags :=
  match fmtWrite fmt m sat v with
  | some r => r
  | none => match v with
    | .nan => (0xFF, {})
    | w => ((Config.openElem fmt m w).toNat, {})

/-! ### Tags (R117) -/

/-- The tag of a partial. -/
def mkTag (fast : Bool) (block h trm site : Nat) : U64 :=
  BitVec.ofNat 64 (b2n fast * 2 ^ 63 + (block % 2 ^ 21) * 2 ^ 42 + (h % 2 ^ 22) * 2 ^ 20 + (trm % 4) * 2 ^ 16 + site % 2 ^ 16)

def tagFast (g : U64) : Bool := g.getLsbD 63
def tagBlock (g : U64) : Nat := (g.toNat >>> 42) % 2 ^ 21
def tagNode (g : U64) : Nat := (g.toNat >>> 20) % 2 ^ 22
def tagTrm (g : U64) : Nat := (g.toNat >>> 16) % 4
def tagSite (g : U64) : Nat := g.toNat % 2 ^ 16

/-- The parent that two partials form, where R119 accepts them under the operation's rounding mode. -/
def combineParent (ga gb : U64) (trm : Nat) : Option Nat :=
  if !tagFast ga && !tagFast gb && tagSite ga = tagSite gb && tagBlock ga = tagBlock gb && tagTrm ga = tagTrm gb &&
      tagTrm ga = trm && tagNode ga / 2 = tagNode gb / 2 && tagNode ga ≠ tagNode gb && 2 ≤ tagNode ga
  then some (tagNode ga / 2) else none

/-- The parent that PASS retags a lone partial as, where R119 accepts it for a tree of `l` leaves. -/
def passParent (g : U64) (l : Nat) : Option Nat :=
  let h := tagNode g
  let lv := nodeLevel h
  let j := h - 2 ^ (21 - lv)
  if !tagFast g && h % 2 = 0 && 2 ≤ h && l ≤ (j + 1) * 2 ^ lv then some (h / 2) else none

/-- The tag with another node number. -/
def retag (g : U64) (h : Nat) : U64 := mkTag (tagFast g) (tagBlock g) h (tagTrm g) (tagSite g)

/-! ### Row statistics (R114, R115) -/

/-- FP32 operations that add to the status bits. -/
def stSub (a b : U32) (f : FpFlags) : U32 × FpFlags := let r := fsub .rne a b; (r.1, f.or r.2)
def stMul (a b : U32) (f : FpFlags) : U32 × FpFlags := let r := fmul .rne a b; (r.1, f.or r.2)
def stAdd (a b : U32) (f : FpFlags) : U32 × FpFlags := let r := fadd .rne a b; (r.1, f.or r.2)

/-- exp2(round(round(x − m) × c)). -/
def stExp (x m c : U32) (f : FpFlags) : U32 × FpFlags :=
  let d := stSub x m f
  let p := stMul d.1 c d.2
  let e := exp2 p.1
  (e.1, p.2.or e.2)

/-- The statistics leaf of one block row: `none` stands for an empty lane (R114, R115). -/
def statsLeaf (xs : List (Option U32)) (c : U32) : (U32 × U32) × FpFlags :=
  let ys := xs.filterMap id
  if ys.any isNan32 || isNan32 c || isInf32 c || decide (fkey c ≤ 0) then ((nan32, nan32), { inv := true })
  else if ys.any (fun y => y = pinf32) then ((pinf32, nan32), { inv := true })
  else
    let m := ys.foldl fmax ninf32
    if m = ninf32 then ((ninf32, 0#32), {})
    else
      let es := xs.foldl (fun (a : List U32 × FpFlags) x =>
        match x with
        | none => (a.1 ++ [0#32], a.2)
        | some v => let e := stExp v m c a.2; (a.1 ++ [e.1], e.2)) ([], {})
      let e := fun i => es.1.getD i 0#32
      let p := stAdd (e 0) (e 1) es.2
      let q := stAdd (e 2) (e 3) p.2
      let r := stAdd p.1 q.1 q.2
      ((m, r.1), r.2)

/-- stats_merge of R114 with the special rows of R115. -/
def statsMerge (l r : U32 × U32) (c : U32) : (U32 × U32) × FpFlags :=
  if isNan32 l.1 || isNan32 r.1 then ((nan32, nan32), {})
  else if l.1 = pinf32 ∨ r.1 = pinf32 then ((pinf32, nan32), {})
  else
    let m := fmax l.1 r.1
    if m = ninf32 then ((ninf32, 0#32), {})
    else
      let ea := stExp l.1 m c {}
      let a := stMul l.2 ea.1 ea.2
      let eb := stExp r.1 m c a.2
      let b := stMul r.2 eb.1 eb.2
      let z := stAdd a.1 b.1 b.2
      ((m, z.1), z.2)

/-- Four (m, s) pairs as a line: those of block row i in lanes 2i and 2i + 1, +0 above. -/
def statLine (ps : List (U32 × U32)) : Line := ofLanes (ps.flatMap fun p => [p.1, p.2])

/-- The pair of block row i in a statistics line. -/
def statPair (l : Line) (i : Nat) : U32 × U32 := (lane l (2 * i), lane l (2 * i + 1))

/-- Lane-wise statistics results joined. -/
def joinStats (rs : List ((U32 × U32) × FpFlags)) : Line × FpFlags :=
  (statLine (rs.map Prod.fst), rs.foldl (fun a r => a.or r.2) {})

/-- The statistics leaf line of a converted block at block column `col` of a row of `n` columns. -/
def statsLeafLine (xs : List U32) (col n : Nat) (c : U32) : Line × FpFlags :=
  joinStats ((List.range 4).map fun i =>
    statsLeaf ((List.range 4).map fun k => if 4 * col + k < n then some (xs.getD (4 * i + k) 0#32) else none) c)

/-- Two statistics lines merged. -/
def statsMergeLine (l r : Line) (c : U32) : Line × FpFlags :=
  joinStats ((List.range 4).map fun i => statsMerge (statPair l i) (statPair r i) c)

/-! ### Flowstone (R58-R60) -/

/-- Magnitude at which the running value leaves the register: 2^170 in units of 2^-149 (R60). -/
def flowLimit : Int := 2 ^ 319

/-- One addend (R58-R60). -/
def Flow.add (f : Flow) (x : U32) : Flow :=
  let g := { f with count := f.count + 1 }
  match f32v x with
  | .nan => { g with nan := true }
  | .inf neg => if neg then { g with ninf := true, infIn := true } else { g with pinf := true, infIn := true }
  | .fin neg m e =>
    let a : Int := alignTo m e (-149)
    let z := if neg then f.val - a else f.val + a
    if z ≥ flowLimit then { g with pinf := true }
    else if z ≤ -flowLimit then { g with ninf := true }
    else { g with val := z }

/-- What a read returns (R58, R59), with FP_OVF for an infinity that finite addends reach (R93) and FP_INVALID for infinities of both signs
(R91). -/
def Flow.read (f : Flow) : U32 × FpFlags :=
  if f.nan || (f.pinf && f.ninf) then (nan32, { inv := f.pinf && f.ninf })
  else if f.pinf then (pinf32, { ovf := !f.infIn })
  else if f.ninf then (ninf32, { ovf := !f.infIn })
  else if f.val = 0 then (0#32, {})
  else toF32 .rne (.fin (decide (f.val < 0)) f.val.natAbs (-149))

end Sys2Proof.Machine
end

