-- ==== Sys2Proof/Machine/Mx.lean ====
section
/-!
DEFINITION. The commands of the MX slot: leaves, tree nodes, drains, parking (R52-R56, R98-R117, R260, R262, R467).
-/
namespace Sys2Proof.Machine

/-! ### Leaves -/

/-- Row i of A, or column j of B, in a half of an operand register: 8 bytes (R467). -/
def halfRow (v : Line) (high : Bool) (i : Nat) : Nat := (v.toNat >>> (256 * b2n high + 64 * i)) % 2 ^ 64

/-- Element κ of a row, with `bits` bits per element (R467). -/
def rowElem (row bits k : Nat) : Nat := (row >>> (bits * k)) % 2 ^ bits

/-- Products per lane that one half gives (R52, R467). -/
def halfLen (fmt : Nat) : Nat := match fmtBits fmt with | 4 => 16 | 16 => 4 | _ => 8

/-- One more product, with whether it is an invalid operation.  What the sum says does not depend on the order of its products. -/
def Acc.add (a : Acc) (p : FV × Bool) : Acc :=
  let b := { a with inv := a.inv || p.2 }
  match p.1 with
  | .nan => { b with nan := true }
  | .inf neg => if neg then { b with ninf := true } else { b with pinf := true }
  | v => { b with sum := (FV.add a.sum v).1 }

/-- The exact sum, and whether it is an invalid operation (R91, R92): infinities of both signs are one, also beside a NaN
(DESIGN CHOICE: notes/assumptions/64.md). -/
def Acc.total (a : Acc) : FV × Bool :=
  (if a.nan || (a.pinf && a.ninf) then .nan else if a.pinf then .inf false else if a.ninf then .inf true else a.sum, a.inv || (a.pinf && a.ninf))

/-- The E8M0 scale in byte `i` of a scale register (R54, R77). -/
def scaleOf (v : Line) (i : Nat) : FV := (fmtValue 6 (lineByte v i).toNat).getD .nan

/-- The operands of a leaf operation. -/
structure LeafIn where
  a : Line
  ahi : Bool
  b : Line
  bhi : Bool
  sa : Line
  sb : Line
  deriving DecidableEq, Repr

/-- The exact product at K position κ for lane (i, j), both shared scales included in MXFP4 (R53). -/
def product (fa fb : Nat) (x : LeafIn) (i j k : Nat) : FV × Bool :=
  let va := (fmtValue fa (rowElem (halfRow x.a x.ahi i) (fmtBits fa) k)).getD .nan
  let vb := (fmtValue fb (rowElem (halfRow x.b x.bhi j) (fmtBits fb) k)).getD .nan
  let p := FV.mul va vb
  if fa = 5 then
    let q := FV.mul p.1 (scaleOf x.sa i)
    let r := FV.mul q.1 (scaleOf x.sb j)
    (r.1, p.2 || q.2 || r.2)
  else p

/-- The sum over K positions lo to hi − 1 of lane `ln`, added to `acc` (R53). -/
def lanePartial (fa fb : Nat) (x : LeafIn) (lo hi ln : Nat) (acc : Acc) : Acc :=
  ((List.range (hi - lo)).map fun k => product fa fb x (ln / 4) (ln % 4) (lo + k)).foldl Acc.add acc

/-- A leaf value: the exact sum rounded once, +0 for a zero sum (R53, R94). -/
def roundLeaf (m : RMode) (a : Acc) : U32 × FpFlags :=
  let z := a.total
  match z.1 with
  | .fin _ 0 _ => (0#32, { inv := z.2 })
  | v => let r := toF32 m v; (r.1, r.2.or { inv := z.2 })

/-- The exact INT8 sum of lane `ln` (R56). -/
def intLeaf (x : LeafIn) (ln : Nat) : Int :=
  ((List.range 8).map fun k =>
    sext 8 (rowElem (halfRow x.a x.ahi (ln / 4)) 8 k) * sext 8 (rowElem (halfRow x.b x.bhi (ln % 4)) 8 k)).foldl (· + ·) 0

/-- Two's complement value modulo 2^32 (R56). -/
def wrap32 (v : Int) : Int := sext 32 (wrapInt 32 v)

/-! ### Nodes -/

/-- Keys of the tree that a set holds (R102, R103): the seed is the one that the slot holds in the beat of the rounding
(DESIGN CHOICE: notes/assumptions/64.md). -/
def setKeys (τ : Tile) (x : AccSet) : TreeKeys :=
  { seed := τ.seed x.td.keyslot, step := x.keyStep, site := x.td.site, block := x.block }

/-- The tree ends in the node at SPLIT_LEVEL for a SPLIT part (R117), else in the root (R99). -/
def topLevel (d : TreeDesc) : Nat := if d.split && !d.fast then d.splitLevel else treeDepth d.leaves

/-- The last leaf position that the tree or its part holds (R99, R468). -/
def lastLeaf (d : TreeDesc) : Nat :=
  if d.split && !d.fast then min d.leaves ((d.firstLeaf / 2 ^ d.splitLevel + 1) * 2 ^ d.splitLevel) - 1
  else d.leaves - 1

/-- Change a set. -/
def modSet (t : TileId) (b : Bool) (f : AccSet → AccSet) : Act := modTile t fun τ => τ.putSet b (f (τ.set b))

/-- A node of the set's tree has its value in beat `now`: it is the top, or its parent is due one beat later, or it becomes
pending (R99, R106, R107). -/
def nodeDone (t : TileId) (b : Bool) (now level idx : Nat) (v : Line) : Act :=
  actGet (fun s => (s.tile t).set b) fun x =>
    if level = topLevel x.td then modSet t b fun y => { y with root := some (level, v) }
    else if idx % 2 = 1 then
      modSet t b fun y => { y with jobs := y.jobs ++ [{
        due := now + 1, level := level + 1, idx := idx / 2, right := v, pass := false,
        left := if level ≤ 3 then some (tget y.part 0 level) else none }] }
    else if lastLeaf x.td / 2 ^ level = idx then
      modSet t b fun y => { y with jobs := y.jobs ++ [{
        due := now + 1, level := level + 1, idx := idx / 2, right := v, pass := true, left := none }] }
    else if level ≤ 3 then modSet t b fun y => { y with part := tset y.part level v }
    else storeLine t x.td.stackBank (x.td.stackLine + (level - 4)) v

/-- One node is formed in beat `now` (R99, R102, R107, R113). -/
def formNode (t : TileId) (b : Bool) (now : Nat) (j : NodeJob) : Act :=
  actGet (fun s => s.tile t) fun τ =>
    let x := τ.set b
    if j.pass then nodeDone t b now j.level j.idx j.right
    else
      let add := fun (l : Line) =>
        let r := nodeSum (setKeys τ x) x.td.trm (nodeNum j.level j.idx) l j.right
        actAll [tileFp t r.2, nodeDone t b now j.level j.idx r.1]
      match j.left with
      | some l => add l
      | none => readWords t x.td.stackBank (x.td.stackLine + (j.level - 5)) 255 add

/-- Every node of a set that is due by beat `due` is formed in beat `now`. -/
def formDue (t : TileId) (b : Bool) (due now : Nat) : Act :=
  actGet (fun s => ((s.tile t).set b).jobs.filter fun j => j.due ≤ due) fun js =>
    actAll [modSet t b fun x => { x with jobs := x.jobs.filter fun j => !(j.due ≤ due) }, actEach js (formNode t b now)]

/-- The nodes of a set that are due in the current beat (R107). -/
def nodesDue (t : TileId) (b : Bool) : Act := actGet (fun s => (s.tile t).beat) fun n => formDue t b n n

/-- Every node still to come of a set, level by level (R108: a parked tree is complete but for its pending partials). -/
def finishNodes (t : TileId) (b : Bool) : Nat → Nat → Act
  | 0, _ => actNop
  | k + 1, n => actSeq (formDue t b n n) (finishNodes t b k (n + 1))

/-! ### Leaves into a set -/

/-- Open a tree in a set: the descriptor is recorded, the leaf counter takes FIRST_LEAF, and B comes from the CGX register
(R101, R103, R262). -/
def openTree (t : TileId) (b : Bool) (td bx : Nat) : Act :=
  actGet id fun s =>
    let τ := s.tile t
    let d := tdOf τ td
    modSet t b fun x => {
      isOpen := true, tdIx := td, td := d, block := τ.cgxreg bx, keyStep := (siteOf s d.site).keyStep, next := d.firstLeaf,
      part := [], half := none, int := List.replicate 16 0, jobs := [], root := none, drain := none,
      out := x.out, outTag := x.outTag }

/-- A leaf value takes the next position of its tree (R262). -/
def feedLeaf (t : TileId) (b : Bool) (v : Line) : Act :=
  actGet (fun s => (s.tile t).beat) fun now => actGet (fun s => (s.tile t).set b) fun x =>
    actAll [modSet t b fun y => { y with next := y.next + 1 }, nodeDone t b now 0 x.next v]

/-- The preload leaf: the manual does not say where the tile takes the element's preload value from, so it is an open function of the tile's
vector and operand registers (R116, notes/assumptions/15.md).  It takes position FIRST_LEAF; an INT8 tree, which has no floating-point
leaves, takes none (DESIGN CHOICE: notes/assumptions/64.md). -/
def preloadLeaf (t : TileId) (b : Bool) : Act :=
  actWhen (fun s => ((s.tile t).set b).td.preload)
    (actIf (fun s => decide (((s.tile t).set b).td.fmtA = 7)) (modSet t b fun x => { x with next := x.next + 1 })
      (actGet (fun s => s.tile t) fun τ => feedLeaf t b (Config.preload τ.vr τ.mo (τ.set b).tdIx)))

/-- The floating-point leaf from the sums of its 16 lanes (R53, R102). -/
def fpLeaf (t : TileId) (b : Bool) (as : List Acc) : Act :=
  actGet (fun s => s.tile t) fun τ =>
    let x := τ.set b
    let h := nodeNum 0 x.next
    let r := joinLanes (as.mapIdx fun j a => roundLeaf (leafMode (setKeys τ x) x.td.trm h j) a)
    actAll [tileFp t r.2, feedLeaf t b r.1]

/-- The integer leaf: exact sums, which wrap modulo 2^32 and then set INT_OVF (R56). -/
def intLeafInto (t : TileId) (b : Bool) (x : LeafIn) : Act :=
  actGet (fun s => ((s.tile t).set b).int) fun acc =>
    let zs := (List.range 16).map fun j => acc.getD j 0 + intLeaf x j
    actAll [
      modSet t b fun y => { y with int := zs.map wrap32, next := y.next + 1 },
      actOn (zs.any fun z => wrap32 z ≠ z) (tileErr t F.tileErr_INT_OVF)]

/-- One LEAF operation on the operands of a half (R52, R53, R56, R467): one leaf, two in MXFP4, half a leaf in BF16 and
FP16. -/
def leafOp (t : TileId) (b : Bool) (x : LeafIn) : Act :=
  actGet (fun s => (s.tile t).set b) fun y =>
    let fa := y.td.fmtA
    let fb := y.td.fmtB
    let sums := fun lo hi => (List.range 16).map fun j => lanePartial fa fb x lo hi j {}
    if fa = 7 then intLeafInto t b x
    else if halfLen fa = 16 then actAll [fpLeaf t b (sums 0 8), fpLeaf t b (sums 8 16)]
    else if halfLen fa = 4 then
      match y.half with
      | none => modSet t b fun z => { z with half := some (sums 0 4) }
      | some hs => actAll [
          modSet t b fun z => { z with half := none },
          fpLeaf t b ((List.range 16).map fun j => lanePartial fa fb x 0 4 j (hs.getD j {}))]
    else fpLeaf t b (sums 0 8)

/-! ### Drains -/

/-- Start the drain of a set's tree (R55, R109). -/
def startDrain (t : TileId) (b stats : Bool) : Act :=
  actGet (fun s => (s.tile t).beat) fun n =>
    modSet t b fun x => if x.isOpen && x.drain.isNone then { x with drain := some { stats, issued := n } } else x

/-- Elements packed into a line: element j at byte j × n, the even one of a byte in its low bits (R74). -/
def packElems (bits : Nat) (xs : List Nat) : Line :=
  BitVec.ofNat 512 (xs.foldr (fun x a => a * 2 ^ bits + x % 2 ^ bits) 0)

/-- The uniform of a drain rounding: h = 0 (R102, R113). -/
def drainUniform (k : TreeKeys) (rmode ln : Nat) : Nat := if rmode = 2 then k.uniform 0 ln else 0

/-- A root lane converted to the output format (R87-R89, R113). -/
def drainElem (k : TreeKeys) (d : TreeDesc) (ln : Nat) (v : FV) : Nat × FpFlags :=
  elemWrite d.outFmt (rmodeOf d.rmode (drainUniform k d.rmode ln)) d.sat v

/-- An element of the output format taken back to FP32, exactly (R88, R114). -/
def backToF32 (fmt b : Nat) : U32 := (toF32 .rne ((fmtValue fmt b).getD .nan)).1

/-- A statistics node has its value in beat `now` (R114): the last one writes STAT_VREG; a left child waits in its stack
line; others form their parent one beat later. -/
def statDone (t : TileId) (now tdIx : Nat) (d : TreeDesc) (level idx : Nat) (v : Line) : Act :=
  let ls := ceilDiv d.nOut 4
  if level = treeDepth ls then addWrite t (.vec d.statVreg v none)
  else if idx % 2 = 1 then
    modTile t fun τ => { τ with statq := τ.statq ++ [{ due := now + 1, tdIx, td := d, level := level + 1, idx := idx / 2, right := v, pass := false }] }
  else if (ls - 1) / 2 ^ level = idx then
    modTile t fun τ => { τ with statq := τ.statq ++ [{ due := now + 1, tdIx, td := d, level := level + 1, idx := idx / 2, right := v, pass := true }] }
  else storeLine t d.stackBank (d.statsLine + level) v

/-- One statistics node is formed (R114). -/
def formStat (t : TileId) (now : Nat) (j : StatJob) : Act :=
  if j.pass then statDone t now j.tdIx j.td j.level j.idx j.right
  else readWords t j.td.stackBank (j.td.statsLine + (j.level - 1)) 255 fun l =>
    let r := statsMergeLine l j.right j.td.c
    actAll [tileFp t r.2, statDone t now j.tdIx j.td j.level j.idx r.1]

/-- The statistics nodes that are due in the current beat. -/
def statsDue (t : TileId) : Act :=
  actGet (fun s => (s.tile t).beat) fun n => actGet (fun s => (s.tile t).statq.filter fun j => j.due ≤ n) fun js =>
    actAll [modTile t fun τ => { τ with statq := τ.statq.filter fun j => !(j.due ≤ n) }, actEach js (formStat t n)]

/-- The drained node as a partial line with its tag (R117, R121). -/
def splitOut (x : AccSet) (level : Nat) : U64 :=
  mkTag x.td.fast x.block (nodeNum level (if x.td.fast then 0 else x.td.firstLeaf / 2 ^ level)) x.td.trm x.td.site

/-- The lanes of a set's root as exact values: INT8 sums, or FP32 (R56, R113). -/
def rootVals (x : AccSet) (v : Line) : List FV :=
  if x.td.fmtA = 7 then x.int.map fun z => .fin (decide (z < 0)) z.natAbs 0
  else (lanes v).map f32v

/-- The set's value as a line of 32-bit words: INT32 sums, or FP32. -/
def rootLine (x : AccSet) (v : Line) : Line :=
  if x.td.fmtA = 7 then ofLanes (x.int.map fun z => BitVec.ofNat 32 (wrapInt 32 z)) else v

/-- The drain of a set converts its root (R113), or writes its partial (R117); with STATS it forms the statistics leaf of
the block (R114).  The set is free for a new tree.  DESIGN CHOICE (notes/assumptions/64.md): a drain that comes later than the bundle after
the last leaf converts D beats after its issue, and a descriptor with FAST alone writes a partial like one with SPLIT. -/
def drainConvert (t : TileId) (b : Bool) : Act :=
  actGet (fun s => s.tile t) fun τ =>
    let x := τ.set b
    match x.drain with
    | none => actNop
    | some dr =>
      let d := x.td
      let root := match x.root with
        | some r => some r
        | none => if d.fmtA = 7 then some (topLevel d, 0) else none
      match root with
      | none => actNop
      | some (lv, v) =>
        if τ.beat < dr.issued + topLevel d then actNop
        else
          let free := modSet t b fun y => { out := y.out, outTag := y.outTag }
          if d.split || d.fast then actAll [addWrite t (.drain b (rootLine x v) (some (splitOut x lv))), free]
          else
            let rs := (rootVals x v).mapIdx fun j w => drainElem (setKeys τ x) d j w
            let fl := rs.foldl (fun a r => FpFlags.or a r.2) {}
            actAll [
              addWrite t (.drain b (packElems (fmtBits d.outFmt) (rs.map Prod.fst)) none),
              tileFp t fl,
              free,
              actOn dr.stats
                (let col := x.block % ceilDiv d.nOut 4
                 let st := statsLeafLine (rs.map fun r => backToF32 d.outFmt r.1) col d.nOut d.c
                 actAll [tileFp t st.2, statDone t τ.beat x.tdIx d 0 col st.1])]

/-! ### Commands -/

/-- LEAF (R262): at OPEN the set records its descriptor and B; the leaf takes the next position; DRO drains the opposite
set in the same beat. -/
def execLeaf (t : TileId) (set : Bool) (td areg : Nat) (ahi : Bool) (breg : Nat) (bhi opn : Bool) (bx : Nat)
    (bxinc dro dstats : Bool) (s : State) : Host.Outcome State Fault Refusal :=
  s.does (inBeat t (actAll [
    actOn opn (actAll [
      openTree t set td bx,
      actOn bxinc (addWrite t (.cgxInc bx 1)),
      preloadLeaf t set]),
    modTile t fun τ => { τ with accSel := set },
    actGet (fun s => s.tile t) fun τ =>
      leafOp t set { a := τ.moreg areg, ahi, b := τ.moreg breg, bhi, sa := τ.moreg 8, sb := τ.moreg 9 },
    actOn dro (startDrain t (!set) dstats)]))

/-- The nodes of a set that are due in this beat form (R99, R107); `hits` names wrong bits that have come into scratchpad lines of the tile
(R50), for the lines that no LS slot reads: stacks and tags. -/
def execTreeNodeForm (t : TileId) (n : NodeBeat) (s : State) : Host.Outcome State Fault Refusal :=
  s.does (inBeat t (actSeq (actEach n.hits fun h => hitLine t h.1 h.2.1 h.2.2) (nodesDue t n.set)))

/-- DRAIN: start the drain of a set's tree by the descriptor that the set recorded (R109, R262). -/
def execDrain (t : TileId) (set stats : Bool) (s : State) : Host.Outcome State Fault Refusal :=
  s.does (inBeat t (startDrain t set stats))

/-- The drain's conversion beat (R109, R113). -/
def execDrainConvert (t : TileId) (set : Bool) (s : State) : Host.Outcome State Fault Refusal :=
  s.does (inBeat t (actAll [nodesDue t set, drainConvert t set]))

/-- PARK: the set's partial registers to lines base + 17 to base + 20 of its stack region (R108).  The four line writes are
one effect here (notes/assumptions/16.md).  The region is that of the recorded descriptor, and the TD field names the parked tree for RESUME
(DESIGN CHOICE: notes/assumptions/64.md). -/
def execPark (t : TileId) (set : Bool) (td : Nat) (s : State) : Host.Outcome State Fault Refusal :=
  s.does (inBeat t (actSeq (actGet (fun s => (s.tile t).beat) fun n => finishNodes t set 22 n)
    (actGet (fun s => (s.tile t).set set) fun x => actAll [
      actEach (List.range 4) fun l => storeLine t x.td.stackBank (x.td.stackLine + 17 + l) (tget x.part 0 l),
      modTile t fun τ => { (τ.putSet set { out := x.out, outTag := x.outTag }) with
        parked := tset τ.parked td { x with part := [] } }])))

/-- RESUME: a parked tree back into a set, its partial registers read from its stack region (R108). -/
def execResume (t : TileId) (set : Bool) (td : Nat) (s : State) : Host.Outcome State Fault Refusal :=
  s.does (inBeat t (actGet (fun s => tfind (s.tile t).parked td) fun o => actOpt o fun x =>
    actSeq
      (modTile t fun τ => { (τ.putSet set { x with part := [], out := (τ.set set).out, outTag := (τ.set set).outTag }) with
        parked := tdel τ.parked td })
      (actEach (List.range 4) fun l => readWords t x.td.stackBank (x.td.stackLine + 17 + l) 255 fun v =>
        modSet t set fun y => { y with part := tset y.part l v })))

end Sys2Proof.Machine
end

