-- ==== Sys2Proof/Machine/Vx.lean ====
section
/-!
DEFINITION. The commands of the VX slot: vector arithmetic, conversions, combines of partials, Flowstone and row statistics
(R57-R60, R76-R97, R114, R119, R263).  A result is seen from the next beat on (R48).
-/
namespace Sys2Proof.Machine

/-- The value in the low bits of a lane, in the operation's format (notes/assumptions/12.md). -/
def laneVal (fmt : Nat) (l : Line) (j : Nat) : FV := (fmtValue fmt ((lane l j).toNat % 2 ^ fmtBits fmt)).getD .nan

/-- The uniform of a stochastic rounding in a lane of a vector operation (R63, R86): the core draws it, and which slot, site, stream and
element it is keyed by is open, since the operation names none (notes/assumptions/13.md). -/
def vxUniform (τ : Tile) (t : TileId) (ln : Nat) : Nat :=
  let c := Config.vxKey t τ.beat ln
  srUniform (τ.seed (c.slot % 4)) τ.step c.site c.strm c.elem

/-- The mode of a lane's rounding in a vector operation (R82, R83). -/
def vxMode (τ : Tile) (t : TileId) (rmode ln : Nat) : RMode := rmodeOf rmode (if rmode = 2 then vxUniform τ t ln else 0)

/-- A vector result with its status bits. -/
def vxResult (t : TileId) (vd : Nat) (tag : Option U64) (r : Line × FpFlags) : Act :=
  actAll [addWrite t (.vec vd r.1 tag), tileFp t r.2]

/-- A lane-wise operation that rounds: the exact value of each lane, and whether it is an invalid operation. -/
def vxLanes (t : TileId) (vd rmode fmt : Nat) (sat : Bool) (f : Tile → Nat → FV × Bool) : Act :=
  inBeat t (actGet (fun s => s.tile t) fun τ =>
    vxResult t vd none (joinLanes ((List.range 16).map fun j =>
      let x := f τ j
      let r := elemWrite fmt (vxMode τ t rmode j) sat x.1
      (BitVec.ofNat 32 r.1, r.2.or { inv := x.2 }))))

/-- A lane-wise operation on bits. -/
def vxBits (t : TileId) (vd : Nat) (f : Tile → Nat → U32 × FpFlags) : Act :=
  inBeat t (actGet (fun s => s.tile t) fun τ => vxResult t vd none (joinLanes ((List.range 16).map (f τ))))

/-- Order of two values: 0 below, 1 equal, 2 above, 3 unordered; the two zeros are equal. -/
def fvRel (a b : FV) : Nat :=
  match a, b with
  | .nan, _ => 3
  | _, .nan => 3
  | .inf x, .inf y => if x = y then 1 else if x then 0 else 2
  | _, _ =>
    match (FV.add a b.neg).1 with
    | .fin neg m _ => if m = 0 then 1 else if neg then 0 else 2
    | .inf neg => if neg then 0 else 2
    | .nan => 3

/-- A value is negative or −0. -/
def fvNeg : FV → Bool
  | .nan => false
  | .inf n => n
  | .fin n _ _ => n

/-- MAX (`top`) or MIN of two lanes, −0 below +0, the default NaN with a NaN operand (R90). -/
def vmaxmin (top : Bool) (fmt : Nat) (x y : Line) (j : Nat) : U32 × FpFlags :=
  let a := laneVal fmt x j
  let b := laneVal fmt y j
  let bits := fun (l : Line) => BitVec.ofNat 32 ((lane l j).toNat % 2 ^ fmtBits fmt)
  match fvRel a b with
  | 0 => (if top then bits y else bits x, {})
  | 2 => (if top then bits x else bits y, {})
  | 1 => (if fvNeg a = top then bits y else bits x, {})
  | _ => let r := elemWrite fmt .rne false .nan; (BitVec.ofNat 32 r.1, r.2)

/-- VD = VA + VB, rounded once (R84, R263). -/
def execVadd (t : TileId) (vd va vb rmode fmt : Nat) (s : State) : Host.Outcome State Fault Refusal :=
  s.does (vxLanes t vd rmode fmt false fun τ j => FV.add (laneVal fmt (τ.vreg va) j) (laneVal fmt (τ.vreg vb) j))

/-- VD = VA − VB, rounded once (R84, R263). -/
def execVsub (t : TileId) (vd va vb rmode fmt : Nat) (s : State) : Host.Outcome State Fault Refusal :=
  s.does (vxLanes t vd rmode fmt false fun τ j => FV.add (laneVal fmt (τ.vreg va) j) (laneVal fmt (τ.vreg vb) j).neg)

/-- VD = VA × VB, rounded once (R84, R263). -/
def execVmul (t : TileId) (vd va vb rmode fmt : Nat) (s : State) : Host.Outcome State Fault Refusal :=
  s.does (vxLanes t vd rmode fmt false fun τ j => FV.mul (laneVal fmt (τ.vreg va) j) (laneVal fmt (τ.vreg vb) j))

/-- VD = VA × VB + VC, one rounding (R84, R91, R263). -/
def execVfma (t : TileId) (vd va vb vc rmode fmt : Nat) (s : State) : Host.Outcome State Fault Refusal :=
  s.does (vxLanes t vd rmode fmt false fun τ j =>
    let p := FV.mul (laneVal fmt (τ.vreg va) j) (laneVal fmt (τ.vreg vb) j)
    let z := FV.add p.1 (laneVal fmt (τ.vreg vc) j)
    (z.1, p.2 || z.2))

/-- VD = the lane maximum, −0 below +0 (R90). -/
def execVmax (t : TileId) (vd va vb fmt : Nat) (s : State) : Host.Outcome State Fault Refusal :=
  s.does (vxBits t vd fun τ j => vmaxmin true fmt (τ.vreg va) (τ.vreg vb) j)

/-- VD = the lane minimum, −0 below +0 (R90). -/
def execVmin (t : TileId) (vd va vb fmt : Nat) (s : State) : Host.Outcome State Fault Refusal :=
  s.does (vxBits t vd fun τ j => vmaxmin false fmt (τ.vreg va) (τ.vreg vb) j)

/-- The predicate into mask register VD (R263); what its codes mean is open (notes/assumptions/11.md). -/
def execVcmp (t : TileId) (vd va vb pred fmt : Nat) (s : State) : Host.Outcome State Fault Refusal :=
  s.does (inBeat t (actGet (fun s => s.tile t) fun τ =>
    addWrite t (.mask vd (BitVec.ofNat 16 ((List.range 16).foldl (fun a j =>
      a + b2n (Config.vcmp pred (fvRel (laneVal fmt (τ.vreg va) j) (laneVal fmt (τ.vreg vb) j))) * 2 ^ j) 0)))))

/-- VD = mask VC ? VA : VB (R263). -/
def execVsel (t : TileId) (vd va vb vc : Nat) (s : State) : Host.Outcome State Fault Refusal :=
  s.does (vxBits t vd fun τ j => (if (τ.maskreg vc).getLsbD j then lane (τ.vreg va) j else lane (τ.vreg vb) j, {}))

/-- VD = VA converted from format VC[3:0] to FMT, rounded once by RMODE (R88, R89, R263). -/
def execVcvt (t : TileId) (vd va src fmt rmode : Nat) (sat : Bool) (s : State) : Host.Outcome State Fault Refusal :=
  s.does (vxLanes t vd rmode fmt sat fun τ j => (laneVal src (τ.vreg va) j, false))

/-- VA and VA + 1 quantised into one MX block (R79); the layout of the result is open (notes/assumptions/11.md). -/
def execVqmx (t : TileId) (vd va rmode : Nat) (s : State) : Host.Outcome State Fault Refusal :=
  s.does (inBeat t (actGet (fun s => s.tile t) fun τ =>
    let q := mxQuantise (lanes (τ.vreg va) ++ lanes (τ.vreg (va + 1))) (vxMode τ t rmode)
    vxResult t vd none (Config.vqmxLayout q.1 q.2, {})))

/-- VD = 2^VA by the function of R96. -/
def execExp2 (t : TileId) (vd va : Nat) (s : State) : Host.Outcome State Fault Refusal :=
  s.does (vxBits t vd fun τ j => exp2 (lane (τ.vreg va) j))

/-- The trees of a site hold INT8 sums: a tree descriptor of the job names the site with INT8 operands (R56, R260;
notes/assumptions/14.md). -/
def siteInt (s : State) (site : Nat) : Bool :=
  s.job.img.recs.any fun r => r.tds.any fun d => d.site = site && d.fmtA = 7

/-- The parent of two partials with its tag and status bits, or none where R119 refuses them. -/
def combineLines (s : State) (seed : U128) (trm : Nat) (a : Line) (ga : U64) (b : Line) (gb : U64) :
    Option (Line × U64 × FpFlags × Bool) :=
  (combineParent ga gb trm).map fun q =>
    let site := tagSite ga
    let k : TreeKeys := { seed, step := (siteOf s site).keyStep, site, block := tagBlock ga }
    if siteInt s site then (intSum a b, retag ga q, {}, intOvf a b)
    else
      let r := nodeSum k trm q a b
      (r.1, retag ga q, r.2, false)

/-- COMBINE: the parent of two sibling partials, or NODE_MISMATCH (R119). -/
def execCombine (t : TileId) (vd va vb trm slot : Nat) (s : State) : Host.Outcome State Fault Refusal :=
  s.does (inBeat t (actGet id fun s =>
    let τ := s.tile t
    match combineLines s (τ.seed slot) trm (τ.vreg va) ((τ.tag va).getD 0) (τ.vreg vb) ((τ.tag vb).getD 0) with
    | none => tileFault t F.tileErr_NODE_MISMATCH
    | some (v, g, fl, ov) => actAll [vxResult t vd (some g) (v, fl), actOn ov (tileErr t F.tileErr_INT_OVF)]))

/-- PASS: a lone canonical partial retagged as its parent, or NODE_MISMATCH (R119); `l` is the L that the operation
carries. -/
def execPass (t : TileId) (vd va l : Nat) (s : State) : Host.Outcome State Fault Refusal :=
  s.does (inBeat t (actGet (fun s => s.tile t) fun τ =>
    match passParent ((τ.tag va).getD 0) l with
    | none => tileFault t F.tileErr_NODE_MISMATCH
    | some q => addWrite t (.vec vd (τ.vreg va) (some (retag ((τ.tag va).getD 0) q)))))

/-- One lane of VA into Flowstone; the 65,537th addend sets FS_LIMIT (R58-R60). -/
def execFsAdd (t : TileId) (va ln : Nat) (s : State) : Host.Outcome State Fault Refusal :=
  s.does (inBeat t (actAll [
    modTile t fun τ => { τ with fs := τ.fs.add (lane (τ.vreg va) ln) },
    actWhen (fun s => decide (65536 < (s.tile t).fs.count)) (tileErr t F.tileErr_FS_LIMIT)]))

/-- Flowstone rounded once by RNE into a lane of VD (R58, R59). -/
def fsRead (t : TileId) (vd ln : Nat) : Act :=
  actGet (fun s => (s.tile t).fs.read) fun r => actAll [addWrite t (.lane vd ln r.1), tileFp t r.2]

/-- Flowstone emptied, its flags reset (R58, R59). -/
def fsClear (t : TileId) : Act := modTile t fun τ => { τ with fs := {} }

def execFsRead (t : TileId) (vd ln : Nat) (s : State) : Host.Outcome State Fault Refusal :=
  s.does (inBeat t (fsRead t vd ln))

def execFsClr (t : TileId) (s : State) : Host.Outcome State Fault Refusal := s.does (inBeat t (fsClear t))

/-- Read and clear in one beat (R58, R263). -/
def execFsRdclr (t : TileId) (vd ln : Nat) (s : State) : Host.Outcome State Fault Refusal :=
  s.does (inBeat t (actSeq (fsRead t vd ln) (fsClear t)))

/-- The descriptor with STATS of a tag's site, with its index in the tile's record. -/
def statsTd (τ : Tile) (g : U64) : Option (TreeDesc × Nat) := τ.trec.tds.zipIdx.find? fun p => p.1.stats && decide (p.1.site = tagSite g)

/-- Row statistics of the final output of a split tree (R114, R115, R122): the block in VA, whose tag names its site and block number, forms
the leaf of its block column in the canonical statistics tree of the tile's descriptor with STATS at that site; the last column's operation
writes the root to VD.  A block without such a descriptor is a row of its own, at an open scale (DESIGN CHOICE:
notes/assumptions/11.md). -/
def execStatsFin (t : TileId) (vd va vb : Nat) (s : State) : Host.Outcome State Fault Refusal :=
  s.does (inBeat t (actGet (fun s => s.tile t) fun τ =>
    match (τ.tag va).bind fun g => (statsTd τ g).map fun p => (g, p) with
    | some (g, d, i) =>
      let col := tagBlock g % ceilDiv d.nOut 4
      let st := statsLeafLine (lanes (τ.vreg va)) col d.nOut d.c
      actSeq (tileFp t st.2) (statDone t τ.beat i { d with statVreg := vd } 0 col st.1)
    | none => vxResult t vd none (statsLeafLine (lanes (τ.vreg va)) 0 4 (Config.statsScale (τ.vreg vb)))))

end Sys2Proof.Machine
end

