-- ==== Sys2Proof/Machine/NwOps.lean ====
section
/-!
DEFINITION. Moves of the bulk network: neighbours, flits, and the four moves of an NW slot (R67-R69, R120, R222-R227, R265).
Ports: 0 N, 1 E, 2 S, 3 W, 4 L.
-/
namespace Sys2Proof.Machine

/-- The last logical row: 13 where the effective grade is B, else 15 (R39, R222). -/
def lastRow (s : State) : Nat := if s.flag .glbStatus F.glbStatus_GRADE_EFF then 13 else 15

/-- Where a flit that leaves a port arrives: a tile and its port, the IOD, or nowhere; with the die-to-die link it crosses
(R222, R248). -/
inductive Hop where
  | tile (t : TileId) (port : Nat) (cross : Option (DieId × BitVec 2))
  | iod (d : DieId)
  | none
  deriving DecidableEq, Repr

/-- The neighbour behind a port (R222). -/
def hopOf (s : State) (t : TileId) (port : Nat) : Hop :=
  let d := dieOf t
  let r := rowOf t
  let c := colOf t
  let last := lastRow s
  match port with
  | 0 =>
    if 0 < r.toNat then .tile (coord d (r - 1) c) 2 none
    else if 4 ≤ d.toNat then .tile (coord (d - 4) (BitVec.ofNat 4 last) c) 2 (some (d, 2)) else .none
  | 1 =>
    if c.toNat < 15 then .tile (coord d r (c + 1)) 3 none
    else if d.toNat % 4 < 3 then .tile (coord (d + 1) r 0) 3 (some (d, 1)) else .none
  | 2 =>
    if r.toNat < last then .tile (coord d (r + 1) c) 0 none
    else if d.toNat < 4 then .tile (coord (d + 4) 0 c) 0 (some (d, 2)) else .none
  | 3 =>
    if 0 < c.toNat then .tile (coord d r (c - 1)) 1 none
    else if d.toNat % 4 = 0 then .iod d else .tile (coord (d - 1) r 15) 1 (some (d, 0))
  | _ => .tile t 4 none

/-- The link carries traffic (R227). -/
def linkUp (s : State) (x : Option (DieId × BitVec 2)) : Bool :=
  match x with
  | none => true
  | some (d, l) => s.flag (.d2dStat d l) F.d2dStat_UP

/-- Put a flit into a tile's input port. -/
def putFlit (t : TileId) (port : Nat) (f : Flit) : Act :=
  modTile t fun τ => { τ with inbox := tset τ.inbox port (tget τ.inbox [] port ++ [f]) }

/-- Beats that a flit takes to the next router (R223, R224): so many unreceived flits the link holds.  DESIGN CHOICE:
notes/assumptions/17.md. -/
def linkBeats (x : Option (DieId × BitVec 2)) : Nat :=
  match x with
  | none => 1
  | some _ => 6

/-- The receiver behind a port acknowledges a flit placed on it now (R14): its input port has room, and the link is up.  The IOD takes every
flit (notes/assumptions/17.md). -/
def accepts (s : State) (t : TileId) (port : Nat) : Bool :=
  match hopOf s t port with
  | .tile u p x => linkUp s x && decide ((tget (s.tile u).inbox [] p).length < linkBeats x)
  | .iod d => linkUp s (some (d, 0))
  | .none => true

/-- A flit goes from an output port to the next router's input port, which can move it from the next beat on (R223). -/
def placeFlit (t : TileId) (port : Nat) (f : Flit) : Act :=
  actGet (fun s => hopOf s t port) fun h =>
    match h with
    | .tile u p _ => putFlit u p f
    | .iod d => modOut fun o => { o with iod := o.iod ++ [(d.toNat, f)] }
    | .none => actNop

/-- An output of the beat: until its receiver acknowledges it, the beat waits (R14). -/
def sendFlit (t : TileId) (port : Nat) (f : Flit) : Act :=
  actIf (fun s => accepts s t port) (placeFlit t port f) (addWait t (.out port f))

/-- The flit at the head of an input port, where one has arrived with good parity (R68). -/
def headFlit (s : State) (t : TileId) (port : Nat) : Option Flit :=
  let τ := s.tile t
  if τ.badPort.contains port then none else (tget τ.inbox [] port).head?

/-- Remove the head flit of a port. -/
def popFlit (t : TileId) (port : Nat) : Act :=
  modTile t fun τ => { τ with inbox := tset τ.inbox port ((tget τ.inbox [] port).drop 1) }

/-- A parity error on the flit at a port: one resend is requested (R68). -/
def parityError (t : TileId) (port : Nat) : Act :=
  actAll [
    tileErr t F.tileErr_FLIT_RETRY,
    incReg (.tileFlitRetry t),
    modTile t fun τ => { τ with badPort := port :: τ.badPort.filter (· ≠ port) }]

/-- A received flit goes to a vector register with its tag, or to a bank line (R265).  Only STV and STD write the tag array
(R264). -/
def putReceived (t : TileId) (dst : NwEnd) (f : Flit) : Act :=
  match dst with
  | .vec n => addWrite t (.vec n f.data f.tag)
  | .bank b l => actIf (fun s => inBuffer s t b l) (tileFault t F.tileErr_SPM_GUARD) (storeLine t b l f.data)

/-- RECV of the flit at a port. -/
def recvNow (t : TileId) (port : Nat) (dst : NwEnd) (f : Flit) : Act := actAll [popFlit t port, putReceived t dst f]

/-- FWD of the flit at a port to every port of the mask (R226). -/
def fwdNow (t : TileId) (port mask : Nat) (f : Flit) : Act :=
  actAll [popFlit t port, actEach ((List.range 5).filter fun p => mask.testBit p) fun p => sendFlit t p f]

/-- ADDF of two flits (R69, R120): the parent goes onward, or nothing does and NODE_MISMATCH is set. -/
def addfNow (t : TileId) (in1 in2 out slot : Nat) (f g : Flit) : Act :=
  actAll [popFlit t in1, popFlit t in2, actGet id fun s =>
    let ga := f.tag.getD 0
    match combineLines s ((s.tile t).seed slot) (tagTrm ga) f.data ga g.data (g.tag.getD 0) with
    | none => tileFault t F.tileErr_NODE_MISMATCH
    | some (v, tag, fl, ov) => actAll [tileFp t fl, actOn ov (tileErr t F.tileErr_INT_OVF),
        sendFlit t out { data := v, tag := some tag }]]

end Sys2Proof.Machine
end

