-- ==== Sys2Proof/Machine/Settle.lean ====
section
/-!
DEFINITION. How a beat ends, and how the waits of a beat are met (R14, R43, R128, R440).  The next beat of a tile starts only
when every input of this one has arrived and every output has been acknowledged.
-/
namespace Sys2Proof.Machine

/-! ### The end of a beat -/

/-- The CTL slot's action on the place in the bundle stream (R43, R44). -/
def Tile.ctlMove (τ : Tile) (code arg : Nat) : Tile :=
  let nxt := { τ with bpos := τ.bpos + 1 }
  match code, τ.loops with
  | 1, (b, n) :: ls => if b = τ.bpos then nxt else { nxt with loops := (τ.bpos, arg + 1) :: (b, n) :: ls }
  | 1, [] => { nxt with loops := [(τ.bpos, arg + 1)] }
  | 2, (b, n) :: ls => if 1 < n then { τ with bpos := b, loops := (b, n - 1) :: ls } else { nxt with loops := ls }
  | 7, (b, n) :: ls =>
    if b = τ.bpos then (if 1 < n then { τ with loops := (b, n - 1) :: ls } else { nxt with loops := ls })
    else if 0 < arg then { τ with loops := (τ.bpos, arg) :: (b, n) :: ls } else nxt
  | 7, [] => if 0 < arg then { τ with loops := [(τ.bpos, arg)] } else nxt
  | 5, _ => { nxt with maint := none }
  | 4, _ => { nxt with maint := some arg }
  | 6, _ => { τ with mode := .done }
  | _, _ => nxt

/-- After a beat: the tile stops for a fault (R70) or a debug halt (R440). -/
def Tile.afterBeat (τ : Tile) : Tile :=
  let u := { τ with mid := false, ctl := none, late := false, beat := τ.beat + 1 }
  match u.mode with
  | .run =>
    if u.freezeReq then { u with mode := .frozen, freezeReq := false }
    else if u.haltReq then
      (if u.stepsLeft ≤ 1 then { u with mode := .halted, stepsLeft := 0 } else { u with stepsLeft := u.stepsLeft - 1 })
    else u
  | _ => { u with freezeReq := false }

/-- STEP_END: the tile's copy of the step counter increases; past 2^48 − 1 it does not complete, a fault (R128). -/
def stepEnd (t : TileId) : Act :=
  actIf (fun s => (s.tile t).step + 1 < 2 ^ 48)
    (modTile t fun τ => { τ with step := τ.step + 1, fe := { τ.fe with ends0 := τ.fe.ends } })
    (actAll [setF (.cgsFault (dieOf t)) F.cgsFault_STEP_WRAP 1,
      raiseFault { code := 0x80, die := (dieOf t).toNat, loc := t.toNat }])

/-- The end of the current beat: what is due in it has happened, its results land, and the CTL slot acts (R43, R48). -/
def endBeat (t : TileId) (code arg : Nat) : Act :=
  actAll [
    tableDue t, emergeDue t, nodesDue t false, nodesDue t true, statsDue t, drainConvert t false, drainConvert t true,
    landWrites t,
    actOn (code = 3) (stepEnd t),
    modTile t fun τ => (τ.ctlMove code arg).afterBeat]

/-! ### Waits of a beat -/

/-- What happens when a wait of tile `t` is met, where its input is there (R14). -/
def waitAct (s : State) (t : TileId) : Wait → Option Act
  | .take bank line reg m =>
    if (s.tile t).full.contains (lineKey bank line) then some (takeLine t bank line reg m) else none
  | .recv port dst => (headFlit s t port).map (recvNow t port dst)
  | .fwd port mask => (headFlit s t port).map (fwdNow t port mask)
  | .addf a b out slot =>
    match headFlit s t a, headFlit s t b with
    | some f, some g => some (addfNow t a b out slot f g)
    | _, _ => none
  | .out port f => if accepts s t port then some (placeFlit t port f) else none
  | .ge c thr => if thr.toNat ≤ (s.reg (.syncCnt c)).toNat then some actNop else none
  | .key entry slot =>
    if seedValid s (dieOf t) (BitVec.ofNat 4 entry)
    then some (loadKey t slot (seedEntry s (dieOf t) (BitVec.ofNat 4 entry))) else none
  | _ => none

/-- A tile has a wait whose input is there, or has none left and its CTL slot is held. -/
def canSettle (s : State) (t : TileId) : Bool :=
  let τ := s.tile t
  τ.waits.any (fun w => (waitAct s t w).isSome) || (τ.waits.isEmpty && τ.ctl.isSome)

/-- Every wait of a tile whose input is there is met; with none left, the held CTL slot ends the beat. -/
def settleTile (t : TileId) : Act :=
  actSeq
    (actGet (fun s => (s.tile t).waits) fun ws => actEach ws fun w =>
      actGet (fun s => waitAct s t w) fun o => actOpt o fun a => actAll [dropWait t w, a])
    (actGet (fun s => s.tile t) fun τ =>
      if τ.waits.isEmpty then actOpt τ.ctl fun c => endBeat t c.1 c.2 else actNop)

/-- Tiles settle until none can. -/
def settleLoop : Nat → Act
  | 0 => actNop
  | n + 1 => actGet (fun s => (tkeys s.tiles).filter (canSettle s)) fun ts =>
      if ts.isEmpty then actNop else actSeq (actEach ts settleTile) (settleLoop n)

/-- Every wait whose input is there is met, on every tile; a move that is met may leave up to five outputs to wait for. -/
def settle : Act :=
  actGet (fun s => s.tiles.foldl (fun n p => n + 6 * p.2.waits.length + 1) 0) fun n => settleLoop n

/-- The CTL slot of a beat: with every input there and every output acknowledged the beat ends, else it is held until then (R14). -/
def ctl (t : TileId) (code arg : Nat) : Act :=
  actAll [
    inBeat t (actGet (fun s => s.tile t) fun τ =>
      if τ.waits.isEmpty then endBeat t code arg else modTile t fun τ => { τ with ctl := some (code, arg) }),
    settle]

end Sys2Proof.Machine
end

