-- ==== Sys2Proof/Machine/Counter.lean ====
section
/-!
DEFINITION. Sync counters: an increase, a SET, and the faults of the sync root (R228-R233, R246).
-/
namespace Sys2Proof.Machine

/-- A sync fault at the counter's home root: the bit, and the index of the counter of the first fault (R246, R328). -/
def syncFault (c : BitVec 13) (f : Fld) (code : Nat) : Act :=
  let d : DieId := c.extractLsb' 10 3
  actAll [
    actWhen (fun s => !(s.flag (.syncFault d) F.syncFault_SET_RACE) && !(s.flag (.syncFault d) F.syncFault_OVF))
      (setF (.syncFault d) F.syncFault_INDEX c.toNat),
    setF (.syncFault d) f 1,
    raiseFault { code, die := d.toNat, loc := c.toNat }]

/-- WAIT_GEs that the value before a saturating operation does not meet stay waiting (R232). -/
def stickWaits (c : BitVec 13) (old : Nat) : Act := fun s =>
  [.tiles (s.tiles.map fun p => (p.1, { p.2 with waits := p.2.waits.map fun w =>
    match w with
    | .ge d thr => if d = c ∧ old < thr.toNat then .stuck d thr else w
    | _ => w }))]

/-- A counter increases by `n`: past 0xFFFF_FFFF it saturates, a fault with no release (R229, R232); else it releases every
WAIT_GE whose threshold it meets (R233). -/
def counterAdd (c : BitVec 13) (n : Nat) : Act :=
  actGet (fun s => (s.reg (.syncCnt c)).toNat) fun old =>
    if old + n < 2 ^ 32 then actSeq (setReg (.syncCnt c) (BitVec.ofNat 32 (old + n))) settle
    else actAll [stickWaits c old, setReg (.syncCnt c) 0xFFFFFFFF, syncFault c F.syncFault_OVF 0x85]

/-- A WAIT_GE is pending on the counter. -/
def waitPending (s : State) (c : BitVec 13) : Bool :=
  s.tiles.any fun p => p.2.waits.any fun w =>
    match w with
    | .ge d _ => d = c
    | .stuck d _ => d = c
    | _ => false

/-- SET: the counter takes a value; while a WAIT_GE is pending on it, it stays unchanged, a fault (R229, R231). -/
def counterSet (c : BitVec 13) (v : U32) : Act :=
  actIf (fun s => waitPending s c) (syncFault c F.syncFault_SET_RACE 0x84) (actSeq (setReg (.syncCnt c) v) settle)

end Sys2Proof.Machine
end

