-- ==== Sys2Proof/Machine/SieveOps.lean ====
section
/-!
DEFINITION. The Sieve: masked scores and keys in the lanes, the filters, the decision, and the answer of a host-assisted draw
(R153-R176, R469).
-/
namespace Sys2Proof.Machine

/-! ### Class and record flags (R281, R286, R307) -/

/-- The job's class becomes V. -/
def classV : Act := setF .echoJob F.echoJob_CLASS 2

/-- A flag of the provenance record is set; `i` is its bit in MODE (R286). -/
def recFlag (i : Nat) : Act := modReg .echoJob fun w => setBit w i

/-! ### Lanes -/

def posInf32 : U32 := 0x7F800000
def negInf32 : U32 := 0xFF800000

/-- POS of a stream (R169). -/
def svcPos (s : State) (n : BitVec 9) : Nat := s.pair (.svcPosLo n) (.svcPosHi n) % 2 ^ 48

/-- The seed in a stream's context. -/
def svcSeedOf (s : State) (n : BitVec 9) : U128 :=
  s.reg (.svcSeed n 3) ++ s.reg (.svcSeed n 2) ++ s.reg (.svcSeed n 1) ++ s.reg (.svcSeed n 0)

/-- The draw mode: the stream's, or the override of P2[9:8] (R261). -/
def drawMode (s : State) (n : BitVec 9) (ovr : Nat) : Nat :=
  match ovr with
  | 1 => 1
  | 2 => 0
  | _ => s.fget (.svcCtrl n) F.svcCtrl_MODE

/-- The masked score of entry `i`, whether it is excluded and whether it is bad (R154). -/
def maskScore (s : State) (n : BitVec 9) (i : Nat) (sc : U32) : U32 × Bool × Bool × FpFlags :=
  let ptr := hbm (s.pair (.svcPenPtrLo n) (.svcPenPtrHi n))
  let badIn := isNan32 sc || sc = posInf32
  match s.fget (.svcCtrl n) F.svcCtrl_PEN_FMT with
  | 1 => (sc, sc = negInf32 || (s.byte (ptr + i / 8)).getLsbD (i % 8), badIn, {})
  | 2 =>
    let b : U32 := BitVec.ofNat 32 (ofLe (s.bytes (ptr + 4 * i) 4))
    let y := fadd .rne sc b
    (y.1, y.1 = negInf32, badIn || isNan32 b || b = posInf32 || isNan32 y.1, y.2)
  | _ => (sc, sc = negInf32, badIn, {})

/-- sieve_key of R155. -/
def sieveKey (y invT : U32) (u24 : Nat) : U32 × FpFlags :=
  let x := fmul .rne y invT
  let k := fadd .rne x.1 (tableEval 1 u24)
  (k.1, x.2.or k.2)

/-- One lane entry of a pass (R154, R155, R469): pass 8 is the noised draw, which forms the key.  M and S are those of the lane's own
statistics register. -/
def laneScore (s : State) (t : TileId) (d : SpDesc) (slot pass i : Nat) (sc : U32) : Score × FpFlags :=
  let n : BitVec 9 := BitVec.ofNat 9 d.p0
  let st := (s.tile t).vreg ((d.p2 / 2 ^ 10) % 64)
  let row := (d.p2 / 2 ^ 16) % 4
  let (y, ex, bad, fl) := maskScore s n i sc
  let noised := pass = 8 && !ex && !bad && drawMode s n ((d.p2 / 2 ^ 8) % 4) ≠ 1
  let k := if noised then sieveKey y (s.reg (.svcInvT n)) (cgU24 ((s.tile t).seed slot) (svcPos s n) d.site n.toNat i)
    else (y, {})
  ({ pass, tile := t, i, y, excl := ex, bad, key := k.1, m := lane st (2 * row), s := lane st (2 * row + 1) }, fl.or k.2)

/-- Lanes [lo, lo + cnt) of a pass feed the row; an index at or above ROW_LEN is padding (R469).  The first operation of the row gives
ROW_LEN and FSET, on which the row's operations agree (R469, notes/assumptions/21.md); the draw mode is that of the noised pass. -/
def feedRow (t : TileId) (d : SpDesc) (slot pass x lo cnt : Nat) : Act :=
  actGet id fun s =>
    let τ := s.tile t
    let n : BitVec 9 := BitVec.ofNat 9 d.p0
    let rs := ((List.range cnt).filter fun j => x + lo + j < d.p1).map fun j =>
      laneScore s t d slot pass (x + lo + j) (lane (τ.vreg d.vreg) (lo + j))
    actAll [
      modRow n fun r => { r with
        len := if r.len = 0 then d.p1 else r.len, fset := if r.len = 0 then d.p2 % 256 else r.fset, step := τ.step,
        mode := if pass = 8 then drawMode s n ((d.p2 / 2 ^ 8) % 4) else r.mode, scores := r.scores ++ rs.map Prod.fst },
      tileFp t (rs.foldl (fun a r => a.or r.2) {})]

/-! ### Filters -/

/-- sortable of R159. -/
def sortable (y : U32) : Nat :=
  let b : U32 := if y = 0x80000000#32 then 0 else y
  if b.getLsbD 31 then (~~~b).toNat else (b ||| 0x80000000#32).toNat

/-- Candidates of a pass. -/
def candsOf (r : Row) (pass : Nat) : List Score := r.scores.filter fun x => x.pass = pass && !x.excl && !x.bad

/-- Count down from a bin to the first at which the running total reaches `k`: the bin and the total above it (R159). -/
def countDown (f : Nat → Nat) (k : Nat) : Nat → Nat → Nat × Nat
  | 0, run => (0, run)
  | b + 1, run => if k ≤ run + f b then (b, run) else countDown f k b (run + f b)

/-- The exact threshold code of top-k by four digit passes; 0, which removes nothing, where TOPK is at least the number of candidates
(R159). -/
def topkCode (r : Row) (k : Nat) : Nat :=
  if (candsOf r 1).length ≤ k then 0
  else ((List.range 4).foldl (fun (a : Nat × Nat) p =>
    let sh := 24 - 8 * p
    let cs := (candsOf r (p + 1)).map fun x => sortable x.y
    let f := fun b => (cs.filter fun c => c >>> sh = a.1 * 256 + b).length
    let q := countDown f k 256 a.2
    (a.1 * 256 + q.1, q.2)) (0, 0)).1

/-- Mass of a candidate (R161): q, d in units of 2^-149, whether M lies below it, and status bits. -/
def massOf (y m c : U32) : Nat × Nat × Bool × FpFlags :=
  if m = negInf32 || decide (fkeyZ m < fkeyZ y) then (2 ^ 40, 0, true, {})
  else
    let df := fsub .rne y m
    let a := fmul .rne df.1 c
    let fl := df.2.or a.2
    match f32v a.1 with
    | .fin _ mm e =>
      match f32v (exp2 a.1).1 with
      | .fin _ m2 e2 =>
        let q := if e2 + 40 ≥ 0 then m2 * 2 ^ (e2 + 40).toNat else m2 / 2 ^ (-(e2 + 40)).toNat
        (q, alignTo mm e (-149), false, fl)
      | _ => (0, alignTo mm e (-149), false, fl)
    | _ => (0, 2 ^ 300, false, fl)

/-- Accumulate bins upward to the first at which the running total reaches the target: the bin and the total below it (R162). -/
def crossBin (xs : List (Nat × Nat)) (target : Nat) : Nat → Nat → Nat → Nat × Nat
  | 0, b, run => (b, run)
  | n + 1, b, run =>
    let w := (xs.filter fun x => x.1 = b).foldl (fun a x => a + x.2) 0
    if target ≤ run + w then (b, run) else crossBin xs target n (b + 1) (run + w)

/-- ceil(p × Q) (R162). -/
def topTarget (p : U32) (q : Nat) : Nat :=
  match f32v p with
  | .fin _ m e => if e ≥ 0 then m * 2 ^ e.toNat * q else ceilDiv (m * q) (2 ^ (-e).toNat)
  | _ => 0

/-- The threshold of top-p in units of 2^-149, from the coarse pass and the two refinements (R162). -/
def toppThreshold (coarse fine1 fine2 : List (Nat × Nat)) (target : Nat) : Nat :=
  let b0of := fun (d : Nat) => min (d / 2 ^ 145) 1023
  let (b0, r0) := crossBin (coarse.map fun x => (b0of x.2, x.1)) target 1023 0 0
  let in0 := fun (xs : List (Nat × Nat)) => xs.filter fun x => b0of x.2 = b0
  let b1of := fun (d : Nat) => (d - b0 * 2 ^ 145) / 2 ^ 135
  let (b1, r1) := crossBin ((in0 fine1).map fun x => (b1of x.2, x.1)) target 1023 0 r0
  let b2of := fun (d : Nat) => (d - b0 * 2 ^ 145 - b1 * 2 ^ 135) / 2 ^ 125
  let (b2, _) := crossBin (((in0 fine2).filter fun x => b1of x.2 = b1).map fun x => (b2of x.2, x.1)) target 1023 0 r1
  b0 * 2 ^ 145 + b1 * 2 ^ 135 + (b2 + 1) * 2 ^ 125

/-! ### The decision -/

/-- Flag bits of SVC_RESULT: [2] MASS_ZERO, [1] TOPK_TIE, [0] M_LOW (R176). -/
def resFlags (mz tie low : Bool) : Nat := 4 * b2n mz + 2 * b2n tie + b2n low

/-- What a draw comes to: a status, or a drawn index with its row (R170, R171, R175). -/
structure Verdict where
  status : Nat := 0
  flags : Nat := 0
  own : Nat := 0
  y : U32 := 0
  m : U32 := 0
  s : U32 := 0
  kept : List (Nat × U32) := []
  exports : List U32 := []
  errs : List (TileId × FpFlags) := []
  deriving DecidableEq, Repr

/-- The winner: the largest key, the lowest index among equals, −0 equal to +0 (R156). -/
def winner : List Score → Option Score
  | [] => none
  | x :: xs =>
    match winner xs with
    | none => some x
    | some w => if fkey x.key > fkey w.key || (fkey x.key = fkey w.key && decide (x.i ≤ w.i)) then some x else some w

/-- round_ne(a / b) of two counts (R171). -/
def countQuot (a b : Nat) : U32 := quotR a b

/-- The draw of a complete row (R154-R175).  Each lane takes M from its own statistics (R469); the context shows those of the drawn entry's
lane (notes/assumptions/21.md). -/
def decideRow (s : State) (n : BitVec 9) (r : Row) : Verdict :=
  let ctl := s.reg (.svcCtrl n)
  let topk := s.fget (.svcFilt n) F.svcFilt_TOPK
  let minp := s.fget (.svcFilt n) F.svcFilt_MINP
  let p := s.reg (.svcTopP n)
  let c := s.reg (.svcC n)
  let src := F.svcCtrl_STATS_SRC.get ctl = 1
  let topp := flt p 0x3F800000#32
  let fS := r.fset.testBit 0
  let fK := r.fset.testBit 1
  let fP := r.fset.testBit 2
  let fM := r.fset.testBit 3
  let hasQ := fS || fP || fM
  if F.svcCtrl_STATE.get ctl = 0 then { status := 1 }
  else if 2 ^ 24 ≤ svcPos s n then { status := 4 }
  else if (topk ≠ 0 && !fK) || (topp && !fP) || (minp ≠ 0 && !fM) || (src && !fS) || (r.mode = 2 && !hasQ) then { status := 5 }
  else if r.scores.any Score.bad then { status := 3 }
  else
    let top := (candsOf r 0).foldl (fun a x => fmax a x.y) negInf32
    let mOf := fun (x : Score) => if src then top else x.m
    if hasQ && !src && (r.scores.any fun x => isNan32 x.m || x.m = posInf32) then { status := 3 }
    else
      let τk := if topk = 0 then 0 else topkCode r topk
      let live := fun (pass : Nat) => (candsOf r pass).filter fun x => τk ≤ sortable x.y
      let cand := live 8
      let tie := topk ≠ 0 && decide (topk < cand.length)
      let mass := fun (x : Score) => massOf x.y (mOf x) c
      let coarse := if hasQ then (live 5).map fun x => (x, mass x) else []
      let q := coarse.foldl (fun a x => a + x.2.1) 0
      let qmax := coarse.foldl (fun a x => max a x.2.1) 0
      let low := coarse.any fun x => x.2.2.2.1
      let errs := coarse.map fun x => (x.1.tile, x.2.2.2.2)
      let mz := hasQ && q = 0
      let pairs := fun (xs : List Score) => xs.map fun x => let w := mass x; (w.1, w.2.1)
      let τp := toppThreshold (coarse.map fun x => (x.2.1, x.2.2.1)) (pairs (live 6)) (pairs (live 7)) (topTarget p q)
      let kept := if !hasQ || mz then cand else cand.filter fun x =>
        let w := mass x
        (!topp || decide (w.2.1 < τp)) && (minp = 0 || decide (minp * qmax ≤ w.1 * 2 ^ 16))
      let flags := resFlags mz tie low
      match winner kept with
      | none => { status := 2, flags, errs }
      | some w =>
        { flags, own := w.i, y := w.y, m := mOf w, s := if src then quotR q 1 (-40) else w.s, errs,
          kept := kept.map fun x => (x.i, x.y),
          exports := if r.mode ≠ 2 then [] else (List.range r.len).map fun i =>
            match kept.find? fun x => x.i = i with
            | none => 0#32
            | some x => if mz then countQuot 1 cand.length else countQuot (mass x).1 q }

/-- A draw ends with a status and flags; INDEX and the rest keep their values (R170). -/
def endDraw (n : BitVec 9) (status flags : Nat) (hd : Bool) : Act :=
  modReg (.svcResult n) fun w => setFld (setFld (putBit w 27 hd) 26 24 flags) 31 28 status

/-- A draw ends with an index: the context takes it and POS increments (R169, R170). -/
def goodDraw (n : BitVec 9) (flags : Nat) (hd : Bool) (i : Nat) (y m s : U32) : Act :=
  actAll [
    endDraw n 0 flags hd,
    setF (.svcResult n) F.svcResult_INDEX i,
    setReg (.svcYSel n) y, setReg (.svcM n) m, setReg (.svcS n) s,
    actGet (fun s => svcPos s n) fun p => setPair (.svcPosLo n) (.svcPosHi n) (p + 1)]

/-- The words of a stream context, as its registers read (R176). -/
def ctxWords (s : State) (n : BitVec 9) : List U32 :=
  [.svcCtrl n, .svcResult n, .svcPosLo n, .svcPosHi n, .svcSeed n 0, .svcSeed n 1, .svcSeed n 2, .svcSeed n 3, .svcInvT n,
    .svcC n, .svcTopP n, .svcFilt n, .svcPenPtrLo n, .svcPenPtrHi n, .svcKvPtrLo n, .svcKvPtrHi n, .svcHostTmo n,
    .svcYSel n, .svcM n, .svcS n].map s.reg

/-- The context of a stream into a vector register (R170); the layout is open (notes/assumptions/11.md). -/
def readCtx (t : TileId) (n : BitVec 9) (vreg : Nat) : Act :=
  actGet (fun s => Config.ctxLayout (ctxWords s n)) fun v => addWrite t (.vec vreg v none)

/-- Tiles whose beat waits for the stream's draw read its context (R171). -/
def releaseCtx (n : BitVec 9) : Act :=
  actGet (fun s => s.tiles) fun ts => actEach ts fun p => actEach p.2.waits fun w =>
    match w with
    | .sieve k v => actOn (k = n.toNat) (actSeq (dropWait p.1 w) (readCtx p.1 n v))
    | _ => actNop

/-- The draw of a stream is over: its row is dropped and the beats that wait for it complete. -/
def closeRow (n : BitVec 9) : Act := actAll [fun _ => [.row n {}], releaseCtx n, settle]

/-- The answer to a draw in HOST_WAIT, or all ones for its timeout (R171-R173). -/
def resolveAnswer (n : BitVec 9) (index : Nat) : Act :=
  actGet (fun s => s.row n) fun r => actAll [
    setF (.svcCtrl n) F.svcCtrl_STATE 1,
    (if index = 2 ^ 64 - 1 then actAll [endDraw n 6 r.flags false, classV, recFlag 9]
      else match r.kept.find? fun x => x.1 = index && decide (index < r.len) with
        | none => endDraw n 7 r.flags false
        | some x => actAll [
            goodDraw n r.flags (index ≠ r.own) index x.2 r.rm r.rs,
            actOn (index ≠ r.own) (actSeq classV (recFlag 8))]),
    closeRow n]

end Sys2Proof.Machine
end

