-- ==== Sys2Proof/Machine/FieldOps.lean ====
section
/-!
DEFINITION. The field engine: the coupling ledger and its loader, the source table, evaluations, rotation blocks and the state
vector (R177-R200, R206, R214).
-/
namespace Sys2Proof.Machine

/-! ### The loader's arithmetic -/

/-- The exponent of a block by its largest coupling (R180). -/
def blockExp (js : List U32) : Nat :=
  let a := maxAbs32 js
  if a = 0#32 then 94 else (max (floorLog2 a + 128) 94).toNat

/-- The mantissa of a coupling (R180). -/
def mantissa (x : Nat) (j : U32) : Int :=
  match f32v j with
  | .fin neg m e => max (-32767) (min 32767 (roundToInt .rne neg m (e + (142 - (x : Int)))))
  | _ => 0

/-- Lists cut into blocks of 256. -/
def blocksOf {α : Type} : Nat → List α → List (List α)
  | 0, _ => []
  | n + 1, xs => if xs.isEmpty then [] else xs.take 256 :: blocksOf n (xs.drop 256)

/-- A load record expanded for one copy of its target (R179): its index, target unit, source (chain, variable) and coupling. -/
structure RecCopy where
  idx : Nat
  unit : Nat
  src : Nat × Nat
  j : U32
  deriving DecidableEq, Repr

/-- Order of the source table: ascending chain, then variable (R181). -/
def srcLe (a b : Nat × Nat) : Bool := a.1 < b.1 || (a.1 = b.1 && decide (a.2 ≤ b.2))

/-- Insert into an ordered list without repeats. -/
def insertSrc (a : Nat × Nat) : List (Nat × Nat) → List (Nat × Nat)
  | [] => [a]
  | b :: bs => if a = b then b :: bs else if srcLe a b then a :: b :: bs else b :: insertSrc a bs

/-- The distinct sources of a tile's entries, in order (R181). -/
def sourceTable (rs : List RecCopy) : List (Nat × Nat) := rs.foldl (fun a r => insertSrc r.src a) []

/-- Position in the source table. -/
def srcIndex (tbl : List (Nat × Nat)) (p : Nat × Nat) : Nat := tbl.findIdx (· = p)

/-- The entries of a tile, scaled block by block (R180, R181). -/
def scaleAll (tbl : List (Nat × Nat)) (rs : List RecCopy) : List Entry :=
  (blocksOf (rs.length / 256 + 1) rs).flatMap fun b =>
    let x := blockExp (b.map RecCopy.j)
    b.map fun r => { tgt := r.unit, src := srcIndex tbl r.src, m := mantissa x r.j, xe := x }

/-- Bits [35:0] of an entry as an 8-byte word (R181, R182). -/
def entryBytes (e : Entry) : List Byte := leBytes 8 (e.tgt * 2 ^ 30 + e.src * 2 ^ 16 + wrapInt 16 e.m)

/-- Entry from its 8-byte word and its block's exponent. -/
def entryOf (x w : Nat) : Entry := { tgt := (w >>> 30) % 64, src := (w >>> 16) % 2 ^ 14, m := sext 16 w, xe := x }

/-- A block in memory: one header line with x and the count, then 8 bytes per entry, in 2,112 bytes (R182). -/
def blockBytes (es : List Entry) : List Byte :=
  let x := (es.head?.map Entry.xe).getD 94
  let hd := leBytes 2 x ++ leBytes 2 es.length ++ leBytes 60 0
  let body := es.flatMap entryBytes
  hd ++ body ++ List.replicate (2048 - body.length) 0#8

/-- Every entry in memory form. -/
def formBytes (es : List Entry) : List Byte := (blocksOf (es.length / 256 + 1) es).flatMap blockBytes

/-- Entries read back from `n` blocks of memory form. -/
def readForm (bs : List Byte) : Nat → List Entry
  | 0 => []
  | n + 1 =>
    let x := leAt bs 0 2 % 256
    ((List.range (min 256 (leAt bs 2 2))).map fun i => entryOf x (leAt bs (64 + 8 * i) 8)) ++ readForm (bs.drop 2112) n

/-! ### Addresses -/

/-- Base of a region by ID (R270). -/
def regionBase (s : State) (id : Nat) : Nat := ((regionOf s id).map Region.base).getD 0

/-- STRIDE of R194. -/
def stride (nvar : Nat) : Nat := ceilDiv (ceilDiv nvar 8) 64 * 64

/-- Byte and bit of a variable's state in the state vector (R194). -/
def stateAddr (base nvar v c : Nat) : Nat := hbm (base + v / 8 + c * stride nvar)

/-- Address of a variable's pair in a position region (R214). -/
def pairAddr (base nvar v c : Nat) : Nat := hbm (base + (v + c * nvar) * 8)

/-- First byte of the source table of a tile (R181). -/
def srcBase (s : State) (t : TileId) : Nat := spm t s.job.img.fe.srcBank s.job.img.fe.srcLine

/-- A source's state in the table, in Percolator mode (R181). -/
def srcBit (s : State) (t : TileId) (k : Nat) : Bool := (s.byte (srcBase s t + k / 8)).getLsbD (k % 8)

/-- A source's position in the table, in Roaster mode (R200). -/
def srcPos (s : State) (t : TileId) (k : Nat) : U32 := BitVec.ofNat 32 (ofLe (s.bytes (srcBase s t + 4 * k) 4))

/-- Put one bit of a byte in memory. -/
def putMemBit (a i : Nat) (b : Bool) : Act := fun s =>
  let v := s.byte a
  [.store a [if b then v ||| BitVec.ofNat 8 (2 ^ i) else v &&& ~~~(BitVec.ofNat 8 (2 ^ i))]]

/-- Write a source's value into the table. -/
def putSrc (t : TileId) (mode k : Nat) (sgn : Bool) (x : U32) : Act :=
  actGet (fun s => srcBase s t) fun b =>
    if mode = 2 then store (b + 4 * k) (leBytes 4 x.toNat) else putMemBit (b + k / 8) (k % 8) sgn

/-! ### Fields -/

/-- An integer times an FP32 value times a power of two, rounded once to an integer (R200); what a value that is not finite
gives is open (notes/assumptions/18.md). -/
def fieldProd (m : Int) (x : U32) (e : Int) : Int := (prodToInt m x e).getD (Config.openField x)

/-- The exact contribution of an entry to its target's accumulator (R183, R200). -/
def contribution (s : State) (t : TileId) (mode : Nat) (e : Entry) : Int :=
  if mode = 2 then fieldProd e.m (srcPos s t e.src) (e.xe - 94)
  else (if srcBit s t e.src then e.m else -e.m) * 2 ^ (e.xe - 94)

/-- The contribution with the sign of the source's position (R206, R211). -/
def signContribution (s : State) (t : TileId) (e : Entry) : Int :=
  let x := srcPos s t e.src
  (if flt x 0#32 then -e.m else e.m) * 2 ^ (e.xe - 94)

/-- 112-bit two's complement (R183). -/
def wrap112 (v : Int) : Int := sext 112 (wrapInt 112 v)

/-- Change the field-engine slice. -/
def modFe (t : TileId) (f : FeTile → FeTile) : Act := modTile t fun τ => { τ with fe := f τ.fe }

/-- Change a unit that is placed. -/
def FeTile.modUnit (f : FeTile) (u : Nat) (g : FeUnit → FeUnit) : FeTile :=
  match tfind f.units u with
  | none => f
  | some x => { f with units := tset f.units u (g x) }

/-- Add to a unit's accumulator. -/
def addField (t : TileId) (u : Nat) (v : Int) : Act :=
  modFe t fun f => f.modUnit u fun x => { x with acc := wrap112 (x.acc + v) }

/-- Evaluate entries under a unit mask (R191): bit j names unit 16g + j. -/
def evalEntries (t : TileId) (g mask : Nat) (es : List Entry) : Act :=
  actGet (fun s => s.job.img.fe.mode) fun mode => actEach es fun e =>
    if e.tgt / 16 = g ∧ mask.testBit (e.tgt % 16) then
      actGet (fun s => contribution s t mode e) fun v => addField t e.tgt v
    else actNop

/-- The field of a unit (R183). -/
def FeUnit.field (u : FeUnit) : U32 := ofFixed u.acc (-48)

/-- Units that an operation names: a group of 16 and a mask (R261). -/
def namedUnits (f : FeTile) (g mask : Nat) : List (Nat × FeUnit) :=
  (List.range 16).filterMap fun j => if mask.testBit j then (tfind f.units (16 * g + j)).map fun u => (16 * g + j, u) else none

/-- A unit takes its new value, its accumulator its base, and the tile's own entry of the source table the value (R181, R191). -/
def setUnit (t : TileId) (mode u : Nat) (v : FeUnit) : Act :=
  actAll [
    modFe t fun f => { f with units := tset f.units u { v with acc := v.base } },
    actGet (fun s => (s.tile t).fe.srcs.findIdx? (· = (v.chain, v.var))) fun o => actOpt o fun k => putSrc t mode k v.s v.x]

/-- The sign of a unit: its state, or that of its position (R206). -/
def FeUnit.up (u : FeUnit) (mode : Nat) : Bool := if mode = 2 then !flt u.x 0#32 else u.s

/-- The lowest END count over tiles that issue ENDs (R192, R205). -/
def lowestEnds (s : State) (p : TileId → Bool) : Nat :=
  let xs := (s.tiles.filter fun q => p q.1 && q.2.trec.ends && q.2.hasRec).map fun q => q.2.fe.ends
  match xs with
  | [] => 0
  | x :: ys => ys.foldl min x

/-- The END of a tile's sweep or iteration: its count, and the +1 counters of its units (R192, R196, R205, R206). -/
def tileEnd (t : TileId) (mode : Nat) : Act :=
  modFe t fun f => { f with
    ends := f.ends + 1,
    units := f.units.map fun p => (p.1, if p.2.up mode then { p.2 with cnt := satAdd 0xFFFFFFFF p.2.cnt 1 } else p.2) }

/-! ### Filling from the state vector and the boundary -/

/-- Initial value of a unit or source from the state vector, or from a position region (R194, R214). -/
def vectorVal (s : State) (mode nvar base v c : Nat) : Bool × U32 × U32 :=
  if mode = 2 then
    let bs := s.bytes (pairAddr base nvar v c) 8
    let x : U32 := BitVec.ofNat 32 (leAt bs 0 4)
    (!flt x 0#32, x, BitVec.ofNat 32 (leAt bs 4 4))
  else ((s.byte (stateAddr base nvar v c)).getLsbD (v % 8), 0, 0)

/-- A bias rounded once to a multiple of 2^-48 (R183). -/
def biasFixed (b : U32) : Int := fieldProd 1 b 48

/-- A source is resident in the module's current block: some tile's unit holds it. -/
def isResident (s : State) (p : Nat × Nat) : Bool :=
  s.tiles.any fun q => q.2.fe.units.any fun u => u.2.chain = p.1 && u.2.var = p.2

/-- A block's units on a tile enter: states or pairs from `from`, bases from the biases, accumulators from the bases (R183, R194, R195, R218).
The +1 counter of a unit stays, whether the block has a variable for the unit or not (R196). -/
def enterUnits (t : TileId) (block from_ : Nat) : Act :=
  actGet (fun s => s.job.img.fe) fun d => actGet id fun s =>
    let us := (d.places.filter fun p => p.tile = t.toNat && p.block = block).map fun p =>
      let v := vectorVal s d.mode d.nvar from_ p.var p.chain
      let b := biasFixed (BitVec.ofNat 32 (ofLe (s.bytes (hbm (d.biasBase + 4 * p.var)) 4)))
      let cnt := match tfind (s.tile t).fe.units p.unit with
        | some u => u.cnt
        | none => tget (s.tile t).fe.idle 0 p.unit
      (p.unit, ({
        var := p.var, chain := p.chain, colour := p.colour, group := p.group, s := v.1, x := v.2.1, y := v.2.2,
        base := b, acc := b, cnt } : FeUnit))
    modFe t fun f => { f with
      units := us
      idle := ((f.units.map fun p => (p.1, p.2.cnt)) ++ f.idle).filter fun p => !(us.any fun u => u.1 = p.1) }

/-- Every source of the tile takes its value (R181). -/
def fillSources (t : TileId) (from_ : Nat) : Act :=
  actGet (fun s => s.job.img.fe) fun d => actGet (fun s => (s.tile t).fe.srcs.zipIdx) fun xs => actEach xs fun p =>
    actGet (fun s => vectorVal s d.mode d.nvar from_ p.1.2 p.1.1) fun v => putSrc t d.mode p.2 v.1 v.2.1

/-- The rotation block that a place in the table names, the first one before any FE_ROT; without rotation the whole ledger is block 0
(R184, R194). -/
def FeDesc.blockAt (d : FeDesc) (rot : Option Nat) : Nat := ((d.rotation[rot.getD 0]?).map Prod.fst).getD 0

/-- A boundary entry of a block: its source is not resident in it (R195). -/
def isBoundary (d : FeDesc) (block : Nat) (f : FeTile) (e : Entry) : Bool :=
  let src := f.srcs.getD e.src (0, 0)
  !d.rotation.isEmpty && !(d.places.any fun p => p.block = block && p.chain = src.1 && p.var = src.2)

/-- Boundary entries add to the bases: those whose source is not resident in the block (R195). -/
def addBoundary (t : TileId) (block : Nat) : Act :=
  actGet (fun s => s.job.img.fe) fun d =>
    actGet (fun s => ((s.tile t).fe.entries ++ (s.tile t).fe.streamed).filter (isBoundary d block (s.tile t).fe)) fun es =>
      actAll [
        actEach es fun e => actGet (fun s => contribution s t d.mode e) fun v =>
          modFe t fun f => f.modUnit e.tgt fun x => { x with base := wrap112 (x.base + v) },
        modFe t fun f => { f with units := f.units.map fun p => (p.1, { p.2 with acc := p.2.base }) }]

/-- The module's states of a tile go back to the state vector (R195, R214). -/
def writeBack (t : TileId) (base : Nat) : Act :=
  actGet (fun s => s.job.img.fe) fun d => actGet (fun s => (s.tile t).fe.units) fun us => actEach us fun p =>
    if d.mode = 2 then store (pairAddr base d.nvar p.2.var p.2.chain) (leBytes 4 p.2.x.toNat ++ leBytes 4 p.2.y.toNat)
    else putMemBit (stateAddr base d.nvar p.2.var p.2.chain) (p.2.var % 8) p.2.s

/-! ### The ledger load (R184-R187) -/

/-- A refusal of the ledger load with its place (R184, R185). -/
structure FeRefuse where
  code : Nat
  die : Nat := 0
  loc : Nat := 0xFFFFFFFF
  var : Bool := false
  module : Bool := false
  deriving DecidableEq, Repr

/-- Records of a range. -/
def rangeRecs (s : State) (d : FeDesc) (r : LedgerRange) : List (Nat × List Byte) :=
  (List.range r.count).map fun i => (r.first + i, s.bytes (hbm (d.recBase + 16 * (r.first + i))) 16)

/-- Units of a block of a tile that hold a variable, in chain order (R179). -/
def copiesOf (d : FeDesc) (tile block v : Nat) : List Place :=
  let ps := d.places.filter fun p => p.tile = tile && p.block = block && p.var = v
  (List.range d.nchain).flatMap fun c => ps.filter fun p => p.chain = c

/-- |J| ≥ 2^24 (R185). -/
def tooBig (j : U32) : Bool := fle 0x4B800000#32 (abs32 j)

/-- A range's records expanded per copy. -/
def expand (s : State) (d : FeDesc) (r : LedgerRange) : List RecCopy :=
  (rangeRecs s d r).flatMap fun p =>
    (copiesOf d r.tile r.block (leAt p.2 0 4)).map fun u =>
      { idx := p.1, unit := u.unit, src := (u.chain, leAt p.2 4 4), j := BitVec.ofNat 32 (leAt p.2 8 4) }

/-- The first refusal of one record in pass 1 (R185). -/
def recRefusal (d : FeDesc) (r : LedgerRange) (p : Nat × List Byte) : Option Nat :=
  let j : U32 := BitVec.ofNat 32 (leAt p.2 8 4)
  let tgt := leAt p.2 0 4
  let src := leAt p.2 4 4
  if !isFin32 j then some 0x50
  else if tooBig j || decide (d.nvar ≤ tgt) || decide (d.nvar ≤ src) then some 0x51
  else if tgt = src then some 0x52
  else if (copiesOf d r.tile r.block tgt).isEmpty then some 0x53
  else none

/-- Pass 1 over a range: its first refused record, then the capacity of the tile (R182, R185). -/
def rangeRefusal (s : State) (d : FeDesc) (r : LedgerRange) : Option FeRefuse :=
  let die := r.tile / 256
  match (rangeRecs s d r).findSome? fun p => (recRefusal d r p).map fun c => (c, p.1) with
  | some (c, i) => some { code := c, die, loc := i }
  | none =>
    let xs := expand s d r
    if r.streamLen = 0 ∧ 8192 < xs.length then some { code := 0x54, die, loc := (xs.getD 8192 { idx := 0, unit := 0, src := (0, 0), j := 0 }).idx }
    else if 16384 < (sourceTable xs).length then some { code := 0x55, die, loc := (xs.getLast?.map RecCopy.idx).getD 0 }
    else none

/-- Refusals of the placement map (R177, R185). -/
def placeRefusal (recs : List TileRec) (d : FeDesc) : Option FeRefuse :=
  (d.places.zipIdx.find? fun p =>
    !(recs.any fun r => r.coord = p.1.tile) || decide (64 ≤ p.1.unit) || decide (d.nvar ≤ p.1.var) ||
      decide (d.nchain ≤ p.1.chain) ||
      ((d.places.take p.2).any fun q => q.tile = p.1.tile && q.unit = p.1.unit && q.block = p.1.block)).map fun p =>
    { code := 0x53, die := p.1.tile / 256, loc := p.1.var, var := true }

/-- Refusals of the colours and one-hot groups, in Percolator mode (R185). -/
def groupRefusal (d : FeDesc) : Option FeRefuse :=
  match d.places.find? fun p => d.ncol ≤ p.colour with
  | some p => some { code := 0x56, die := p.tile / 256, loc := p.var, var := true }
  | none =>
    d.places.findSome? fun p =>
      if p.group = 0 then none
      else
        let ms := d.places.filter fun q => q.group = p.group && q.block = p.block
        if ms.length < 2 then some { code := 0x58, die := p.tile / 256, loc := p.var, var := true }
        else if ms.any fun q => q.tile ≠ p.tile || q.colour ≠ p.colour then
          some { code := 0x59, die := p.tile / 256, loc := p.var, var := true }
        else none

/-- Refusals of the biases (R185). -/
def biasRefusal (s : State) (d : FeDesc) : Option FeRefuse :=
  (List.range d.nvar).findSome? fun v =>
    let b : U32 := BitVec.ofNat 32 (ofLe (s.bytes (hbm (d.biasBase + 4 * v)) 4))
    let die := ((d.places.find? fun p => p.var = v).map fun p => p.tile / 256).getD 0
    if !isFin32 b then some { code := 0x50, die, loc := v, var := true }
    else if tooBig b then some { code := 0x51, die, loc := v, var := true }
    else none

/-- The colour of a variable (R192). -/
def colourOf (d : FeDesc) (v : Nat) : Option Nat := (d.places.find? fun p => p.var = v).map Place.colour

/-- An entry with m ≠ 0 couples two variables of one colour (R186). -/
def conflicts (d : FeDesc) (r : LedgerRange) (tbl : List (Nat × Nat)) (e : Entry) : Bool :=
  match d.places.find? fun p => p.tile = r.tile && p.block = r.block && p.unit = e.tgt with
  | none => false
  | some p => e.m ≠ 0 && colourOf d (tbl.getD e.src (0, 0)).2 = some p.colour

/-- An entry with m ≠ 0 couples two members of one one-hot group (R185). -/
def internal (d : FeDesc) (r : LedgerRange) (tbl : List (Nat × Nat)) (e : Entry) : Bool :=
  match d.places.find? fun p => p.tile = r.tile && p.block = r.block && p.unit = e.tgt with
  | none => false
  | some p => e.m ≠ 0 && p.group ≠ 0 && (d.places.any fun q =>
      q.group = p.group && q.block = p.block && q.var = (tbl.getD e.src (0, 0)).2 && q.chain = (tbl.getD e.src (0, 0)).1)

/-- The part of a tile and block after pass 2. -/
structure Loaded where
  range : LedgerRange
  srcs : List (Nat × Nat)
  all : List Entry
  recs : List RecCopy
  deriving DecidableEq, Repr

/-- Scale a range (R180). -/
def loadRange (s : State) (d : FeDesc) (r : LedgerRange) : Loaded :=
  let xs := expand s d r
  let tbl := sourceTable xs
  { range := r, srcs := tbl, all := scaleAll tbl xs, recs := xs }

/-- Pass 2 refusals of a range's entries (R185, R186). -/
def entryRefusal (d : FeDesc) (l : Loaded) : Option FeRefuse :=
  (l.all.zip l.recs).findSome? fun p =>
    if d.policy = 0 && conflicts d l.range l.srcs p.1 then some { code := 0x57, die := l.range.tile / 256, loc := p.2.idx }
    else if internal d l.range l.srcs p.1 then some { code := 0x5A, die := l.range.tile / 256, loc := p.2.idx }
    else none

/-- Bytes that a range takes in the resident area. -/
def residentSize (l : Loaded) : Nat := 2112 * ceilDiv (min 8192 l.all.length) 256

/-- Start of each range in the resident area, in the order of the ranges. -/
def residentOffsets (ls : List Loaded) : List (Loaded × Nat) :=
  (ls.foldl (fun (a : List (Loaded × Nat) × Nat) l => (a.1 ++ [(l, a.2)], a.2 + residentSize l)) ([], 0)).1

/-- The STATE region is too short for what the job keeps in it (R194, R206, R214): packed bits, or pairs of positions under rotation in Roaster
mode.  A Roaster job without rotation needs none (DEDUCED: notes/assumptions/50.md). -/
def stateShort (d : FeDesc) (len : Option Nat) : Bool :=
  if d.mode = 2 ∧ d.rotation.isEmpty then len.any fun n => decide (n < d.nchain * stride d.nvar)
  else decide (len.getD 0 < if d.mode = 2 then 8 * (d.nchain * d.nvar) else d.nchain * stride d.nvar)

/-- The first refusal of the load (R184, R185), or the loaded ranges.  The order within a pass is DEDUCED
(notes/assumptions/19.md). -/
def ledgerCheck (s : State) (d : FeDesc) : Except FeRefuse (List Loaded) :=
  let modul := fun c => Except.error { code := c, module := true }
  let perc := d.mode ≠ 2
  let st := (regionOf s d.stateRegion).map Region.len
  if 4096 < d.rotation.length then modul 0x5B
  else if 2 ^ 28 < d.nvar || decide (2 ^ 32 < (d.ranges.map LedgerRange.count).foldl (· + ·) 0) then modul 0x51
  else match placeRefusal s.job.img.recs d with
  | some e => .error e
  | none =>
    if stateShort d st then modul 0x51
    else match d.ranges.findSome? (rangeRefusal s d) with
    | some e => .error e
    | none =>
      match biasRefusal s d with
      | some e => .error e
      | none =>
        let ls := d.ranges.map (loadRange s d)
        match (if perc then groupRefusal d else none), (if perc then ls.findSome? (entryRefusal d) else none) with
        | some e, _ => .error e
        | none, some e => .error e
        | none, none =>
          if ((regionOf s d.residentRegion).map Region.len).getD 0 < (ls.map residentSize).foldl (· + ·) 0 then modul 0x51
          else .ok ls

/-- Per-die counts of the load: conflicting and zeroed entries (R180, R186). -/
def loadCounts (d : FeDesc) (ls : List Loaded) (die : DieId) : Act :=
  let mine := ls.filter fun l => l.range.tile / 256 = die.toNat
  let zs := mine.foldl (fun a l => a + (l.all.filter fun e => e.m = 0).length) 0
  let cs := if d.mode = 2 then [] else mine.flatMap fun l => (l.all.filter (conflicts d l.range l.srcs)).map fun e =>
    (((d.places.find? fun p => p.tile = l.range.tile && p.block = l.range.block && p.unit = e.tgt).map Place.var).getD 0,
      (l.srcs.getD e.src (0, 0)).2)
  actAll [
    setReg (.feZeroed die) (BitVec.ofNat 32 (satAdd 0xFFFFFFFF zs 0)),
    setReg (.feConflictCount die) (BitVec.ofNat 32 (satAdd 0xFFFFFFFF cs.length 0)),
    actOpt cs.head? fun c => actSeq (setReg (.feConflictTgt die) (BitVec.ofNat 32 c.1)) (setReg (.feConflictSrc die) (BitVec.ofNat 32 c.2)),
    setF (.feLoadStatus die) F.feLoadStatus_DONE 1]

/-- Place a loaded range on its tile when its block is the one that enters (R181, R182). -/
def placeLoaded (l : Loaded) : Act :=
  modFe (BitVec.ofNat 11 l.range.tile) fun f => { f with
    entries := l.all.take 8192, streamed := l.all.drop 8192, srcs := l.srcs, spos := [] }

/-- The resident form of a tile's part (R182). -/
def Loaded.form (l : Loaded) : List Byte := formBytes (l.all.take 8192)

/-- Write the resident and streamed forms and keep the digest of each block's resident form, every tile's part in the order of the ranges
(R182, R184, R187). -/
def writeForms (d : FeDesc) (ls : List Loaded) : Act :=
  actSeq
    (actGet (fun s => regionBase s d.residentRegion) fun base => actEach (residentOffsets ls) fun p => actAll [
      store (hbm (base + p.2)) p.1.form,
      store (hbm p.1.range.streamBase) (formBytes (p.1.all.drop 8192)),
      modJob fun j => { j with fe := { j.fe with blocks := tset j.fe.blocks (p.1.range.tile, p.1.range.block) {
          addr := hbm (base + p.2), len := p.1.form.length, srcs := p.1.srcs, streamed := p.1.all.drop 8192 } } }])
    (actEach (ls.map fun l => l.range.block).eraseDups fun b => modJob fun j => { j with fe := { j.fe with
      digests := tset j.fe.digests b (sha3 ((ls.filter fun l => l.range.block = b).flatMap Loaded.form)) } })

/-- The block that is resident at job load (R184, R194). -/
def firstBlock (d : FeDesc) : Nat := d.blockAt none

/-- Where the initial values lie: the STATE region, or INIT in Roaster mode (R194, R209). -/
def initBase (s : State) (d : FeDesc) : Nat := if d.mode = 2 then d.roaster.init else regionBase s d.stateRegion

/-- Load the ledger: forms, counts, first block's entries, units, sources, bases (R184, R194, R218). -/
def ledgerLoad (ls : List Loaded) : Act :=
  actGet (fun s => s.job.img.fe) fun d => actGet (fun s => initBase s d) fun ib =>
    let here := ls.filter fun l => l.range.block = firstBlock d
    let ts := (d.places.map fun p => (BitVec.ofNat 11 p.tile : TileId)).eraseDups
    actAll [
      writeForms d ls,
      actEach allDies (loadCounts d ls),
      actEach here placeLoaded,
      actEach ts fun t => enterUnits t (firstBlock d) ib,
      actEach ts fun t => fillSources t ib,
      actOn (!d.rotation.isEmpty) (actEach ts fun t => addBoundary t (firstBlock d))]

/-- The resident form of a block as it lies in the resident area (R187). -/
def blockForm (s : State) (block : Nat) : List Byte :=
  (s.job.img.fe.ranges.filter fun r => r.block = block).flatMap fun r =>
    let b := tget s.job.fe.blocks {} (r.tile, r.block)
    s.bytes b.addr b.len

/-- Reload a tile's part of a block, with its source table and streamed part; a tile that holds none of the block has no entries.  A block whose
form fails its digest is LEDGER_CHANGED (R187, R195).  The ledger streams run on (R182). -/
def reloadBlock (t : TileId) (block : Nat) : Act :=
  actIf (fun s => sha3 (blockForm s block) = tget s.job.fe.digests (sha3 []) block)
    (actGet (fun s => tget s.job.fe.blocks {} (t.toNat, block)) fun b => actGet (fun s => s.bytes b.addr b.len) fun bs =>
      modFe t fun f => { f with entries := readForm bs (b.len / 2112), srcs := b.srcs, streamed := b.streamed })
    (actAll [
      setF (.feFault (dieOf t)) F.feFault_LEDGER_CHANGED 1,
      raiseFault { code := 0x8B, die := (dieOf t).toNat, loc := t.toNat }])

end Sys2Proof.Machine
end

