-- ==== Sys2Proof/Machine/HostOps.lean ====
section
/-!
DEFINITION. The host side's shared operations: completions, interrupts, MC events, descriptor rings, and the admission of
stream contexts (R335-R344, R349, R158-R163, R168).
-/
namespace Sys2Proof.Machine

/-! ### Interrupts and events -/

/-- A vector is signalled (R340). -/
def signal (v : Nat) : Act := modHif fun h => h.signalled v

/-- The host masks a vector, or unmasks it and its pending message leaves (R340); no row of the table is such a write
(notes/assumptions/60.md). -/
def maskVector (v : Nat) (on : Bool) : Act :=
  if on then modHif fun h => { h with masked := if h.masked.contains v then h.masked else v :: h.masked }
  else modHif fun h => { h with
    masked := h.masked.filter (· ≠ v), pba := h.pba.filter (· ≠ v), msix := if h.pba.contains v then h.msix ++ [v] else h.msix }

/-- The message of a VEC field: 0-63 means no interrupt (R340). -/
def signalVec (v : Nat) : Act := actOn (decide (64 ≤ v)) (signal v)

/-- The MC queues an event; a full FIFO drops its oldest (R349). -/
def mcEvent (typ : Nat) (words : List Nat) : Act :=
  actAll [
    actIf (fun s => s.hif.events.length < 64) actNop
      (actSeq (modHif fun h => { h with events := h.events.drop 1 }) (setF .mbxStatus F.mbxStatus_EVT_LOST 1)),
    modHif fun h => { h with events := h.events ++ [{ typ, words }] },
    setF .mbxStatus F.mbxStatus_EVT 1,
    signal 0]

/-- A mailbox command completes (R348). -/
def mbxDone (code : Nat) : Act :=
  actAll [setF .mbxStatus F.mbxStatus_CODE code, setF .mbxStatus F.mbxStatus_DONE 1, setF .mbxStatus F.mbxStatus_BUSY 0, signal 0]

/-- ALERT_N is asserted (R456). -/
def alert : Act := modPins fun p => { p with alertN := false }

/-! ### Queues -/

/-- A queue pair beside its registers. -/
def State.qp (s : State) (q : Nat) : QPair := tget s.hif.queues {} q

def modQ (q : Nat) (f : QPair → QPair) : Act := modHif fun h => { h with queues := tset h.queues q (f (tget h.queues {} q)) }

/-- The queue pair is enabled (R335). -/
def qOn (s : State) (q : Nat) : Bool := decide (q < 64) && s.flag (.qCfg (BitVec.ofNat 6 q)) F.qCfg_EN

/-- A completion waits for a CQ slot; a disabled pair posts none (R335, R336). -/
def complete (q cid head result0 code typ : Nat) : Act :=
  actWhen (fun s => qOn s q) (modQ q fun p => { p with ready := p.ready ++ [{ queue := q, cid, head, result0, code, typ }] })

/-- CID of a submission entry (R337). -/
def Cmd.cid (c : Cmd) : Nat := leAt c.bytes 2 2
/-- OPC of a submission entry. -/
def Cmd.opc (c : Cmd) : Nat := leAt c.bytes 0 1

/-- The command that a queue is executing completes (R336, R339); the queue's next command may start. -/
def finishCmd (q result0 code typ : Nat) : Act :=
  actGet (fun s => (s.qp q).busy) fun o => actOpt o fun c => actSeq
    (modQ q fun p => { p with busy := none })
    (complete q c.cid c.head result0 code typ)

/-- The command of queue `q` where it has this OPC (R337); offered without one, a command event has no effect
(notes/assumptions/6.md). -/
def withCmd (q opc : Nat) (k : Cmd → Act) : Act :=
  actGet (fun s => (s.qp q).busy) fun o => actOpt o fun c => actOn (c.opc = opc) (k c)

/-- Every byte of an entry outside the listed ones is 0 (R337). -/
def onlyBytes (bs : List Byte) (listed : List (Nat × Nat)) : Bool :=
  bs.zipIdx.all fun p => p.1 = 0 || decide (p.2 = 0) || decide (p.2 = 2) || decide (p.2 = 3) ||
    listed.any fun r => r.1 ≤ p.2 && p.2 < r.1 + r.2

/-! ### HBM and host addresses -/

/-- Usable bytes of a stack's 64 GiB window: 48 GiB stacks, or 36 GiB in CK-TS8-A36 (R239). -/
def usableTop (s : State) : Nat := if s.fget .glbId F.glbId_ORDER = 3 then 0x8B8000000 else 0xBA0000000

/-- Logical pseudo-channel of an HBM address (R239). -/
def lpcOf (a : Nat) : Nat := a % 2 ^ 36 / 2048 % 62

/-- pc_map: the spare that carries a logical pseudo-channel, else one of the 62 physical ones that are no spares, in their order (R239, R243;
notes/assumptions/48.md). -/
def pcMap (s : State) (k : BitVec 5) (lpc : Nat) : Nat :=
  let a := s.reg (.hbmSpare0 k)
  let b := s.reg (.hbmSpare1 k)
  let p := F.hbmSpare0_PHYS.get a
  let q := F.hbmSpare1_PHYS.get b
  if F.hbmSpare0_USED.get a = 1 ∧ F.hbmSpare0_FAILED.get a = 0 ∧ F.hbmSpare0_LPC.get a = lpc then p
  else if F.hbmSpare1_USED.get b = 1 ∧ F.hbmSpare1_FAILED.get b = 0 ∧ F.hbmSpare1_LPC.get b = lpc then q
  else ((List.range 64).filter fun i => i ≠ p && i ≠ q).getD lpc lpc

/-- Where an HBM address leads (R239): the stack, the physical pseudo-channel and the byte offset in it; a hole leads nowhere. -/
def hbmDecode (s : State) (a : Nat) : Option (BitVec 5 × Nat × Nat) :=
  let o := a % 2 ^ 36
  if 2 ^ 41 ≤ a ∨ usableTop s ≤ o then none
  else some (BitVec.ofNat 5 (a / 2 ^ 36), pcMap s (BitVec.ofNat 5 (a / 2 ^ 36)) (lpcOf a), o / 2048 / 62 * 2048 + o % 2048)

/-- The address lies in usable HBM (R239). -/
def inHbm (s : State) (a : Nat) : Bool := (hbmDecode s a).isSome

/-- A write from outside reaches the GiBs of a range: their write generations rise (R290). -/
def bumpGens (a n : Nat) : Act :=
  actEach ((List.range ((a + n - 1) / 2 ^ 30 + 1 - a / 2 ^ 30)).map fun i => a / 2 ^ 30 + i) fun g =>
    modHif fun h => { h with gens := tset h.gens g (tget h.gens 0 g + 1) }

/-- A range of bytes lies in usable HBM. -/
def rangeInHbm (s : State) (a n : Nat) : Bool :=
  n = 0 || (inHbm s a && inHbm s (a + n - 1) && decide (a / 2 ^ 36 = (a + n - 1) / 2 ^ 36))

/-- An address of a job-load block: bit 63 names the host, else HBM (R338). -/
def placedAt (a : Nat) : Nat := if a.testBit 63 then hostMem (a % 2 ^ 63) else hbm a

/-! ### Stream contexts (R158-R163, R168, R176, R341) -/

/-- The fields of a context image in the layout of R176. -/
def ctxFields (n : BitVec 9) (bs : List Byte) : List (Reg × U32) :=
  ([.svcCtrl n, .svcResult n, .svcPosLo n, .svcPosHi n, .svcSeed n 0, .svcSeed n 1, .svcSeed n 2, .svcSeed n 3, .svcInvT n,
    .svcC n, .svcTopP n, .svcFilt n, .svcPenPtrLo n, .svcPenPtrHi n, .svcKvPtrLo n, .svcKvPtrHi n, .svcHostTmo n,
    .svcYSel n, .svcM n, .svcS n] : List Reg).zipIdx.map fun p => (p.1, BitVec.ofNat 32 (leAt bs (4 * p.2) 4))

/-- The 128 bytes of a stream context (R176). -/
def ctxBytes (s : State) (n : BitVec 9) : List Byte :=
  let bs := (ctxWords s n).flatMap fun w => leBytes 4 w.toNat
  bs ++ List.replicate (128 - bs.length) 0

/-- A positive finite FP32. -/
def posFinite (v : U32) : Bool := isFin32 v && flt 0#32 v

/-- The bind checks (R158-R163, R168, R176) over the fields of a context. -/
def bindOk (s : State) (f : Reg → U32) (n : BitVec 9) : Bool :=
  let c := f (.svcCtrl n)
  let mode := F.svcCtrl_MODE.get c
  let pen := F.svcCtrl_PEN_FMT.get c
  let topp := f (.svcTopP n)
  let ptr := fun (lo hi : Reg) =>
    let a := (f lo).toNat + 2 ^ 32 * (f hi).toNat
    decide (a % 64 = 0) && inHbm s a
  decide (mode ≠ 3) && decide (pen ≠ 3) &&
    (mode = 1 || (posFinite (f (.svcInvT n)) && posFinite (f (.svcC n)))) &&
    decide (F.svcFilt_TOPK.get (f (.svcFilt n)) ≤ 1024) &&
    !(F.svcCtrl_STATS_SRC.get c = 0 && decide (pen = 2)) &&
    !isNan32 topp && flt 0#32 topp &&
    ptr (.svcPenPtrLo n) (.svcPenPtrHi n) && ptr (.svcKvPtrLo n) (.svcKvPtrHi n)

/-- The fields that a request would bind a stream with: its context image, or the slot's registers (R341). -/
def bindFields (s : State) (n : BitVec 9) (image : Option (List Byte)) : Reg → U32 :=
  match image with
  | none => s.reg
  | some bs => fun r => tget (ctxFields n bs) 0 r

/-- Bind a stream: the context takes the image's fields, its STATE and WR_REJ apart, and becomes BOUND (R341, R342). -/
def bindStream (n : BitVec 9) (image : Option (List Byte)) : Act :=
  actAll [
    actGet (fun s => s.reg (.svcCtrl n)) fun w0 =>
      actOpt image fun bs => actSeq
        (actEach (ctxFields n bs) fun p => setReg p.1 p.2)
        (setF (.svcCtrl n) F.svcCtrl_WR_REJ (F.svcCtrl_WR_REJ.get w0)),
    setF (.svcCtrl n) F.svcCtrl_STATE 1]

/-- A stream becomes FREE (R342). -/
def freeStream (n : BitVec 9) : Act := setF (.svcCtrl n) F.svcCtrl_STATE 0

/-- Every stream number (R168). -/
def allStreams : List (BitVec 9) := (List.range 384).map fun i => BitVec.ofNat 9 i

/-- The stream is FREE. -/
def streamFree (s : State) (n : BitVec 9) : Bool := s.fget (.svcCtrl n) F.svcCtrl_STATE = 0

end Sys2Proof.Machine
end

