-- ==== Sys2Proof/Machine/EntOps.lean ====
section
/-!
DEFINITION. The entropy block's shared operations: CTR_DRBG with AES-256 and its derivation function, the pool, generate
requests and the alarm (R133-R135, R417-R427).
-/
namespace Sys2Proof.Machine

/-! ### CTR_DRBG (R420; SP 800-90A) -/

/-- Blocks of 16 bytes as numbers, first byte most significant. -/
def blocks16 : Nat → List Byte → List U128
  | 0, _ => []
  | n + 1, bs => if bs.isEmpty then [] else BitVec.ofNat 128 (ofBe (bs.take 16)) :: blocks16 n (bs.drop 16)

/-- Chained encryption of blocks (SP 800-90A BCC). -/
def bcc (key : BitVec 256) (bs : List U128) : U128 := bs.foldl (fun c b => Aes.aes256 key (c ^^^ b)) 0

/-- The derivation function, to 48 bytes: key and counter (SP 800-90A Block_Cipher_df). -/
def drbgDf (input : List Byte) : BitVec 256 × U128 :=
  let body := beBytes 4 input.length ++ beBytes 4 48 ++ input ++ [0x80#8]
  let padded := body ++ List.replicate ((16 - body.length % 16) % 16) 0
  let bs := blocks16 (padded.length / 16 + 1) padded
  let k0 : BitVec 256 := BitVec.ofNat 256 (ofBe ((List.range 32).map fun i => BitVec.ofNat 8 i))
  let t := fun (i : Nat) => bcc k0 (BitVec.ofNat 128 (i * 2 ^ 96) :: bs)
  let k : BitVec 256 := t 0 ++ t 1
  let x1 := Aes.aes256 k (t 2)
  let x2 := Aes.aes256 k x1
  let x3 := Aes.aes256 k x2
  (x1 ++ x2, x3)

/-- CTR_DRBG update with 48 bytes. -/
def drbgUpdate (key : BitVec 256) (v : U128) (d : BitVec 256 × U128) : BitVec 256 × U128 :=
  let a := Aes.aes256 key (v + 1)
  let b := Aes.aes256 key (v + 2)
  let c := Aes.aes256 key (v + 3)
  ((a ++ b) ^^^ d.1, c ^^^ d.2)

/-- Output blocks of a generate request. -/
def drbgBlocks (key : BitVec 256) (v : U128) (n : Nat) : List U128 := (List.range n).map fun i => Aes.aes256 key (v + BitVec.ofNat 128 (i + 1))

/-- Reseed with a conditioned output and additional input (R422, R423). -/
def Ent.reseed (e : Ent) (d : Digest) (extra : List Byte) : Ent :=
  let r := drbgUpdate e.key e.v (drbgDf (digestBytes d ++ extra))
  { e with key := r.1, v := r.2, reseedDue := false }

/-- Instantiate from two conditioned outputs and the fuse serial (R420). -/
def Ent.instantiate (e : Ent) (serial : U128) (a b : Digest) : Ent :=
  let r := drbgUpdate 0 0 (drbgDf (digestBytes a ++ (digestBytes b).take 16 ++ leBytes 16 serial.toNat))
  { e with key := r.1, v := r.2, reseedDue := false }

/-- Generate `n` 128-bit blocks. -/
def Ent.generate (e : Ent) (n : Nat) : List U128 × Ent :=
  let out := drbgBlocks e.key e.v n
  let r := drbgUpdate e.key (e.v + BitVec.ofNat 128 n) (0, 0)
  (out, { e with key := r.1, v := r.2 })

/-! ### Health tests (R417, R418) -/

/-- Repetition-count cutoff. -/
def rctCut (src : Nat) : Nat := match src with | 0 => 41 | 1 => 26 | _ => 24
/-- Adaptive-proportion cutoff. -/
def aptCut (src : Nat) : Nat := match src with | 0 => 794 | 1 => 664 | _ => 625

/-- Raw bits run through the repetition count: the source after them, and whether the test failed. -/
def rctRun (src : Nat) (x : Noise) (bits : List Bool) : Noise × Bool :=
  bits.foldl (fun (p : Noise × Bool) b =>
    let run := if p.1.run ≠ 0 ∧ b = p.1.last then p.1.run + 1 else 1
    ({ p.1 with last := b, run }, p.2 || decide (rctCut src ≤ run))) (x, false)

/-- A window of 1,024 bits fails the adaptive proportion. -/
def aptFails (src : Nat) (bits : List Bool) : Bool :=
  match bits with
  | [] => false
  | b :: bs => decide (aptCut src ≤ ((b :: bs).filter (· = b)).length)

/-- The bits of a buffer, first one lowest. -/
def bufBits (b : BitVec 1024) : List Bool := (List.range 1024).map fun i => b.getLsbD i

/-- Cause bits of ENT_ALARM for a source. -/
def rctFld (src : Nat) : Fld := match src with | 0 => F.entAlarm_RCT0 | 1 => F.entAlarm_RCT1 | _ => F.entAlarm_RCT2
def aptFld (src : Nat) : Fld := match src with | 0 => F.entAlarm_APT0 | 1 => F.entAlarm_APT1 | _ => F.entAlarm_APT2

/-! ### Requests (R421, R427) -/

/-- ENT_STATUS.WAITING. -/
def showWaiting : Act := actGet (fun s => s.ent.waiting.length) fun n => setF .entStatus F.entStatus_WAITING n

/-- A FRESH_SEED completes with ENT_FAILED: the entry stays invalid, the job freezes (R135). -/
def freshFail (n : Nat) : Act :=
  actGet (fun s => s.tiles) fun ts => actAll [
    actEach allDies fun d => modReg (.cgsPending d) fun w => clrBit w n,
    actEach ts fun p => actOn (p.2.waits.contains (.fresh n)) (actAll [
      setF (.cgsFault (dieOf p.1)) F.cgsFault_FRESH_FAIL 1,
      dropWait p.1 (.fresh n),
      raiseFault { code := 0x81, die := (dieOf p.1).toNat, loc := p.1.toNat }]),
    settle]

/-- A request completes with ENT_FAILED (R426, R427). -/
def drbgFail : DrbgUse → Act
  | .fresh n => freshFail n
  | .hello _ _ => actNop
  | .attest => actAll [setF .secAttCtrl F.secAttCtrl_BUSY 0, setF .secAttCtrl F.secAttCtrl_RESULT 0x81]

/-- The MC passes on requests while fewer than 64 wait (R421). -/
def passRequests : Act :=
  actSeq (modEnt fun e =>
      let n := 64 - e.waiting.length
      { e with waiting := e.waiting ++ e.mcQueue.take n, mcQueue := e.mcQueue.drop n }) showWaiting

/-- A consumer asks for DRBG output: under alarm it fails at once; while the MC is absent it waits in the MC (R135, R327,
R426). -/
def drbgAsk (bits : Nat) (use : DrbgUse) : Act :=
  actIf (fun s => s.ent.alarm) (drbgFail use)
    (actSeq (modEnt fun e => { e with mcQueue := e.mcQueue ++ [{ bits, use }] })
      (actWhen (fun s => !s.flt.mcAbsent) passRequests))

/-- The alarm (R426): the DRBG stops and is zeroised, the cause is shown, and every waiting request fails. -/
def entAlarm (causes : List Fld) : Act :=
  actGet (fun s => s.ent.waiting ++ s.ent.mcQueue) fun rs => actAll [
    actWhen (fun s => s.ent.hostInput.isSome) (mbxDone 0x81),
    modEnt fun e => { e with key := 0, v := 0, pool := [], waiting := [], mcQueue := [], hostInput := none, reseedDue := false, alarm := true },
    actEach causes fun f => setF .entAlarm f 1,
    setF .entAlarm F.entAlarm_ALARM 1,
    setF .entStatus F.entStatus_STATE 4, setF .entStatus F.entStatus_SEEDED 0, showWaiting,
    alert, signal 2,
    actEach rs fun r => drbgFail r.use]

/-! ### The pool (R419, R420, R422) -/

/-- The conditioner takes full buffers in the rotation 0, 1, 2 while the pool has room (R419). -/
def conditionLoop : Nat → Ent → Ent
  | 0, e => e
  | n + 1, e =>
    let x := tget e.src {} e.next
    match x.full with
    | some b =>
      if e.pool.length < 4 then
        conditionLoop n { e with
          pool := e.pool ++ [sha3 (leBytes 128 b.toNat)],
          src := tset e.src e.next { x with full := none },
          next := (e.next + 1) % 3 }
      else e
    | none => e

/-- Reseed from the pool, with host input where some waits (R422, R423). -/
def doReseed (d : Digest) (rest : List Digest) : Act :=
  actGet (fun s => s.ent.hostInput) fun o => actAll [
    modEnt fun e => conditionLoop 6 { (e.reseed d (o.getD [])) with pool := rest, hostInput := none },
    setF .entReqSince F.entReqSince_REQS 0,
    incReg .entReseeds,
    actOpt o fun _ => actSeq (incF .entHostInput F.entHostInput_APPLIED) (mbxDone 0)]

/-- Set the eight words of the challenge (R435, R445). -/
def setChallenge (v : BitVec 256) : Act :=
  actEach (List.range 8) fun i => setReg (.secChallenge (BitVec.ofNat 3 i)) (v.extractLsb' (224 - 32 * i) 32)

/-- `n` blocks of DRBG output, where the DRBG runs and no reseed waits for the pool (R421, R422). -/
def drbgGen (n : Nat) (k : List U128 → Act) (none_ : Act) : Act :=
  actGet id fun s =>
    let due := s.ent.reseedDue || decide (65536 ≤ s.fget .entReqSince F.entReqSince_REQS)
    let go := actGet (fun s => s.ent.generate n) fun r => actAll [
      modEnt fun _ => r.2,
      actGet (fun s => s.fget .entReqSince F.entReqSince_REQS) fun c => setF .entReqSince F.entReqSince_REQS (c + 1),
      k r.1]
    if s.fget .entStatus F.entStatus_STATE ≠ 3 ∨ !s.flag .entStatus F.entStatus_SEEDED then none_
    else if due then
      match s.ent.pool with
      | d :: ds => actSeq (doReseed d ds) go
      | [] => none_
    else go

/-- A new challenge: every accepted token is discarded; without a seeded DRBG it reads 0 (R435). -/
def newChallenge : Act :=
  actAll [
    modSec fun x => { x with corkorTok := none, ownerTok := none },
    setF .secTokenStatus F.secTokenStatus_ACCEPTED 0,
    drbgGen 2 (fun bs => setChallenge (bs.getD 0 0 ++ bs.getD 1 0)) (setChallenge 0)]

/-- Instantiate once the known answers have passed and two conditioned outputs are there (R420, R424, R425); the first
instantiation draws the challenge (R435). -/
def tryInstantiate : Act :=
  actGet id fun s =>
    match s.ent.pool with
    | a :: b :: ds =>
      actOn (s.ent.katPassed && !s.ent.alarm && !s.flag .entStatus F.entStatus_SEEDED &&
          decide (s.fget .entStatus F.entStatus_STATE = 1 ∨ s.fget .entStatus F.entStatus_STATE = 2)) (actAll [
        modEnt fun e => conditionLoop 6 { (e.instantiate s.otp.serial a b) with pool := ds },
        setF .entStatus F.entStatus_STATE 3, setF .entStatus F.entStatus_SEEDED 1,
        setF .entReqSince F.entReqSince_REQS 0, setReg .entReseeds 0,
        actWhen (fun s => (List.range 8).all fun i => decide (s.reg (.secChallenge (BitVec.ofNat 3 i)) = 0)) newChallenge])
    | _ => actNop

/-- A conditioned output may let a reseed or the instantiation go on. -/
def poolGrew : Act :=
  actAll [
    tryInstantiate,
    actGet id fun s => match s.ent.pool with
      | d :: ds => actOn (s.ent.hostInput.isSome && decide (s.fget .entStatus F.entStatus_STATE = 3)) (doReseed d ds)
      | [] => actNop]

/-- Start-up of the entropy block when its supply is good (R425); it does not restart while the alarm flag is set (R426). -/
def entStart : Act :=
  actIf (fun s => s.ent.alarm) (setF .entStatus F.entStatus_STATE 4) (actAll [
    modEnt fun e => { e with src := [], next := 0, pool := [], katPassed := false, key := 0, v := 0, reseedDue := false },
    setF .entStatus F.entStatus_SEEDED 0,
    setF .entStatus F.entStatus_STATE 1])

end Sys2Proof.Machine
end

