-- ==== Sys2Proof/Machine/Reach.lean ====
section
/-!
DEFINITION. Which blocks of BAR0 answer: the power state, the phase of bring-up, RECOVERY, P-Half and the row maps decide it, and an
access to a block that is off is logged (R29, R38, R236, R237, R245, R389, R410, R412, R461, R462).
-/
namespace Sys2Proof.Machine

/-- The power state (R381, R399). -/
def pstate (s : State) : Nat := s.fget .pwrState F.pwrState_CUR

/-- BOOT_STATUS.PHASE (R408). -/
def bootPhase (s : State) : Nat := s.fget .bootStatus F.bootStatus_PHASE

/-- The module is in RECOVERY (R412). -/
def inRecovery (s : State) : Bool := s.flag .glbStatus F.glbStatus_RECOVERY

/-- The configuration uses the port: even ones only with 8 x 1.6TbE, and those that the LINK record enables (R354, R407). -/
def portInUse (s : State) (p : BitVec 4) : Bool := (!s.net.cfg1600 || decide (p.toNat % 2 = 0)) && s.boot.cfg.portMask.testBit p.toNat

/-- The offset lies in [lo, hi). -/
def inRange (off lo hi : Nat) : Bool := decide (lo ≤ off) && decide (off < hi)

/-- Where an offset inside a die window leads (R462). -/
inductive DieBlock where
  | tile (row : Nat)
  | unmapped (row : Nat)
  | sync
  | hbm
  | d2d
  | other
  deriving DecidableEq, Repr

/-- The block of a die offset (R462). -/
def dieBlock (o : Nat) : DieBlock :=
  if o < 0x200000 then .tile (o / 0x20000)
  else if o < 0x220000 then .unmapped (o % 0x200000 / 0x2000)
  else if inRange o 0x300000 0x301004 then .sync
  else if inRange o 0x340000 0x344000 then .hbm
  else if inRange o 0x360000 0x360300 then .d2d
  else .other

/-- A die's block is off (R29, R37, R39, R236, R389, R410). -/
def dieOff (s : State) (d : DieId) (b : DieBlock) : Bool :=
  let ph := bootPhase s
  let st := pstate s
  let parked := s.flag (.pgvStatus d) F.pgvStatus_PARKED
  match b with
  | .tile row => decide (ph < 4) || decide (2 ≤ st) || parked || (s.flag .glbStatus F.glbStatus_GRADE_EFF && decide (14 ≤ row))
  | .unmapped r => decide (ph < 4) || decide (2 ≤ st) || parked ||
      s.flag (.dieRowmap d (BitVec.ofNat 4 r)) F.dieRowmap_RETIRED || s.flag (.dieRowmap d (BitVec.ofNat 4 r)) F.dieRowmap_FUSED
  | .sync => decide (ph < 4) || decide (2 ≤ st) || parked
  | .hbm => decide (ph < 5) || decide (3 ≤ st)
  | .d2d => decide (ph < 6) || decide (2 ≤ st)
  | .other => decide (ph < 4) || decide (2 ≤ st)

/-- The block at a BAR0 offset is off, and answers under R236.  Unassigned ranges are no block (R10, R461). -/
def offBlock (s : State) (off : Nat) : Bool :=
  let blk := off / 0x10000
  let ph := bootPhase s
  if inRange off 0x1000000 0x3000000 then
    inRecovery s || dieOff s (BitVec.ofNat 3 ((off - 0x1000000) / 0x400000)) (dieBlock (off % 0x400000))
  else if blk = 0 ∨ blk = 1 ∨ blk = 5 then
    if inRecovery s then blk = 5 && !inRange off 0x50800 0x50A00 else decide (ph < 1)
  else if blk = 2 ∨ blk = 3 ∨ blk = 0x14 then inRecovery s || decide (ph < 3)
  else if blk = 8 then inRecovery s || decide (ph < 3) || decide (3 ≤ pstate s) || !portInUse s (BitVec.ofNat 4 (off % 0x10000 / 0x1000))
  else if blk = 4 ∨ blk = 6 ∨ blk = 9 ∨ blk = 0xA ∨ blk = 0xB ∨ blk = 0xC ∨ blk = 0x10 then
    inRecovery s || decide (ph < 3) || decide (3 ≤ pstate s)
  else false

/-- What a block that is off answers to a read (R236). -/
def offValue : U32 := 0xDEAD0FF0#32

/-- An access answered under R236 is logged (R237, R245); a read takes `offValue`. -/
def offAccess (off : Nat) (write mc : Bool) : Act :=
  actAll [
    incF .offCount F.offCount_COUNT,
    actEach (List.range 7) (fun i => actGet (fun s => s.reg (.offAddr (BitVec.ofNat 3 (6 - i)))) fun v => setReg (.offAddr (BitVec.ofNat 3 (7 - i))) v),
    setReg (.offAddr 0) (F.offAddr_OFFSET.put (F.offAddr_SRC.put (F.offAddr_WRITE.put 0 (b2n write)) (b2n mc)) off),
    actOn (!write) (modOut fun o => { o with read := offValue })]

/-- An access over BAR0: none reaches the module in S4 and S5, where the link is down (R389); a block that is off answers under R236;
else the access has its effect. -/
def reach (off : Nat) (write : Bool) (k : Act) : Act :=
  actWhen (fun s => decide (pstate s < 4)) (actIf (fun s => offBlock s off) (offAccess off write false) k)

/-- A write of a register over BAR0. -/
def reachReg (r : Reg) (k : Act) : Act := reach r.addr true k

end Sys2Proof.Machine
end

