-- ==== Sys2Proof/Machine/EchoOps.lean ====
section
/-!
DEFINITION. The Echo log: entries and their ring, the ingress, replay, and the provenance record (R286-R289, R293-R301).
-/
namespace Sys2Proof.Machine

/-! ### Entries (R294, R295) -/

/-- The module-wide job step counter: the lowest copy over all tiles with a record (R128). -/
def moduleStep (s : State) : Nat :=
  match (s.tiles.filter fun p => p.2.hasRec).map fun p => p.2.step with
  | [] => s.job.step
  | x :: xs => xs.foldl min x

/-- An entry as its 64 bytes (R294). -/
def EchoEntry.bytes (e : EchoEntry) (seq step : Nat) : List Byte :=
  leBytes 8 seq ++ leBytes 6 step ++ leBytes 1 e.typ ++ leBytes 1 0 ++ leBytes 4 e.agent ++ leBytes 8 e.aux ++
    leBytes 4 e.len ++ leBytes 32 e.payload

/-- SEQ and fields of an entry's bytes. -/
def parseEntry (bs : List Byte) : Nat × EchoEntry :=
  (leAt bs 0 8, { typ := leAt bs 14 1, agent := leAt bs 16 4, aux := leAt bs 20 8, len := leAt bs 28 4, payload := leAt bs 32 32 })

/-- The types that R295 marks as inputs. -/
def isInput (typ : Nat) : Bool := decide (3 ≤ typ) && decide (typ ≤ 13)

/-- A digest as the number that an entry's payload field holds. -/
def digestNum (bs : List Byte) : Nat := ofLe (digestBytes (sha3 bs))

/-! ### The ring (R296, R297) -/

/-- Entries that the ring in use holds: on the module, or in host memory. -/
def echoCap (s : State) : Nat := if s.echo.mode = 1 then s.echo.hostLen else s.echo.cap

/-- Where entry SEQ lies (R296, R348). -/
def echoAddr (s : State) (seq : Nat) : Nat :=
  if s.echo.mode = 1 then hostMem (s.echo.hostBase + 64 * (seq % s.echo.hostLen)) else hbm (s.echo.base + 64 * (seq % s.echo.cap))

/-- ECHO_DRAIN: the SEQ below which the host has read. -/
def echoDrain (s : State) : Nat := s.pair .echoDrainLo .echoDrainHi

/-- How the next entry is handled (R296). -/
inductive Room where
  /-- it is appended, after the overwriting of `gap` undrained entries -/
  | put (gap : Nat)
  /-- delivery waits -/
  | wait
  deriving DecidableEq, Repr

/-- An entry that recovery needs: at or after the latest good checkpoint, or still to be consumed by the recovery in progress (R296,
R305). -/
def echoKept (s : State) (seq : Nat) : Bool :=
  s.flt.good.any (fun g => g.seq ≤ seq) || (s.echo.replay && s.echo.recover && decide (s.echo.src + s.echo.pos ≤ seq))

/-- The table of R296, and its host form (R297).  A GAP entry takes a place of its own. -/
def echoRoom (s : State) : Room :=
  let x := s.echo
  let cap := echoCap s
  if cap = 0 then .wait
  else if x.mode = 1 then (if x.seq < echoDrain s + cap then .put 0 else .wait)
  else if x.seq < x.tail + cap then .put 0
  else if echoKept s x.tail then .wait
  else if x.tail < echoDrain s then .put 0
  else if x.full || decide (cap < 2) || echoKept s (x.tail + 1) then .wait
  else .put (1 + b2n (echoDrain s ≤ x.tail + 1))

/-- The next SEQ goes to the tail address of the host ring (R348). -/
def writeTail : Act :=
  actWhen (fun s => decide (s.echo.mode = 1) && decide (s.echo.hostLen ≠ 0) && s.hif.linkUp)
    (actGet (fun s => s.echo) fun x => store (hostMem x.hostTail) (leBytes 8 x.seq))

/-- Write an entry at the next SEQ (R294); the host ring's tail follows every 64 entries (R348).  A step that appends 2^32 entries sets
POS_WRAP (R286). -/
def putEntry (e : EchoEntry) : Act :=
  actGet id fun s =>
    let x := s.echo
    let tail := if x.tail + echoCap s ≤ x.seq then x.tail + 1 else x.tail
    actAll [
      store (echoAddr s x.seq) (e.bytes x.seq (moduleStep s)),
      modEcho fun x => { x with seq := x.seq + 1, tail },
      setPair .echoSeqLo .echoSeqHi (x.seq + 1),
      setPair .echoTailLo .echoTailHi tail,
      actOn (decide ((x.seq + 1) % 64 = 0)) writeTail,
      actOn (x.stepSeq + 2 ^ 32 ≤ x.seq + 1) (actSeq (setF .echoStatus F.echoStatus_POS_WRAP 1) (recFlag 15))]

/-- An entry is consumed: the INPUTS chain takes a step for an input (R289), and ECHO_POS follows (R286). -/
def consumed (e : EchoEntry) (seq step : Nat) : Act :=
  actAll [
    actOn (isInput e.typ) (modJob fun j => { j with
      chain := sha3 (digestBytes j.chain ++ (e.bytes seq step).drop 8) }),
    modEcho fun x => { x with last := seq }]

/-- Append an entry where the ring has room; entries lost before their drain set LOST and are counted in a GAP entry
(R296, R281). -/
def appendEntry (e : EchoEntry) : Act :=
  actGet echoRoom fun r =>
    match r with
    | .wait => actNop
    | .put g => actAll [
        actOn (g ≠ 0) (actAll [
          setF .echoStatus F.echoStatus_LOST 1, recFlag 12,
          putEntry { typ := 0x11, aux := g }]),
        putEntry e]

/-! ### What an input does once it is logged -/

/-- Write lanes of a vector register of a waiting tile; its beat sees its input. -/
def replyLanes (t : TileId) (vreg : Nat) (vals : List U32) (isWait : Wait → Bool) : Act :=
  actAll [
    actEach vals.zipIdx fun p => addWrite t (.lane vreg p.2 p.1),
    actGet (fun s => (s.tile t).waits.find? isWait) fun o => actOpt o (dropWait t)]

/-- Positions of a peer's message reach every source table that names them (R200, R216, R217). -/
def ghostPositions (region : Nat) (bytes : List Byte) : Act :=
  actGet id fun s =>
    let lay := Config.xchgLayout s.job.img.hdr.digest region
    actEach lay.zipIdx fun p =>
      let v : U32 := BitVec.ofNat 32 (leAt bytes (4 * p.2) 4)
      actOn (!isResident s p.1 && decide (4 * p.2 + 4 ≤ bytes.length)) (actEach s.tiles fun q =>
        actOpt (q.2.fe.srcs.findIdx? fun x => x = p.1) fun k => putSrc q.1 s.job.img.fe.mode k (!flt v 0#32) v)

/-- The counter that the barrier of an exchange advances counts: the positions that have landed become visible (R216, R365, R372). -/
def releaseGhosts (c : Nat) : Act :=
  actWhen (fun s => s.net.barriers.any fun b => b.desc.ext = c && s.net.closing.contains b.desc.counter)
    (actGet (fun s => s.net.ghosts) fun gs => actSeq (modNet fun n => { n with ghosts := [] }) (actEach gs fun g => ghostPositions g.1 g.2))

/-- What a logged input does (R133, R171, R216, R217, R230, R342, R344, R365). -/
def perform : DAct → Act
  | .nothing => actNop
  | .payload a bs => store a bs
  | .count c n => actSeq (releaseGhosts c) (counterAdd (BitVec.ofNat 13 c) n)
  | .answer n i => actWhen (fun s => (s.row (BitVec.ofNat 9 n)).decided) (resolveAnswer (BitVec.ofNat 9 n) i)
  | .fresh n v =>
    let e : BitVec 4 := BitVec.ofNat 4 n
    actAll [
      actEach allDies fun d => actAll [putSeed d e v, modReg (.cgsPending d) fun w => clrBit w n,
        incF (.cgsStatus d) F.cgsStatus_FRESH_COUNT],
      recFlag 11,
      actGet (fun s => s.tiles) fun ts => actEach ts fun p => actOn (p.2.waits.contains (.fresh n)) (dropWait p.1 (.fresh n)),
      settle]
  | .lanes t vreg vals => actSeq (replyLanes t vreg vals fun w => match w with | .reply _ d => d.vreg = vreg | _ => false) settle
  | .admission n tag img refused => actAll [
      actOn (!refused) (bindStream (BitVec.ofNat 9 n) img),
      actWhen (fun s => s.hif.admMode = 1) (setReg .admNextTag (BitVec.ofNat 32 (tag + 1)))]
  | .admitted t vreg vals => actAll [
      actEach vals.zipIdx fun p => addWrite t (.lane vreg (8 + p.2) p.1),
      actGet (fun s => (s.tile t).waits.find? fun w => match w with | .admission _ _ _ => true | _ => false) fun o => actOpt o (dropWait t),
      settle]
  | .finish q => finishCmd q 0 0 0
  | .ghost r bs => ghostPositions r bs
  | .hold r bs => modNet fun n => { n with ghosts := n.ghosts ++ [(r, bs)] }

/-! ### The ingress (R293, R296, R298) -/

/-- ECHO_STATUS.STALLED: a delivery waits for room. -/
def showStall : Act :=
  actGet (fun s => !s.echo.late.isEmpty || (!s.echo.replay && !s.echo.waiting.isEmpty)) fun b => setF .echoStatus F.echoStatus_STALLED (b2n b)

/-- A delivery whose entry has room: the entry is appended, then the input takes effect (R293). -/
def deliver (d : Delivery) : Act :=
  actAll [
    appendEntry d.entry,
    actGet id fun s => consumed d.entry (s.echo.seq - 1) (moduleStep s),
    actOn (d.entry.typ = 4) (modEcho fun x => match d.acts with
      | .payload a _ :: _ => { x with posts := tset x.posts (x.seq - 1) (a, d.entry) }
      | _ => x),
    actEach d.acts perform]

/-- Deliveries proceed in order while there is room, after the module's own entries that replay left waiting. -/
def kickLoop : Nat → Act
  | 0 => actNop
  | n + 1 => actGet id fun s =>
    match s.echo.late, echoRoom s with
    | e :: es, .put _ => actAll [modEcho fun x => { x with late := es }, appendEntry e, kickLoop n]
    | [], .put _ =>
      match s.echo.replay, s.echo.waiting with
      | false, d :: ds => actAll [modEcho fun x => { x with waiting := ds }, deliver d, kickLoop n]
      | _, _ => actNop
    | _, .wait => actNop

/-- Every waiting delivery that can proceed does. -/
def kick : Act := actGet (fun s => s.echo.late.length + s.echo.waiting.length) fun n => actSeq (kickLoop n) showStall

/-- Append an entry that is no input: it takes its place behind waiting deliveries, and replay does not hold it (R298); where the ring has no
room, it waits (R296). -/
def logEntry (e : EchoEntry) : Act :=
  actSeq (modEcho fun x => if x.replay then { x with late := x.late ++ [e] } else { x with waiting := x.waiting ++ [{ entry := e }] }) kick

/-! ### Replay (R298-R301, R305) -/

/-- Bytes of the source entry at a position (R298, R305, R322). -/
def sourceBytes (s : State) (pos : Nat) : List Byte :=
  let x := s.echo
  if x.recover then
    let q := x.src + pos
    match x.supply.find? fun r => r.2.1 ≤ q && q < r.2.1 + r.2.2 with
    | some r => s.bytes (hostMem (r.1 + 64 * (q - r.2.1))) 64
    | none => s.bytes (echoAddr s q) 64
  else s.bytes (x.src + 64 * pos) 64

/-- The next source entry, where replay has not reached its end (R300). -/
def nextSource (s : State) : Option (Nat × EchoEntry) :=
  let x := s.echo
  if x.srcLen ≤ x.pos then none
  else
    let p := parseEntry (sourceBytes s x.pos)
    if x.endSeq ≠ 0 ∧ x.endSeq ≤ p.1 then none else some p

/-- STEP of the source entry at the cursor. -/
def nextStep (s : State) : Nat := leAt (sourceBytes s s.echo.pos) 8 6

/-- Replay stops at a wrong entry: the flag, the fault, and ECHO_SEQ names it (R299). -/
def stopReplay (seq : Nat) (f : Fld) (code : Nat) : Act :=
  actAll [
    modEcho fun x => { x with stopped := true },
    setF .echoStatus f 1, setF .echoStatus F.echoStatus_REPLAY_ACTIVE 0,
    setPair .echoSeqLo .echoSeqHi seq,
    raiseFault { code }]

/-- Replay ends and the job continues live (R300, R305); a decided draw with no answer in the log now waits for the host (R171, R174). -/
def goLive : Act :=
  actAll [
    actWhen (fun s => s.echo.rmode) (modReg .echoJob fun w => w &&& ~~~0x400#32),
    modEcho fun x => { x with replay := false, rmode := false },
    setF .echoStatus F.echoStatus_REPLAY_ACTIVE 0,
    actGet (fun s => s.rows) fun rs => actEach rs fun p => actOn p.2.decided (setF (.svcCtrl p.1) F.svcCtrl_STATE 2),
    kick]

/-- The job freezes at the end of its source (R300). -/
def freezeAtEnd : Act :=
  actAll [
    modEcho fun x => { x with stopped := true },
    setF .echoStatus F.echoStatus_REPLAY_END 1, setF .echoStatus F.echoStatus_REPLAY_ACTIVE 0,
    modJob fun j => { j with phase := .frozen }, freezeTiles]

/-- The end of the source: the job goes on live, or freezes (R300); a recovery ends in its live work (R305). -/
def endReplay : Act := actIf (fun s => s.echo.liveAfter || s.echo.recover) goLive freezeAtEnd

/-- The cursor is at the end, and the job at its step: no source entry is left, or the entry that ECHO_REPLAY_END names is of a step that the job
has begun (R300, notes/assumptions/43.md). -/
def atEnd (s : State) : Bool := (nextSource s).isNone && (decide (s.echo.srcLen ≤ s.echo.pos) || decide (nextStep s ≤ s.job.step))

/-- Take the entry at the cursor: it is consumed, then its input takes effect. -/
def takeSource (seq : Nat) (e : EchoEntry) (acts : List DAct) : Act :=
  actAll [
    actGet nextStep fun st => consumed e seq st,
    modEcho fun x => { x with pos := x.pos + 1 },
    actEach acts perform]

/-- AGENT of the counter's allocation (R272). -/
def counterAgent (s : State) (c : Nat) : Nat := ((s.job.img.syncs.find? fun x => x.index = c).map SyncAlloc.agent).getD 0

/-- Note that the step wrote a region, with the stream whose output it carries (R288). -/
def noteWrite (region : Nat) : Act :=
  modJob fun j => if j.written.any fun p => p.1 = region then j
    else { j with written := j.written ++ [(region, Config.streamBuffer j.img.hdr.digest region)] }

/-- The first waiting live input of this type and agent. -/
def heldInput (s : State) (e : EchoEntry) : Option Delivery :=
  s.echo.waiting.find? fun d => d.entry.typ = e.typ && d.entry.agent = e.agent

/-- A payload that the program's own transfer or a peer has brought again is taken, once its digest is that of the entry (R298, R299). -/
def takeHeld (seq : Nat) (e : EchoEntry) (d : Delivery) : Act :=
  if d.entry.payload ≠ e.payload then stopReplay seq F.echoStatus_PAYLOAD_MISMATCH 0x94
  else actSeq (modEcho fun x => { x with waiting := x.waiting.erase d }) (takeSource seq e d.acts)

/-- The DMA_RD of a ring that has been in flight longest. -/
def readOn (s : State) (ring : Nat) : Option Transfer := s.hif.transfers.find? fun x => x.kind = 0 && x.ring = ring

/-- The payload of a DMA entry is read again from the host address in its AUX, for the transfer that the program has started again (R298). -/
def reread (seq : Nat) (e : EchoEntry) (x : Transfer) : Act :=
  actGet (fun s => s.bytes (hostMem e.aux) x.len) fun bs =>
    if digestNum bs ≠ e.payload then stopReplay seq F.echoStatus_PAYLOAD_MISMATCH 0x94
    else actAll [
      modHif fun h => { h with transfers := h.transfers.erase x },
      bumpGens x.addr x.len,
      noteWrite x.region,
      takeSource seq e [.payload (hbm x.addr) bs],
      actGet (fun s => s.fget (.dmaCfg (BitVec.ofNat 5 x.ring)) F.dmaCfg_VEC) signalVec]

/-- The image exchanges Roaster positions through this region (R216). -/
def isXchgRegion (s : State) (region : Nat) : Bool :=
  s.job.img.fe.mode = 2 && decide (s.job.img.fe.roaster.xchg ≠ 0) && !(Config.xchgLayout s.job.img.hdr.digest region).isEmpty

/-- The arrival that a BEXIR_DATA entry completes (R295, R365). -/
def arrivalOf (s : State) (e : EchoEntry) : Option Arrival :=
  s.net.arrivals.find? fun a => a.channel = e.agent / 2 ^ 16 && (a.src = none || a.src = some (e.agent % 2 ^ 16))

/-- A member that replays alone takes the payload from its host (R368; its place: notes/assumptions/43.md). -/
def hostData (seq : Nat) (e : EchoEntry) (a : Arrival) : Act :=
  actGet (fun s => s.bytes (hostMem (Config.replayAddr seq)) e.len) fun bs =>
    if digestNum bs ≠ e.payload then stopReplay seq F.echoStatus_PAYLOAD_MISMATCH 0x94
    else actGet (fun s => (regionOf s a.region, isXchgRegion s a.region)) fun o => actOpt o.1 fun r => actAll [
      modNet fun n => { n with arrivals := n.arrivals.erase a },
      noteWrite a.region,
      takeSource seq e (.payload (hbm r.base) bs :: if o.2 then [.hold a.region bs] else [])]

/-- A logged increment of a counter that the program's transfers and messages, or a peer's, advance again: theirs is no second one (R298). -/
def giveCount (c : Nat) : Act :=
  actGet (fun s => s.echo.waiting.find? fun d => d.entry.typ = 7 && d.entry.agent = c) fun o =>
    modEcho fun x => match o with
      | some d => { x with waiting := x.waiting.erase d }
      | none => { x with given := tset x.given c (tget x.given 0 c + 1) }

/-- An address of 64-byte grain in an INPUT region of the job, by a free value. -/
def someInput (s : State) (w : Nat) : Nat :=
  match s.job.img.regions.filter fun r => r.kind = 3 with
  | [] => 0
  | r :: rs =>
    let q := (r :: rs).getD (w % (rs.length + 1)) r
    q.base + w / (rs.length + 1) % max 1 (q.len / 64) * 64

/-- What the entry at the cursor does of itself, none where it waits for the program or for the outside (R298).  A GAP is skipped in a recovery,
and stops another replay (R300); the address of a POST that this module did not log is a free value (notes/assumptions/43.md). -/
def pushed (s : State) (seq : Nat) (e : EchoEntry) : Option Act :=
  let skip := modEcho fun x => { x with pos := x.pos + 1 }
  match e.typ with
  | 2 => some (actSeq skip (actEach allDies fun d => putSeed d (BitVec.ofNat 4 e.agent) (BitVec.ofNat 128 e.payload)))
  | 0x11 => some (if s.echo.recover then skip else stopReplay seq F.echoStatus_DIVERGE 0x93)
  | 4 =>
    let put := fun (a : Nat) => takeSource seq e [.payload a (leBytes e.len e.payload)]
    some (match tfind s.echo.posts seq with
      | some p => if p.2 = e then put p.1 else withFree fun w => put (hbm (someInput s w.toNat))
      | none => withFree fun w => put (hbm (someInput s w.toNat)))
  | 5 =>
    if e.agent = 0xFF then none
    else match heldInput s e with
      | some d => some (takeHeld seq e d)
      | none => if s.hif.linkUp then (readOn s e.agent).map (reread seq e) else none
  | 6 => if s.job.alone then (arrivalOf s e).map (hostData seq e) else (heldInput s e).map (takeHeld seq e)
  | 7 => some (actSeq (actOn (counterAgent s e.agent ≠ 1) (giveCount e.agent)) (takeSource seq e [.count e.agent e.aux]))
  | 9 =>
    if (s.row (BitVec.ofNat 9 e.agent)).decided then some (takeSource seq e [.answer e.agent e.aux]) else none
  | 13 => some (takeSource seq e [])
  | 3 => none
  | 8 => none
  | 10 => none
  | 11 => none
  | 12 => none
  | 0x0E => if s.echo.recover || decide (nextStep s ≤ s.job.step) then some skip else none
  | 0x0F => if s.echo.recover || decide (nextStep s ≤ s.job.step) then some skip else none
  | _ => some skip

/-- Nothing can change any more what the program consumes next: every tile has ended or is in a beat that only an input can end, and no
transfer, message or draw is on its way. -/
def replayStuck (s : State) : Bool :=
  s.hif.transfers.isEmpty && s.net.arrivals.isEmpty && !(s.rows.any fun p => p.2.decided) && !s.tiles.isEmpty &&
    s.tiles.all fun p => !p.2.hasRec || p.2.mode == .done ||
      (p.2.mode == .run && p.2.mid && !p.2.waits.isEmpty && p.2.waits.all fun w => match w with
        | .ge c _ => s.job.img.syncs.any fun x => x.index = c.toNat && x.cls = 1
        | _ => false)

/-- Source entries take effect in order, until one waits for the program or for the outside.  `past` passes the digests of later steps. -/
def advanceLoop (past : Bool) : Nat → Act
  | 0 => actNop
  | n + 1 => actGet id fun s =>
    if s.echo.replay && !s.echo.stopped && s.echo.late.isEmpty then
      match nextSource s with
      | none => actOn (s.echo.recover || atEnd s) endReplay
      | some (seq, e) =>
        match pushed s seq e with
        | some a => actSeq a (advanceLoop past n)
        | none =>
          if past && (e.typ = 0x0E || e.typ = 0x0F) then actSeq (modEcho fun x => { x with pos := x.pos + 1 }) (advanceLoop past n)
          else actOn (replayStuck s && jobLoaded s) (stopReplay seq F.echoStatus_DIVERGE 0x93)
    else actNop

def advance : Act := actGet (fun s => s.echo.srcLen - s.echo.pos + 1) (advanceLoop false)

/-- Room has appeared: waiting entries proceed, and replay with them (R296, R298). -/
def pump : Act := actSeq kick (actWhen (fun s => s.echo.replay) advance)

/-- External inputs arrive at the ingress, in order (R293); live inputs wait while replay runs (R298).  With no job loaded
there is no log, and they take effect at once. -/
def ingress (ds : List Delivery) : Act :=
  actIf (fun s => s.job.phase = .none || s.job.phase = .loading)
    (actEach ds fun d => actEach d.acts perform)
    (actSeq (modEcho fun x => { x with waiting := x.waiting ++ ds })
      (actIf (fun s => s.echo.replay) advance kick))

/-- An input that the program's own transfers and messages, or a peer's, make: an increment that replay has taken from the log already is
none (R298). -/
def ingressOwn (ds : List Delivery) : Act :=
  actEach ds fun d => actIf (fun s => d.entry.typ = 7 && decide (0 < tget s.echo.given 0 d.entry.agent))
    (modEcho fun x => { x with given := tset x.given d.entry.agent (tget x.given 0 d.entry.agent - 1) }) (ingress [d])

/-- A point where the program consumes an input of its own (R298): in replay it takes the next source entry, and one of
another TYPE or AGENT stops the replay (R299). -/
def consume (typ agent : Nat) (taken : Nat → EchoEntry → Act) (live : Act) : Act :=
  actSeq (actGet (fun s => s.echo.srcLen - s.echo.pos + 1) (advanceLoop true)) (actGet id fun s =>
    if !s.echo.replay then live
    else if s.echo.stopped then actNop
    else match nextSource s with
      | none => if s.echo.liveAfter then actSeq goLive live else freezeAtEnd
      | some (seq, e) =>
        if e.typ = typ ∧ e.agent = agent then actSeq (taken seq e) advance
        else stopReplay seq F.echoStatus_DIVERGE 0x93)

/-! ### Provenance (R286-R289) -/

/-- The lowest valid seed-store entry's seed, 0 when none is valid (R286). -/
def recordSeed (s : State) : U128 :=
  match (List.range 16).find? fun n => seedValid s 0 (BitVec.ofNat 4 n) with
  | some n => seedEntry s 0 (BitVec.ofNat 4 n)
  | none => 0

/-- MODE of the provenance record (R286). -/
def recordMode (s : State) : Nat :=
  s.job.img.hdr.grade % 2 + 2 * (s.fget .echoJob F.echoJob_CLASS) + 8 * (s.job.profile % 8) + 2 ^ 6 * s.fget .echoJob F.echoJob_FLAGS

/-- STEP and SEED of a record: those of the stream's context for a stream buffer (R286, R288). -/
def recordStep (s : State) (stream : Option Nat) : Nat :=
  match stream with
  | some n => s.pair (.svcPosLo (BitVec.ofNat 9 n)) (.svcPosHi (BitVec.ofNat 9 n))
  | none => moduleStep s
def recordSeedOf (s : State) (stream : Option Nat) : U128 :=
  match stream with
  | some n => svcSeedOf s (BitVec.ofNat 9 n)
  | none => recordSeed s

/-- The 128-byte record (R286), of a stream buffer or of none. -/
def provRecord (s : State) (stream : Option Nat) : List Byte :=
  leBytes 2 s.job.img.hdr.nsv ++ leBytes 2 (recordMode s) ++ leBytes 2 s.job.count ++ leBytes 6 (recordStep s stream) ++
    leBytes 4 s.echo.last ++ leBytes 16 (recordSeedOf s stream).toNat ++ leBytes 32 s.job.img.hdr.digest ++ digestBytes s.job.weights ++
    digestBytes s.job.chain

/-- The annex (R287). -/
def provAnnex (s : State) (stream : Option Nat) : List Byte :=
  let vs := (List.range 16).filter fun n => seedValid s 0 (BitVec.ofNat 4 n)
  leBytes 32 s.job.img.hdr.logical ++ leBytes 8 s.job.img.hdr.variant ++ leBytes 2 s.job.rank ++
    leBytes 2 (s.reg (.cgsStatus 0)).toNat ++ leBytes 2 (stream.getD 0xFFFF) ++ leBytes 2 0 ++
    vs.flatMap fun n => leBytes 16 (seedEntry s 0 (BitVec.ofNat 4 n)).toNat

/-- Records of the regions that the step wrote go to the last 512 bytes of each OUTPUT region (R288). -/
def writeRecords : Act :=
  actGet id fun s => actAll [
    actEach s.job.written fun p => actOpt (regionOf s p.1) fun r =>
      actOn (r.kind = 4 && decide (512 ≤ r.len)) (store (hbm (r.base + r.len - 512)) (provRecord s p.2 ++ provAnnex s p.2)),
    modJob fun j => { j with written := [] }]

end Sys2Proof.Machine
end

