-- ==== Sys2Proof/Machine/BxOps.lean ====
section
/-!
DEFINITION. Bexir's shared operations: frames, series and credits of a channel, messages, barriers (R357-R358, R363-R369, R372,
R373).
-/
namespace Sys2Proof.Machine

/-! ### Frames -/

/-- JOB_TAG: bytes 0-3 of the job's LOGICAL_DIGEST (R357). -/
def jobTag (s : State) : Nat := s.job.img.hdr.logical % 2 ^ 32

/-- What the module knows of a peer. -/
def State.peer (s : State) (r : Nat) : Peer := tget s.net.peers {} r

def modPeer (r : Nat) (f : Peer → Peer) : Act := modNet fun n => { n with peers := tset n.peers r (f (tget n.peers {} r)) }

/-- The series of a peer and channel (R367). -/
def State.chan (s : State) (r ch : Nat) : Chan := tget s.net.chans {} (r, ch)

def modChan (r ch : Nat) (f : Chan → Chan) : Act :=
  modNet fun n => { n with chans := tset n.chans (r, ch) (f (tget n.chans {} (r, ch))) }

/-- Ports that are up and whose partner belongs to the pod (R356, R359). -/
def portsUp (s : State) : List Nat :=
  (List.range 16).filter fun p => s.flag (.bxtPortStatus (BitVec.ofNat 4 p)) F.bxtPortStatus_UP && !s.net.miscabled.contains p

/-- The port that carries a peer's traffic: a hash of the rank over the ports that are up (R356). -/
def portFor (s : State) (r : Nat) : Option Nat :=
  let ps := portsUp s
  ps[r % ps.length]?

/-- The address of a rank in BXT_ROSTER (R360, R379). -/
def rosterAddr (s : State) (r : Nat) : Nat :=
  (List.range 4).foldl (fun n w => n + (s.reg (.bxtRoster (BitVec.ofNat 14 (4 * r + w)))).toNat * 2 ^ (32 * w)) 0

/-- The module's Bexir address: that of the LINK record, else its link-local one (R359, R407). -/
def ownAddr (s : State) : Nat := s.boot.cfg.addr.getD (Config.linkLocal s.otp.serial)

/-- The 32-byte header (R357). -/
def Frame.header (f : Frame) : List Byte :=
  leBytes 1 f.ver ++ leBytes 1 f.typ ++ leBytes 2 f.flags ++ leBytes 2 f.src ++ leBytes 2 f.dst ++ leBytes 4 f.tag ++ leBytes 2 f.channel ++
    leBytes 2 f.credit ++ leBytes 8 f.seq ++ leBytes 8 f.ack

/-- CRC32C over header and payload (R357). -/
def Frame.sum (f : Frame) : U32 := crc32c (f.header ++ f.payload)

/-- Host-assisted link bring-up: HIF_POLICY.LINK, as it was when the job was loaded (R351, R360). -/
def hostLink (s : State) : Bool := if jobLoaded s then s.job.hostLink else s.flag .hifPolicy F.hifPolicy_LINK

/-- Bytes of the Ethernet frame, from its header to its FCS (R355). -/
def Frame.size (f : Frame) : Nat := 14 + (if f.tagged.isSome then 4 else 0) + (if f.v4 then 20 else 40) + 8 + 32 + f.payload.length + 4 + 4

/-- The 802.1Q tag of a class: the VLAN and the PCP of the boot configuration (R355, R370). -/
def classTag (s : State) (express : Bool) : Option (Nat × Nat) :=
  s.boot.cfg.vlan.map fun v => (v, if express then s.boot.cfg.pcpExpress else s.boot.cfg.pcpPreempt)

/-- A frame as it leaves on a port (R355-R358, R370): the tag of its class, IPv6 or IPv4 with DF, the Bexir port as both UDP ports, a right UDP
checksum, and its CRC32C. -/
def dress (s : State) (port dest : Nat) (f : Frame) : Frame :=
  { f with
    port, dest, addr := ownAddr s, tagged := classTag s (decide (4 ≤ f.typ)), v4 := s.boot.cfg.v4, df := s.boot.cfg.v4,
    srcPort := s.fget .bxtCfg F.bxtCfg_UDP_PORT, dstPort := s.fget .bxtCfg F.bxtCfg_UDP_PORT, udpOk := true, crc := f.sum }

/-- A frame leaves on a port. -/
def putFrame (port dest : Nat) (f : Frame) : Act :=
  actGet (fun s => dress s port dest f) fun g => modNet fun n => { n with sent := n.sent ++ [g] }

/-- A frame leaves on the port of its target; with no port up it does not (R356). -/
def sendFrame (dst : Nat) (f : Frame) : Act :=
  actGet id fun s => actOpt (portFor s dst) fun p => putFrame p (rosterAddr s dst) f

/-- A frame of the running job to a rank: version of the pair, ranks, tag, and the channel's CREDIT and ACK (R357). -/
def jobFrame (s : State) (dst typ flags ch seq : Nat) (payload : List Byte) : Frame :=
  let c := s.chan dst ch
  { ver := (s.peer dst).ver, typ, flags, src := s.job.rank, dst, tag := jobTag s, channel := ch, credit := c.armed % 2 ^ 16,
    seq, ack := c.rxNext, payload }

/-- Send an express message, retransmitted until it is acknowledged (R358, R370, R372). -/
def sendExpress (dst typ : Nat) (payload : List Byte) : Act :=
  actGet (fun s => jobFrame s dst typ 0 0 0 payload) fun f => actSeq (sendFrame dst f) (modNet fun n => { n with unacked := n.unacked ++ [f] })

/-- Acknowledge an express message: a frame of its TYPE with ACK_ONLY (notes/assumptions/20.md). -/
def ackExpress (f : Frame) : Act :=
  actGet (fun s => jobFrame s f.src f.typ 1 0 0 f.payload) (sendFrame f.src)

/-- Every other rank of the job. -/
def otherRanks (s : State) : List Nat := (List.range s.job.count).filter (· ≠ s.job.rank)

/-- A datagram is counted as dropped at its port (R357). -/
def dropFrame (f : Frame) : Act := incReg (.bxtPortDrop (BitVec.ofNat 4 f.port))

/-- A datagram reaches Bexir: on a port that is up, within the frame size, with a right UDP checksum, at the Bexir port; others are none of
Bexir's, and nothing counts them (R355, R357, notes/assumptions/20.md). -/
def heard (s : State) (f : Frame) : Bool :=
  (portsUp s).contains f.port && decide (f.size ≤ 9216) && f.udpOk && decide (f.dstPort = s.fget .bxtCfg F.bxtCfg_UDP_PORT)

/-- The datagram's CRC, version and job tag are right (R357). -/
def frameOk (s : State) (f : Frame) : Bool :=
  decide (f.crc = f.sum) && decide (f.tag = jobTag s) && decide (f.ver = (s.peer f.src).ver)

/-- A frame of the job is accepted, or dropped and counted (R357); until the first HELLO, no other type comes (R361). -/
def withFrame (f : Frame) (typ : Nat) (a : Act) : Act :=
  actWhen (fun s => heard s f)
    (actIf (fun s => frameOk s f && decide (f.typ = typ) && s.job.phase != .none && (s.peer f.src).hello) a (dropFrame f))

/-- A frame of the job that only acknowledges an express message (notes/assumptions/20.md). -/
def ackOnly (f : Frame) : Bool := f.flags % 2 = 1

/-- An express message has been acknowledged. -/
def dropUnacked (f : Frame) : Act :=
  modNet fun n => { n with unacked := n.unacked.filter fun g => !(g.dst = f.src && g.typ = f.typ && g.payload = f.payload) }

/-! ### Channels (R365) -/

/-- The receiver's name of a channel that a frame carries: its sender's rank in place of its own (R365). -/
def localChan (f : Frame) : Nat := if f.channel.testBit 15 then f.channel else f.channel / 4096 * 4096 + f.src % 4096

/-- The peers of a channel: one rank, or the ranks of a group (R365, R369, R379). -/
def chanRanks (s : State) (ch : Nat) : List Nat :=
  if ch.testBit 15 then
    let g : BitVec 6 := BitVec.ofNat 6 ch
    let a := s.fget (.bxtMgroup g) F.bxtMgroup_FIRST
    let b := s.fget (.bxtMgroup g) F.bxtMgroup_LAST
    if s.flag (.bxtMgroup g) F.bxtMgroup_EN then (List.range (b + 1)).filter (a ≤ ·) else []
  else [ch % 4096]

/-- The ranks whose messages an arrival on a channel may take, and that its credit goes to: the peer, or every rank of the job, which may all
send to a group (R357, R365, R369). -/
def armRanks (s : State) (ch : Nat) : List Nat := if ch.testBit 15 then List.range s.job.count else [ch % 4096]

/-- Bytes of a region. -/
def regionBytes (s : State) (region : Nat) : List Byte :=
  match regionOf s region with
  | none => []
  | some r => s.bytes (hbm r.base) r.len

/-- Fragments of a message of `n` bytes (R358). -/
def fragCount (n : Nat) : Nat := max 1 (ceilDiv n 8192)

/-- A fragment of a region: its 16-byte head and up to 8,192 bytes (R358). -/
def fragment (region : Nat) (bs : List Byte) (i : Nat) : List Byte :=
  leBytes 2 region ++ leBytes 2 0 ++ leBytes 4 i ++ leBytes 8 (8192 * i) ++ (bs.drop (8192 * i)).take 8192

/-- Send fragment `i` of a message whose first fragment has SEQ `first`. -/
def sendFragment (dst ch region first i n : Nat) (bs : List Byte) (retx : Bool) : Act :=
  let typ := if ch.testBit 15 then 3 else 2
  actGet (fun s => jobFrame s dst typ (2 * b2n retx + 4 * b2n (i + 1 = n)) ch (first + i) (fragment region bs i)) (sendFrame dst)

/-- An arrival of its own message is armed beyond those sent (R366). -/
def hasCredit (s : State) (r ch : Nat) : Bool :=
  let c := s.chan r ch
  if r = s.job.rank then decide (c.sent < c.armed)
  else
    let d := (c.credit + 2 ^ 16 - c.sent % 2 ^ 16) % 2 ^ 16
    decide (0 < d) && decide (d < 2 ^ 15)

/-! ### Arrivals (R365, R369) -/

/-- The counter of a completed transfer takes 1 through the ingress, with its EXT_COUNT entry (R230, R365). -/
def countDelivery (c : Nat) : Delivery := { entry := { typ := 7, agent := c, aux := 1 }, acts := [.count c 1] }

/-- A whole message has landed: it is hashed and logged, its region and its counter follow (R365); positions of a LOCKSTEP exchange wait for
the barrier that closes it (R216).  A message of the wrong length is dropped, a fault. -/
def landMessage (src ch seq : Nat) (a : Arrival) (bs : List Byte) : Act :=
  actGet id fun s =>
    match regionOf s a.region with
    | none => raiseFault { code := 0x95 }
    | some r =>
      if bs.length ≠ r.len then raiseFault { code := 0x95 }
      else if a.async then (modNet fun n => { n with sets := tset n.sets (src, seq) (a.region, bs) })
      else actSeq (noteWrite a.region) (ingressOwn (
        { entry := { typ := 6, agent := src + 2 ^ 16 * ch, aux := seq, len := bs.length, payload := digestNum bs },
          acts := .payload (hbm r.base) bs :: (if isXchgRegion s a.region then [.hold a.region bs] else []) } ::
        (match a.counter with
          | some c => [countDelivery c]
          | none => [])))

/-- The first arrival armed on a channel that takes a fragment of this sender. -/
def arrivalFor (s : State) (src ch : Nat) : Option Arrival :=
  s.net.arrivals.find? fun a => a.channel = ch && (a.src = none || a.src = some src)

/-- A fragment in SEQ order goes to its arrival; the last one completes the message (R365, R367). -/
def acceptFragment (src ch seq : Nat) (off : Nat) (data : List Byte) (last : Bool) (a : Arrival) : Act :=
  let got := a.got ++ [(off, data)]
  let bs := got.foldl (fun (acc : List Byte) p => acc.take p.1 ++ List.replicate (p.1 - acc.length) 0 ++ p.2) []
  actAll [
    modChan src ch fun c => { c with rxNext := seq + 1 },
    (if last then actAll [
        modNet fun n =>
          let again := n.arrivals.map fun b => if b = a then { a with got := [], src := none } else b
          { n with arrivals := if a.async then again else n.arrivals.erase a },
        modChan src ch fun c => { c with arrived := c.arrived + 1, armed := c.armed + b2n a.async },
        landMessage src ch seq a bs]
      else modNet fun n => { n with arrivals := n.arrivals.map fun b => if b = a then { a with src := some src, got } else b })]

/-! ### Messages (R365, R366, R369) -/

/-- Fragments of a message delivered to the module itself, without a frame (R369). -/
def deliverSelf (ch : Nat) (bs : List Byte) (first : Nat) : Act :=
  actGet id fun s => actOpt (arrivalFor s s.job.rank ch) fun a => actAll [
    modNet fun n => { n with arrivals := n.arrivals.erase a },
    modChan s.job.rank ch fun c => { c with arrived := c.arrived + 1, acked := first + 1, rxNext := first + 1 },
    landMessage s.job.rank ch first a bs]

/-- Transmit a message to one target that has credit (R365-R367, R369). -/
def transmit (o : Outgoing) (r : Nat) : Act :=
  actGet id fun s =>
    let bs := regionBytes s o.region
    let first := (s.chan r o.channel).txNext
    let n := if r = s.job.rank then 1 else fragCount bs.length
    actAll [
      modChan r o.channel fun c => { c with txNext := first + n, sent := c.sent + 1 },
      modNet fun x => { x with outgoing := x.outgoing.map fun p =>
        if p.channel = o.channel && p.region = o.region && p.unsent.contains r then
          { p with unsent := p.unsent.erase r, last := tset p.last r (first + n - 1) } else p },
      (if r = s.job.rank then deliverSelf o.channel bs first
        else actEach (List.range n) fun i => sendFragment r o.channel o.region first i n bs false)]

/-- Every target of a message has acknowledged its last fragment. -/
def sendDone (s : State) (o : Outgoing) : Bool :=
  o.unsent.isEmpty && o.targets.all fun r => decide (tget o.last 0 r < (s.chan r o.channel).acked)

/-- A local counter that a barrier counts: each barrier whose threshold the counter meets sends BARRIER (R372). -/
def barrierReady (s : State) : Option Barrier :=
  s.net.barriers.find? fun b => decide (0 < b.desc.parts) &&
    decide ((b.sent + 1) * b.desc.parts ≤ (s.reg (.syncCnt (BitVec.ofNat 13 b.desc.counter))).toNat)

def modBarrier (bid : Nat) (f : Barrier → Barrier) : Act :=
  modNet fun n => { n with barriers := n.barriers.map fun b => if b.desc.id = bid then f b else b }

/-- The release margin in force (R380). -/
def relMargin (s : State) : Nat := max 200 (min 100000 (s.fget .ptpRelMargin F.ptpRelMargin_NS))

/-- PTP time, as the module last read it. -/
def ptpNow (s : State) : Nat := s.pair .ptpTimeLo .ptpTimeHi

/-- A barrier's counter advances in this member: an EXTERNAL increment, logged (R372). -/
def applyRelease (bid round : Nat) : Act :=
  actGet (fun s => s.net.barriers.find? fun b => b.desc.id = bid) fun o => actOpt o fun b => actAll [
    modBarrier bid fun x => { x with done := round, releases := x.releases.filter fun p => p.1 ≠ round },
    ingressOwn [countDelivery b.desc.ext]]

/-- A RELEASE with its time: scheduled, or applied late (R373). -/
def takeRelease (bid round time : Nat) : Act :=
  actGet (fun s => s.net.barriers.find? fun b => b.desc.id = bid) fun o => actOpt o fun b =>
    if round ≤ b.done || b.releases.any (fun p => p.1 = round) then actNop
    else actIf (fun s => s.flag .ptpStatus F.ptpStatus_LOCK && decide (ptpNow s < time))
      (modBarrier bid fun x => { x with releases := x.releases ++ [(round, time)] })
      (actSeq (incReg .bxtRelLate) (applyRelease bid round))

/-- The root holds a BARRIER of a rank; with every member's it releases (R372). -/
def holdBarrier (bid round rank : Nat) : Act :=
  actSeq (modBarrier bid fun b => if b.held.contains (rank, round) || decide (round ≤ b.done) then b else { b with held := (rank, round) :: b.held })
    (actGet id fun s =>
      actOpt (s.net.barriers.find? fun b => b.desc.id = bid) fun b =>
        actOn ((List.range s.job.count).all fun r => b.held.contains (r, round))
          (let time := ptpNow s + relMargin s
          actAll [
            modBarrier bid fun x => { x with held := x.held.filter fun p => p.2 ≠ round },
            actEach (otherRanks s) fun r => sendExpress r 5 (leBytes 4 bid ++ leBytes 4 round ++ leBytes 8 time),
            takeRelease bid round time]))

/-- Barriers whose local counter has met its threshold send BARRIER to their root (R372). -/
def barrierSendLoop : Nat → Act
  | 0 => actNop
  | n + 1 => actGet id fun s => actOpt (barrierReady s) fun b =>
    let round := b.sent + 1
    actAll [
      modBarrier b.desc.id fun x => { x with sent := round },
      (if b.desc.root = s.job.rank then holdBarrier b.desc.id round s.job.rank
        else sendExpress b.desc.root 4 (leBytes 4 b.desc.id ++ leBytes 4 round)),
      barrierSendLoop n]

/-- A local increase may meet the threshold of barriers; a member that replays alone takes releases from its log (R298). -/
def barrierCheck : Act := actGet (fun s => if s.job.alone then 0 else s.net.barriers.length) fun n => barrierSendLoop n

/-- A message's completion counts on its sync handle: an EXTERNAL counter through the ingress, or the local counter of a barrier
that an exchange closes with (R216, R365). -/
def sendCount (c : Nat) : Act :=
  actIf (fun s => s.net.barriers.any fun b => b.desc.counter = c)
    (actSeq (counterAdd (BitVec.ofNat 13 c) 1) barrierCheck) (ingressOwn [countDelivery c])

/-- Messages that are acknowledged everywhere complete (R365). -/
def completeSends : Act :=
  actGet id fun s => actAll [
    modNet fun n => { n with outgoing := n.outgoing.filter fun o => !sendDone s o },
    actEach (s.net.outgoing.filter (sendDone s)) fun o => actOpt o.counter sendCount]

/-- Credits and acknowledgments may let messages go on, complete, and release the beats that wait (R365, R369). -/
def pumpSends : Act :=
  actAll [
    actGet id fun s => actEach s.net.outgoing fun o => actEach o.unsent fun r =>
      actWhen (fun s => hasCredit s r o.channel) (transmit o r),
    actGet id fun s => actEach s.tiles fun p => actEach p.2.waits fun w =>
      match w with
      | .bxSend d => actOn (!(s.net.outgoing.any fun o => o.channel = d.p0 && o.region = d.p1 && !o.unsent.isEmpty)) (dropWait p.1 w)
      | _ => actNop,
    completeSends,
    settle]

/-- CREDIT and ACK of a frame (R357). -/
def takeAck (f : Frame) : Act :=
  let ch := localChan f
  actSeq
    (modChan f.src ch fun c => { c with
      acked := max c.acked f.ack,
      credit := if (f.credit + 2 ^ 16 - c.credit) % 2 ^ 16 < 2 ^ 15 then f.credit else c.credit })
    pumpSends

/-- An acknowledgment goes to a peer on a channel: DATA with ACK_ONLY (R357, R367). -/
def sendAck (r ch : Nat) : Act := actGet (fun s => jobFrame s r 2 1 ch 0 []) (sendFrame r)

/-- A DATA or MCAST frame (R365, R367, R369). -/
def takeData (f : Frame) : Act :=
  let ch := localChan f
  actSeq (takeAck f)
    (if f.flags % 2 = 1 then actNop
     else actGet id fun s =>
       let c := s.chan f.src ch
       let off := leAt f.payload 8 8
       if f.seq = c.rxNext then
         actOpt (arrivalFor s f.src ch) fun a =>
           actSeq (acceptFragment f.src ch f.seq off (f.payload.drop 16) (f.flags.testBit 2) a) (sendAck f.src ch)
       else actOn (decide (f.seq < c.rxNext)) (sendAck f.src ch))

/-! ### Membership (R363) -/

/-- A membership change reaches the host and the Echo log (R363). -/
def memberEvent (rank code : Nat) : Act :=
  actAll [
    incF .bxtEvents F.bxtEvents_ALL,
    actOn (code = 3) (incF .bxtEvents F.bxtEvents_LOST),
    mcEvent 5 [rank, code],
    signal 3,
    ingress [{ entry := { typ := 13, agent := rank, aux := code } }]]

/-- A member has left a running job, or is lost: the survivors freeze the job (R364), each member that goes being a fault of its own. -/
def memberGone (rank code : Nat) : Act :=
  actAll [
    modPeer rank fun p => { p with lost := p.lost || decide (code = 3), left := p.left || decide (code = 2), joined := false },
    memberEvent rank code,
    actWhen (fun s => !s.flt.ended && !s.job.alone) (raiseFault { code := 0, loc := rank })]

end Sys2Proof.Machine
end

