-- ==== Sys2Proof/Machine/Field.lean ====
section
/-!
DEFINITION. The field engine's commands (R66, R177-R197).
-/
namespace Sys2Proof.Machine

/-! ### Ledger entries through their code -/

/-- TILE_ECC_ADDR for a ledger entry (R71): SRC is 1. -/
def ledgerAddr (k : Nat) (ue : Bool) : U32 := BitVec.ofNat 32 (2 ^ 31 + b2n ue * 2 ^ 30 + k % 2 ^ 13)

/-- Evaluate one entry that a bank reads (R66, R191): a single error is corrected and counted, a double error is a fault, and
what it delivers is a free value (notes/assumptions/4.md). -/
def evalBank (t : TileId) (d : SpDesc) (k : Nat) (e : Entry) (ce ue : Bool) : Act :=
  if ue then actAll [
    setReg (.tileEccAddr t) (ledgerAddr k true),
    tileFault t F.tileErr_LEDGER_UE,
    withFree fun w => evalEntries t (d.sub % 4) (d.p1 % 2 ^ 16) [entryOf e.xe (w.toNat % 2 ^ 36)]]
  else actAll [
    actOn ce (actAll [
      incF (.tileEcc t) F.tileEcc_LEDGER_CE,
      setReg (.tileEccAddr t) (ledgerAddr k false),
      tileErr t F.tileErr_LEDGER_CE]),
    evalEntries t (d.sub % 4) (d.p1 % 2 ^ 16) [e]]

/-- Evaluate the entries that the bank mask selects (R191); `es` starts at entry index `first`. -/
def evalBanks (t : TileId) (d : SpDesc) (first : Nat) (es : List Entry) (ce ue : BitVec 16) : Act :=
  actEach es.zipIdx fun p =>
    actOn (d.p2.testBit p.2) (evalBank t d (first + p.2) p.1 (ce.getLsbD p.2) (ue.getLsbD p.2))

/-- FE_EVAL: entry F + i from each selected bank i into the accumulators of the named units (R191); the masks name the entries
whose code finds one wrong bit or two (R66). -/
def execFeEval (t : TileId) (sp : Nat) (ce ue : BitVec 16) (s : State) : Host.Outcome State Fault Refusal :=
  s.does (inBeat t (actGet (fun s => s.tile t) fun τ =>
    let d := spdOf τ sp
    evalBanks t d d.p0 ((τ.fe.entries.drop d.p0).take 16) ce ue))

/-- Bank and line of element `n` of a stream in its slack buffer (R269). -/
def bufferSlot (d : StreamDesc) (n : Nat) : Nat × Nat :=
  (d.bufBank + n % max 1 d.bufNbanks, d.bufLine + n / max 1 d.bufNbanks % max 1 d.bufLines)

/-- The next 16 entries of a ledger stream, where their lines have arrived (R182, R191): a block is a header line and 32 lines of
8 entries. -/
def evalStream (s : State) (t : TileId) (d : SpDesc) (ce ue : BitVec 16) : Option Act :=
  (streamOf s d.p0).bind fun st =>
    let τ := s.tile t
    let p := tget τ.fe.spos (0, 94, 0) d.p0
    let lineAt := fun (n : Nat) (k : Line → Act) => readWords t (bufferSlot st n).1 (bufferSlot st n).2 255 k
    let here := fun n => τ.full.contains (lineKey (bufferSlot st n).1 (bufferSlot st n).2)
    let open_ := decide (0 < p.2.2)
    let start := if open_ then p.1 else p.1 + 1
    if (if open_ then true else here p.1) && here start && here (start + 1) then
      let k := p.1 / 33 * 256 + (start - 1 - p.1 / 33 * 33) * 8
      let body := fun (x left : Nat) => lineAt start fun b0 => lineAt (start + 1) fun b1 =>
        let bs := lineBytes b0 ++ lineBytes b1
        let es := (List.range (min 16 left)).map fun i => entryOf x (leAt bs (8 * i) 8)
        let left' := left - 16
        let next := if left' = 0 then ceilDiv (start + 2) 33 * 33 else start + 2
        let gone := (List.range (next - p.1)).map fun i => lineKey (bufferSlot st (p.1 + i)).1 (bufferSlot st (p.1 + i)).2
        actAll [
          evalBanks t d k es ce ue,
          modTile t fun τ => { τ with
            full := τ.full.filter fun q => !gone.contains q
            fe := { τ.fe with spos := tset τ.fe.spos d.p0 (next, x, left') } }]
      some (if open_ then body p.2.1 p.2.2
        else lineAt p.1 fun h => body (leAt (lineBytes h) 0 1) (min 256 (leAt (lineBytes h) 2 2)))
    else none

/-- FE_SEVAL: evaluate the next 16 entries of the stream, or wait for them (R31, R191). -/
def execFeSeval (t : TileId) (sp : Nat) (ce ue : BitVec 16) (s : State) : Host.Outcome State Fault Refusal :=
  s.does (inBeat t (actGet (fun s => spdOf (s.tile t) sp) fun d => actGet (fun s => evalStream s t d ce ue) fun o =>
    match o with
    | some a => a
    | none => actSeq (countLate t) (addWait t (.seval d ce ue))))

/-! ### Updates -/

/-- β is +0, -0 or a finite value in (0, 2^24] (R188). -/
def betaOk (b : U32) : Bool := isZero32 b || (fle b 0x4B800000 && flt 0 b)

/-- β outside its range: the units stay unchanged, a fault (R188). -/
def betaFault (t : TileId) : Act :=
  actAll [setF (.feFault (dieOf t)) F.feFault_BETA_INVALID 1, raiseFault { code := 0x8C, die := (dieOf t).toNat, loc := t.toNat }]

/-- `round_ne(round_ne(2β) h)` (R188). -/
def thresholdOf (beta : U32) (u : FeUnit) : U32 := mulR (mulR 0x40000000 beta) u.field

/-- The 24-bit draw of a unit (R189, R190): STRM is its chain, e its variable. -/
def unitU24 (τ : Tile) (d : SpDesc) (slot : Nat) (u : FeUnit) : Nat := cgU24 (τ.seed slot) τ.step d.site u.chain u.var

/-- FE_SWEEP: the lowest END count over the die's tiles that issue END updates (R192). -/
def showSweep (die : DieId) : Act :=
  actGet (fun s => lowestEnds s fun t => dieOf t = die) fun n => setPair (.feSweepLo die) (.feSweepHi die) n

/-- The units that an update names: mask and group of P0 (R261). -/
def updateUnits (τ : Tile) (d : SpDesc) : List (Nat × FeUnit) := namedUnits τ.fe (d.p0 / 2 ^ 16 % 4) (d.p0 % 2 ^ 16)

/-- The END flag of an update (R192, R261). -/
def endFlag (t : TileId) (d : SpDesc) (mode : Nat) : Act :=
  actOn (d.p1.testBit 0) (actSeq (tileEnd t mode) (showSweep (dieOf t)))

/-- PC_UPDATE: each named unit outside a one-hot group takes +1 where t exceeds its logistic draw, else -1 (R188, R189, R191). -/
def execPcUpdate (t : TileId) (sp slot : Nat) (s : State) : Host.Outcome State Fault Refusal :=
  s.does (inBeat t (actGet (fun s => s.tile t) fun τ =>
    let d := spdOf τ sp
    let beta := lane (τ.vreg d.vreg) 0
    if betaOk beta then actSeq
      (actEach ((updateUnits τ d).filter fun p => p.2.group = 0) fun p =>
        let l := tableEval 3 (unitU24 τ d slot p.2)
        setUnit t 1 p.1 { p.2 with s := flt l (thresholdOf beta p.2) })
      (endFlag t d 1)
    else betaFault t))

/-- Key of a member of a one-hot group (R190). -/
def groupKey (τ : Tile) (d : SpDesc) (slot : Nat) (beta : U32) (u : FeUnit) : U32 :=
  addR (thresholdOf beta u) (tableEval 1 (unitU24 τ d slot u))

/-- The unit of the member with the largest key, from (unit, variable, key); on equal keys the one with the lowest variable index, and of two
chains' copies of one variable the first unit (R190, notes/assumptions/65.md). -/
def groupWinner : List (Nat × Nat × U32) → Option (Nat × Nat × U32)
  | [] => none
  | x :: xs =>
    match groupWinner xs with
    | none => some x
    | some w => if flt x.2.2 w.2.2 || (!flt w.2.2 x.2.2 && decide (w.2.1 < x.2.1)) then some w else some x

/-- PC_OHDRAW: the member of the group with the largest key becomes +1 and every other -1 (R190).  The group is that of the
first named unit; all of its members are updated. -/
def execPcOhdraw (t : TileId) (sp slot : Nat) (s : State) : Host.Outcome State Fault Refusal :=
  s.does (inBeat t (actGet (fun s => s.tile t) fun τ =>
    let d := spdOf τ sp
    let beta := lane (τ.vreg d.vreg) 0
    let g := (((updateUnits τ d).filter fun p => p.2.group ≠ 0).head?.map fun p => p.2.group).getD 0
    let ms := τ.fe.units.filter fun p => g ≠ 0 && p.2.group = g
    if betaOk beta then actSeq
      (actOpt (groupWinner (ms.map fun p => (p.1, p.2.var, groupKey τ d slot beta p.2))) fun w =>
        actEach ms fun p => setUnit t 1 p.1 { p.2 with s := p.1 = w.1 })
      (endFlag t d 1)
    else betaFault t))

/-! ### Rotation -/

/-- Rotation entries that a tile has entered. -/
def FeTile.entered (f : FeTile) (len : Nat) : Nat :=
  match f.rot with
  | none => 0
  | some i => f.passes * len + i + 1

/-- The module writes back the outgoing block: the units of every tile that has not entered the next one (R195). -/
def writeOutgoing (base n : Nat) : Act :=
  actGet (fun s => (s.tiles.filter fun p => p.2.fe.entered s.job.img.fe.rotation.length ≤ n).map Prod.fst) fun ts =>
    actEach ts fun t => writeBack t base

/-- FE_ROT: write back the outgoing block; load the incoming ledger and check it; read its states; evaluate its boundary (R195, R214).  The
state vector lies in the region that the descriptor names (R261); the target and the unit mask select nothing, since R195 moves every unit
(notes/assumptions/50.md). -/
def execFeRot (a : SpAt) (s : State) : Host.Outcome State Fault Refusal :=
  let t := a.tile
  s.does (inBeat t (actGet (fun s => s.job.img.fe) fun d => actGet (fun s => (s.tile t).fe) fun f =>
    actGet (fun s => regionBase s (spdOf (s.tile t) a.sp).p0) fun base =>
    let len := d.rotation.length
    let n := f.entered len
    let i := n % len
    let block := d.blockAt (some i)
    let passes := n / len
    actOn (!d.rotation.isEmpty) (actAll [
      writeOutgoing base n,
      reloadBlock t block,
      enterUnits t block base,
      fillSources t base,
      addBoundary t block,
      modFe t fun f => { f with rot := some i, passes },
      setReg (.feRot (dieOf t)) (BitVec.ofNat 32 (min 0xFFFF passes * 2 ^ 16 + i % 2 ^ 12))])))

/-! ### Readout -/

/-- Units that FE_STORE and FE_MAGCLR name: mask and group in P1 (R261). -/
def storeUnits (τ : Tile) (d : SpDesc) : List (Nat × FeUnit) := namedUnits τ.fe (d.p1 / 2 ^ 16 % 4) (d.p1 % 2 ^ 16)

/-- Write one unit's state, counter or pair (R196, R206). -/
def storeUnit (fe : FeDesc) (target base : Nat) (u : FeUnit) : Act :=
  match target with
  | 0 => putMemBit (stateAddr base fe.nvar u.var u.chain) (u.var % 8) (u.up fe.mode)
  | 1 => store (hbm (base + (u.var + u.chain * fe.nvar) * 4)) (leBytes 4 u.cnt)
  | _ => store (pairAddr base fe.nvar u.var u.chain) (leBytes 4 u.x.toNat ++ leBytes 4 u.y.toNat)

/-- FE_STORE: states into the state vector, +1 counters into the counter region, or pairs into the position region, for the
named units (R196, R206). -/
def execFeStore (t : TileId) (sp : Nat) (s : State) : Host.Outcome State Fault Refusal :=
  s.does (inBeat t (actGet (fun s => s.tile t) fun τ =>
    let d := spdOf τ sp
    actGet (fun s => (s.job.img.fe, regionBase s d.p0)) fun p => actSeq
      (actEach (storeUnits τ d) fun u => storeUnit p.1 d.sub p.2 u.2)
      (noteWrite d.p0)))

/-- The slice with the +1 counters of named units at 0, whether they hold a variable of the resident block or not (R196). -/
def FeTile.clearCounts (f : FeTile) (g mask : Nat) : FeTile :=
  let named := fun (u : Nat) => decide (u / 16 = g) && mask.testBit (u % 16)
  { f with
    units := f.units.map fun p => (p.1, if named p.1 then { p.2 with cnt := 0 } else p.2)
    idle := f.idle.filter fun p => !named p.1 }

/-- FE_MAGCLR: clear the +1 counters of the named units (R196). -/
def execFeMagclr (t : TileId) (sp : Nat) (s : State) : Host.Outcome State Fault Refusal :=
  s.does (inBeat t (actGet (fun s => spdOf (s.tile t) sp) fun d => modFe t fun f => f.clearCounts (d.p1 / 2 ^ 16 % 4) (d.p1 % 2 ^ 16)))

end Sys2Proof.Machine
end

