-- ==== Sys2Proof/Machine/Sync.lean ====
section
/-!
DEFINITION. The commands of the SY slot (R229-R233, R266).
-/
namespace Sys2Proof.Machine

/-- The counter that a sync handle of the tile names (R266). -/
def handleOf (τ : Tile) (h : Nat) : BitVec 13 := BitVec.ofNat 13 (τ.trec.handles.getD h 0)

/-- A sync value register (R258). -/
def Tile.svreg (τ : Tile) (v : Nat) : U32 := tget τ.sv (BitVec.ofNat 32 (τ.trec.svInit.getD v 0)) v

/-- STEPV: the register's SV_STEP is added after use (R266). -/
def stepSv (t : TileId) (v : Nat) (stepv : Bool) : Act :=
  actOn stepv (modTile t fun τ => { τ with sv := tset τ.sv v (τ.svreg v + BitVec.ofNat 32 (τ.trec.svStep.getD v 0)) })

/-- One sync operation of a tile's beat: the counter and the value it names. -/
def syncOp (t : TileId) (h v : Nat) (stepv : Bool) (k : BitVec 13 → U32 → Act) : Act :=
  inBeat t (actGet (fun s => s.tile t) fun τ => actSeq (stepSv t v stepv) (k (handleOf τ h) (τ.svreg v)))

/-- SET: the counter takes the value; while a WAIT_GE is pending on it, a fault (R229, R231). -/
def execSet (t : TileId) (handle vreg : Nat) (stepv : Bool) (s : State) : Host.Outcome State Fault Refusal :=
  s.does (syncOp t handle vreg stepv fun c v => actSeq (counterSet c v) barrierCheck)

/-- INC: the counter increases by 1 (R229). -/
def execInc (t : TileId) (handle : Nat) (s : State) : Host.Outcome State Fault Refusal :=
  s.does (syncOp t handle 0 false fun c _ => actSeq (counterAdd c 1) barrierCheck)

/-- ADD: the counter increases by bits [15:0] of the register (R229, R266). -/
def execAdd (t : TileId) (handle vreg : Nat) (stepv : Bool) (s : State) : Host.Outcome State Fault Refusal :=
  s.does (syncOp t handle vreg stepv fun c v => actSeq (counterAdd c (v.toNat % 2 ^ 16)) barrierCheck)

/-- WAIT_GE: an input of the beat that arrives when the counter is at least the threshold (R229). -/
def execWaitGe (t : TileId) (handle vreg : Nat) (stepv : Bool) (s : State) : Host.Outcome State Fault Refusal :=
  s.does (syncOp t handle vreg stepv fun c v =>
    actIf (fun s => v.toNat ≤ (s.reg (.syncCnt c)).toNat) actNop (addWait t (.ge c v)))

end Sys2Proof.Machine
end

