-- ==== Sys2Proof/Machine/Roaster.lean ====
section
/-!
DEFINITION. The Roaster's commands (R199-R219).
-/
namespace Sys2Proof.Machine

/-! ### Profile (R207, R208) -/

/-- A curve between its first and its last point: the value is rounded also where a point lies at the iteration (R208). -/
def curveIn : List (Nat × U32) → Nat → U32
  | [], _ => 0
  | [p], _ => p.2
  | p :: q :: ps, i =>
    if i < q.1 then addR p.2 (mulR (subR q.2 p.2) (quotR (i - p.1) (q.1 - p.1))) else curveIn (q :: ps) i

/-- A curve at an iteration: the first value up to the first point, the last from the last one on (R208). -/
def curve (pts : List (Nat × U32)) (i : Nat) : U32 :=
  match pts.head?, pts.getLast? with
  | some a, some b => if i ≤ a.1 then a.2 else if b.1 ≤ i then b.2 else curveIn pts i
  | _, _ => 0

/-- T, a and g of an iteration (R208). -/
def roastParams (fe : FeJob) (dt : U32) (i : Nat) : U32 × U32 × U32 :=
  let t := curve fe.tpt i
  (t, curve fe.apt i, sqrtR (mulR (mulR 0x40000000 t) dt))

/-- RS_PARAM of a die (R219). -/
def showParams (d : DieId) (i : Nat) : Act :=
  actGet (fun s => roastParams s.job.fe s.job.img.fe.roaster.dt i) fun p =>
    actAll [setReg (.rsParamT d) p.1, setReg (.rsParamA d) p.2.1, setReg (.rsParamG d) p.2.2]

/-- The highest END count of a die's tiles: the iteration that the first of them may be in (R208). -/
def highestEnds (s : State) (d : DieId) : Nat :=
  (s.tiles.filter fun p => dieOf p.1 = d).foldl (fun n p => max n p.2.fe.ends) 0

/-- PROFILE_PARAMS: a die's profile unit computes the parameters of its current iteration (R208). -/
def execProfileParams (d : DieId) (s : State) : Host.Outcome State Fault Refusal :=
  s.does (actWhen (fun s => s.job.phase != .none && s.job.img.fe.mode = 2) (actGet (fun s => highestEnds s d) (showParams d)))

/-! ### The update (R201-R206) -/

/-- A position and momentum after the update, none where either is not finite (R201, R202), with the flags of its operations (R91, R93); the test
comes before the wall (notes/assumptions/22.md). -/
def roastUpdate (a0 c0 dt dta0 a g n h x y : U32) : Option (U32 × U32) × FpFlags :=
  let ch := fmul .rne c0 h
  let da := fsub .rne a0 a
  let dx := fmul .rne da.1 x
  let f := fsub .rne ch.1 dx.1
  let df := fmul .rne dt f.1
  let y1 := fadd .rne y df.1
  let gn := fmul .rne g n
  let y2 := fadd .rne y1.1 gn.1
  let dy := fmul .rne dta0 y2.1
  let x2 := fadd .rne x dy.1
  (if !isFin32 x2.1 || !isFin32 y2.1 then none
    else if fle 0x3F800000 (abs32 x2.1) then some (0x3F800000 ||| (x2.1 &&& 0x80000000), 0)
    else some (x2.1, y2.1),
  [ch, da, dx, f, df, y1, gn, y2, dy, x2].foldl (fun fl p => fl.or p.2) {})

/-- The update of one unit in iteration `k` of its step (R201, R203). -/
def unitUpdate (s : State) (τ : Tile) (d : SpDesc) (slot : Nat) (u : FeUnit) : Option (U32 × U32) × FpFlags :=
  let r := s.job.img.fe.roaster
  let p := roastParams s.job.fe r.dt τ.fe.ends
  let k := τ.fe.ends - τ.fe.ends0
  let n := tableEval 2 (cgU24 (τ.seed slot) τ.step d.site u.chain (k * 2 ^ 28 + u.var))
  roastUpdate r.a0 s.job.fe.c0 r.dt s.job.fe.dta0 p.2.1 p.2.2 n u.field u.x u.y

/-- RS_STATUS of the tile's die and the fault (R202, R205). -/
def roastFault (t : TileId) (f : Fld) (code : Nat) : Act :=
  actAll [setF (.rsStatus (dieOf t)) f 1, raiseFault { code, die := (dieOf t).toNat, loc := t.toNat }]

/-- RS_ITER: the lowest END count over the module's tiles that issue END updates, on every die (R205). -/
def showIter : Act :=
  actGet (fun s => lowestEnds s fun _ => true) fun n => actEach allDies fun d => setReg (.rsIter d) (BitVec.ofNat 32 n)

/-- RS_UPDATE: the named units move; an END that would pass 2^32 - 1 does not complete (R201-R206). -/
def execRsUpdate (t : TileId) (sp slot : Nat) (s : State) : Host.Outcome State Fault Refusal :=
  s.does (inBeat t (actGet (fun s => s.tile t) fun τ => actGet id fun s =>
    let d := spdOf τ sp
    let us := updateUnits τ d
    if d.p1.testBit 0 && decide (2 ^ 32 ≤ τ.fe.ends + 1) then roastFault t F.rsStatus_ITER_WRAP 0x83
    else actAll [
      actEach us fun p => actOpt (unitUpdate s τ d slot p.2).1 fun v => setUnit t 2 p.1 { p.2 with x := v.1, y := v.2 },
      actEach us fun p => tileFp t (unitUpdate s τ d slot p.2).2,
      actOn (us.any fun p => (unitUpdate s τ d slot p.2).1.isNone) (roastFault t F.rsStatus_NONFINITE 0x82),
      actOn (d.p1.testBit 0) (actSeq (tileEnd t 2) showIter)]))

/-! ### The energy trace (R211-R213) -/

/-- Fields of a tile's units from its couplings alone, with a contribution per entry; the base, which holds the bias and the boundary field, is
counted apart (R195, R211, notes/assumptions/23.md). -/
def couplingField (d : FeDesc) (f : FeTile) (c : Entry → Int) (u : Nat) : Int :=
  ((f.entries ++ f.streamed).filter fun e => e.tgt = u && !isBoundary d (d.blockAt f.rot) f e).foldl (fun a e => a + c e) 0

/-- E_ROUND and E_CONT of a tile's units of one chain (R211). -/
def tileEnergy (s : State) (t : TileId) (cont : Bool) (ch : Nat) : Int × Int :=
  let f := (s.tile t).fe
  let d := s.job.img.fe
  let us := f.units.filter fun p => p.2.chain = ch
  let er := us.foldl (fun a p =>
    let v := 2 * p.2.base + couplingField d f (signContribution s t) p.1
    if p.2.up 2 then a - v else a + v) 0
  let ec := us.foldl (fun a p => a - fieldProd (2 * p.2.base + couplingField d f (contribution s t 2) p.1) p.2.x 0) 0
  (er, if cont then ec else 0)

/-- A 64-byte sample or record (R212, R213). -/
def sampleBytes (step iter ch block flags : Nat) (coord : Option Nat) (er ec : Int) : List Byte :=
  leBytes 8 step ++ leBytes 4 iter ++ leBytes 4 ch ++ leBytes 2 block ++ leBytes 2 flags ++ leBytes 2 (coord.getD 0) ++
    leBytes 10 0 ++ leBytes 16 (wrapInt 128 er) ++ leBytes 16 (wrapInt 128 ec)

/-- Write a sample to the next free slot; one beyond TRACE_CAP is dropped (R212). -/
def putSample (bs : List Byte) : Act :=
  actGet (fun s => (s.job.img.fe.roaster, s.job.fe.trace)) fun p =>
    if p.1.traceCap ≤ p.2 then actAll [setF (.rsStatus 0) F.rsStatus_TRACE_FULL 1, incReg (.rsTraceDrop 0)]
    else actAll [
      store (hbm (p.1.traceBase + 64 * p.2)) bs,
      modJob fun j => { j with fe := { j.fe with trace := p.2 + 1 } },
      setReg (.rsTraceCount 0) (BitVec.ofNat 32 (p.2 + 1))]

/-- Tiles whose units make up the module's energy. -/
def energyTiles (s : State) : List Nat :=
  (List.range 2048).filter fun t => !(s.tile (BitVec.ofNat 11 t)).fe.units.isEmpty

/-- The samples of one iteration, once every tile has contributed (R211-R213). -/
def emitTrace (step iter : Nat) : Act :=
  actGet id fun s =>
    let d := s.job.img.fe
    let r := d.roaster
    let parts := s.job.fe.sums.filter fun p => p.1 = iter
    let ts := energyTiles s
    let block := d.blockAt ((ts.head?.map fun t => (s.tile (BitVec.ofNat 11 t)).fe.rot).getD none)
    let flags := b2n r.cont + 2 * b2n (!d.rotation.isEmpty)
    let sum := fun (xs : List (Nat × Nat × Nat × Int × Int)) =>
      xs.foldl (fun (a : Int × Int) p => (a.1 + p.2.2.2.1, a.2 + p.2.2.2.2)) (0, 0)
    actOn (ts.all fun t => parts.any fun p => p.2.2.1 = t) (actAll [
      modJob fun j => { j with fe := { j.fe with sums := j.fe.sums.filter fun p => p.1 ≠ iter } },
      (if r.traceRaw then actEach ts fun t => actEach (List.range d.nchain) fun ch =>
          let v := sum (parts.filter fun p => p.2.1 = ch && p.2.2.1 = t)
          putSample (sampleBytes step iter ch block flags (some t) v.1 v.2)
        else actEach (List.range d.nchain) fun ch =>
          let v := sum (parts.filter fun p => p.2.1 = ch)
          putSample (sampleBytes step iter ch block flags none v.1 v.2))])

/-- RS_ENERGY: the tile's part of both energies goes to the combiners, its accumulators reload from their bases, and the trace
point is written when every tile's part is there (R211-R213).  The descriptor's target, region and unit mask (R261) select nothing: R211 sums over
every unit (notes/assumptions/23.md). -/
def execRsEnergy (t : TileId) (s : State) : Host.Outcome State Fault Refusal :=
  s.does (inBeat t (actGet (fun s => s.tile t) fun τ => actGet id fun s =>
    let d := s.job.img.fe
    let i := τ.fe.ends
    actAll [
      actOn (decide (d.roaster.traceInt ≠ 0)) (actSeq
        (actGet (fun s => (s.job.fe.sums.filter fun p => !(p.1 = i && p.2.2.1 = t.toNat)) ++
            (List.range d.nchain).map fun ch => (i, ch, t.toNat, tileEnergy s t d.roaster.cont ch)) fun xs =>
          modJob fun j => { j with fe := { j.fe with sums := xs } })
        (emitTrace τ.step i)),
      modFe t fun f => { f with units := f.units.map fun p => (p.1, { p.2 with acc := p.2.base }) }]))

/-! ### Exchange (R216, R217) -/

/-- The position of a (chain, variable) that the module holds. -/
def ownPosition (s : State) (p : Nat × Nat) : Option U32 :=
  s.tiles.findSome? fun q => (q.2.fe.units.find? fun u => u.2.chain = p.1 && u.2.var = p.2).map fun u => u.2.x

/-- The module's boundary positions go into their region (R216). -/
def storePositions (region : Nat) : Act :=
  actGet id fun s => actOpt (regionOf s region) fun r =>
    actEach (Config.xchgLayout s.job.img.hdr.digest region).zipIdx fun p =>
      actOpt (ownPosition s p.1) fun x =>
        actOn (decide (4 * p.2 + 4 ≤ r.len)) (store (hbm (r.base + 4 * p.2)) (leBytes 4 x.toNat))

/-- A message of a whole region to the targets of its channel; the beat waits until every target has armed an arrival
(R365, R369).  A member that replays alone has no targets, and its log holds the completion (R298, R368). -/
def startSend (t : TileId) (d : SpDesc) : Act :=
  actWhen (fun s => !s.job.alone) (actGet (fun s => (handleOf (s.tile t) d.p2).toNat) fun c => actAll [
    actGet id fun s => modNet fun n => { n with outgoing := n.outgoing ++ [
      { channel := d.p0, region := d.p1, counter := some c, targets := chanRanks s d.p0, unsent := chanRanks s d.p0 }] },
    addWait t (.bxSend d),
    pumpSends])

/-- ANNEAL_XCHG_LOCK: every E iterations the boundary positions go out as DATA, and the handle's counter takes part in the
barrier that closes the exchange (R216). -/
def execAnnealXchgLock (t : TileId) (sp : Nat) (s : State) : Host.Outcome State Fault Refusal :=
  s.does (inBeat t (actGet (fun s => s.tile t) fun τ =>
    let d := spdOf τ sp
    actWhen (fun s => τ.fe.ends % max 1 s.job.img.fe.roaster.e = 0) (actAll [
      storePositions d.p1,
      modNet fun n => let c := (handleOf τ d.p2).toNat; { n with closing := if n.closing.contains c then n.closing else c :: n.closing },
      startSend t d])))

/-- The most recent complete set of a peer. -/
def latestSet (s : State) (rank : Nat) : Option (Nat × Nat × List Byte) :=
  let xs := s.net.sets.filter fun p => p.1.1 = rank
  let top := xs.foldl (fun n p => max n p.1.2) 0
  (tfind xs (rank, top)).map fun p => (top, p.1, p.2)

/-- A set is consumed: logged in live running, its positions reach the source tables, older sets go (R217, R295). -/
def takeSet (rank iter : Nat) (x : Nat × Nat × List Byte) : Act :=
  let seq := x.1
  let keep : Act := actAll [
    modNet fun n => { n with sets := n.sets.filter fun p => !(p.1.1 = rank && decide (p.1.2 ≤ seq)) },
    modJob fun j => { j with fe := { j.fe with taken := tset j.fe.taken rank x } }]
  actSeq (consume 0x0A rank (fun sq e => takeSource sq e [.ghost x.2.1 x.2.2])
    (ingress [{ entry := { typ := 0x0A, agent := rank, aux := seq, payload := iter }, acts := [.ghost x.2.1 x.2.2] }])) keep

/-- The set of a peer with this sequence number: one that has arrived, or the one taken last (R217, R218). -/
def setAt (s : State) (rank seq : Nat) : Option (Nat × Nat × List Byte) :=
  match tfind s.net.sets (rank, seq) with
  | some p => some (seq, p.1, p.2)
  | none => (tfind s.job.fe.taken rank).filter fun x => x.1 = seq

/-- The set of a peer that the next iteration takes: the most recent one, which may be the one taken before; in replay the one that the next
source entry names, brought by the host where this member replays alone (R217, R298, R368).  Before the first set there is none to take (notes/assumptions/65.md). -/
def setFor (s : State) (region rank : Nat) : Option (Nat × Nat × List Byte) :=
  if s.echo.replay then
    match nextSource s with
    | some (q, e) =>
      if e.typ = 0x0A ∧ e.agent = rank then
        if s.job.alone then some (e.aux, region, s.bytes (hostMem (Config.replayAddr q)) (((regionOf s region).map Region.len).getD 0))
        else setAt s rank e.aux
      else none
    | none => none
  else (latestSet s rank).orElse fun _ => tfind s.job.fe.taken rank

/-- The set that replay must take next has not arrived: the operation cannot run yet. -/
def setMissing (s : State) : Bool :=
  s.echo.replay && !s.job.alone && (match nextSource s with
    | some (_, e) => e.typ = 0x0A && (setAt s e.agent e.aux).isNone
    | none => false)

/-- The ASYNC arrivals of a channel stay armed (R217, R365). -/
def armAsync (ch region : Nat) : Act :=
  actGet id fun s => actEach ((armRanks s ch).filter (· ≠ s.job.rank)) fun r =>
    let c := if ch.testBit 15 then ch else ch / 4096 * 4096 + r
    actOn (!(s.net.arrivals.any fun a => a.async && a.channel = c)) (actAll [
      modNet fun n => { n with arrivals := n.arrivals ++ [{ channel := c, region, counter := none, async := true }] },
      modChan r c fun x => { x with armed := x.armed + 1 },
      sendAck r c])

/-- One ASYNC message to one peer, or a skip where it has no credit (R217, R366). -/
def sendAsync (ch region rank : Nat) : Act :=
  actIf (fun s => hasCredit s rank ch)
    (actSeq
      (modNet fun n => { n with outgoing := n.outgoing ++ [
        { channel := ch, region, counter := none, targets := [rank], unsent := [rank], async := true }] })
      (actGet (fun s => s.net.outgoing.find? fun o => o.async && o.channel = ch && o.unsent = [rank]) fun o => actOpt o fun o => transmit o rank))
    (incReg (.rsXchgSkip 0))

/-- ANNEAL_XCHG_ASYNC: send the boundary positions where there is credit, and take the most recent complete set of each peer
for the next iteration (R217). -/
def execAnnealXchgAsync (t : TileId) (sp : Nat) (s : State) : Host.Outcome State Fault Refusal :=
  s.does (actWhen (fun s => !setMissing s) (inBeat t (actGet (fun s => s.tile t) fun τ =>
    let d := spdOf τ sp
    actAll [
      storePositions d.p1,
      armAsync d.p0 d.p1,
      actGet (fun s => (chanRanks s d.p0).filter (· ≠ s.job.rank)) fun rs => actEach rs (sendAsync d.p0 d.p1),
      actGet otherRanks fun rs => actEach rs fun r =>
        actGet (fun s => setFor s d.p1 r) fun o => actOpt o (takeSet r τ.fe.ends)])))

end Sys2Proof.Machine
end

