-- ==== Sys2Proof/Machine/Agent.lean ====
section
/-!
DEFINITION. The commands of the SP slot that reach the outside through the agents of the IOD: DMA, Bexir, admission, time and
telemetry (R341-R347, R365-R369, R376, R397).
-/
namespace Sys2Proof.Machine

/-! ### DMA (R344-R346) -/

/-- The ring's register number. -/
def ringOf (d : SpDesc) : BitVec 5 := BitVec.ofNat 5 d.p0

/-- Descriptors of a ring. -/
def ringSize (s : State) (g : BitVec 5) : Nat := 2 ^ (max 4 (min 15 (s.fget (.dmaCfg g) F.dmaCfg_SZ)))

/-- The ring's next descriptor, where one is posted (R344). -/
def nextDescriptor (s : State) (g : BitVec 5) : Option (List Byte) :=
  let n := tget s.hif.ringNext 0 g.toNat
  if s.flag (.dmaCfg g) F.dmaCfg_EN && n ≠ (s.reg (.dmaTail g)).toNat % ringSize s g
  then some (s.bytes (hostMem (s.pair (.dmaBaseLo g) (.dmaBaseHi g) + 32 * n)) 32) else none

/-- The rules of a descriptor (R344): kinds 0 DMA_RD, 1 DMA_WR, 2 HOST_SCATTER_ADD.  A DMA_RD that reaches the record of an OUTPUT region is judged
here, where its offset is known (R288, notes/assumptions/29.md). -/
def descriptorOk (kind : Nat) (bs : List Byte) (r : Option Region) : Bool :=
  let host := leAt bs 0 8
  let len := leAt bs 8 4
  let off := leAt bs 16 8
  decide (host % (if kind = 2 then 4 else 64) = 0) && decide (len % 64 = 0) && decide (64 ≤ len) && decide (len ≤ 2 ^ 28) &&
    decide (leAt bs 12 4 = 0) && (kind = 1 || decide (leAt bs 24 8 = 0)) &&
    (match r with
      | some r => decide (off + len + (if kind = 0 ∧ r.kind = 4 then 512 else 0) ≤ r.len)
      | none => false)

/-- Start the transfer of the ring's next descriptor; one that breaks a rule ends the job (R344, R345). -/
def startDma (t : TileId) (kind : Nat) (d : SpDesc) (bs : List Byte) : Act :=
  actGet id fun s =>
    let g := ringOf d
    let r := regionOf s d.p1
    let next := modHif fun h => { h with ringNext := tset h.ringNext g.toNat ((tget h.ringNext 0 g.toNat + 1) % ringSize s g) }
    if descriptorOk kind bs r && decide (d.p0 < 32) then actAll [
      next,
      modHif fun h => { h with transfers := h.transfers ++ [{
        kind, ring := g.toNat, host := leAt bs 0 8, len := leAt bs 8 4,
        addr := ((r.map Region.base).getD 0) + leAt bs 16 8, region := d.p1, prov := leAt bs 24 8,
        counter := some (handleOf (s.tile t) d.p2).toNat, stream := Config.streamBuffer s.job.img.hdr.digest d.p1, tries := 0 }] }]
    else actAll [next, setF .hifErr F.hifErr_DMA_DESC 1, raiseFault { code := 0x8F, loc := d.p0 }]

/-- A DMA operation: it takes the ring's next descriptor, or the beat waits for one (R344). -/
def dmaOp (t : TileId) (kind sp : Nat) : Act :=
  inBeat t (actGet (fun s => spdOf (s.tile t) sp) fun d => actGet (fun s => nextDescriptor s (ringOf d)) fun o =>
    match o with
    | some bs => startDma t kind d bs
    | none => addWait t (.dma kind d))

/-- DMA_RD: bring data from host memory into a region (R344). -/
def execDmaRd (t : TileId) (sp : Nat) (s : State) : Host.Outcome State Fault Refusal := s.does (dmaOp t 0 sp)

/-- DMA_WR: send data of a region to host memory, with its record (R344, R288). -/
def execDmaWr (t : TileId) (sp : Nat) (s : State) : Host.Outcome State Fault Refusal := s.does (dmaOp t 1 sp)

/-- HOST_SCATTER_ADD: add a region's FP32 elements to words of host memory (R346). -/
def execHostScatterAdd (t : TileId) (sp : Nat) (s : State) : Host.Outcome State Fault Refusal := s.does (dmaOp t 2 sp)

/-! ### Bexir (R365, R369) -/

/-- BX_SEND: transmit a region to every target of the channel; the beat waits until each has armed an arrival (R365, R369). -/
def execBxSend (t : TileId) (sp : Nat) (s : State) : Host.Outcome State Fault Refusal :=
  s.does (inBeat t (actGet (fun s => spdOf (s.tile t) sp) (startSend t)))

/-- BX_ARRIVE: arm one arrival on the channel (R365); the new credit goes to every rank that may send on it (R369). -/
def execBxArrive (t : TileId) (sp : Nat) (s : State) : Host.Outcome State Fault Refusal :=
  s.does (inBeat t (actGet (fun s => s.tile t) fun τ =>
    let d := spdOf τ sp
    actAll [
      modNet fun n => { n with arrivals := n.arrivals ++ [
        { channel := d.p0, region := d.p1, counter := some (handleOf τ d.p2).toNat }] },
      actGet (fun s => armRanks s d.p0) fun rs => actEach rs fun r => actSeq
        (modChan r d.p0 fun c => { c with armed := c.armed + 1 })
        (actWhen (fun s => r ≠ s.job.rank) (sendAck r d.p0)),
      pumpSends]))

/-! ### Admission (R342, R343) -/

/-- The stream that a DYNAMIC admission takes: an equal nonzero PREFIX_ID first, then the home die with fewest BOUND streams, then
the lowest number (R343); `taken` are the choices that have not become BOUND yet. -/
def chooseStream (s : State) (pfx : Nat) (taken : List (BitVec 9)) : Option (BitVec 9) :=
  let free := allStreams.filter fun n => streamFree s n && !taken.contains n
  let busy := (allStreams.filter fun n => !(streamFree s n) || taken.contains n).map fun n => n.toNat % 8
  let cost := fun (n : BitVec 9) =>
    let hit := pfx ≠ 0 && tget s.hif.lastPrefix 0 n.toNat = pfx
    (b2n (!hit) * 2 ^ 20) + (busy.count (n.toNat % 8)) * 2 ^ 10 + n.toNat
  free.foldl (fun (a : Option (BitVec 9)) n =>
    match a with
    | none => some n
    | some m => if cost n < cost m then some n else a) none

/-- What the next admission is: a request with its stream, nothing more, or a tag that has not been submitted (R343). -/
inductive NextAdmit where
  | take (r : Request) (n : BitVec 9)
  | stop
  | late
  deriving DecidableEq, Repr

/-- The next admission of an ADMIT (R343). -/
def nextAdmit (s : State) (queue : Nat) (taken : List (BitVec 9)) : NextAdmit :=
  if s.hif.admMode = 1 then
    let tag := (s.reg .admNextTag).toNat
    let n : BitVec 9 := BitVec.ofNat 9 (tag % 384)
    if s.flag .admStatus F.admStatus_LAST_SEEN || !streamFree s n || taken.contains n then .stop
    else match s.hif.pool.find? fun r => r.queue = queue && r.tag = tag with
      | some r => .take r n
      | none => .late
  else match s.hif.pool.find? fun r => r.queue = queue with
    | none => .stop
    | some r =>
      match chooseStream s r.prefixId taken with
      | none => .stop
      | some n => .take r n

/-- Effects that follow the deliveries which wait at the ingress, if any. -/
def afterWaiting (acts : List DAct) : Act :=
  actGet (fun s => s.echo.waiting) fun ws =>
    match ws.reverse with
    | [] => actEach acts perform
    | d :: ds => modEcho fun x => { x with waiting := (({ d with acts := d.acts ++ acts }) :: ds).reverse }

/-- The result of an admission: stream, VALID and REFUSED; and the tag (R342). -/
def admitLanes (n : BitVec 9) (tag : Nat) (refused : Bool) : U32 × U32 :=
  (BitVec.ofNat 32 (n.toNat + 2 ^ 31 + b2n refused * 2 ^ 30), BitVec.ofNat 32 tag)

/-- Lanes 8-15 of the report (R342). -/
def admitReport (vals : List (U32 × U32)) : List U32 :=
  (List.range 4).map (fun j => ((vals.map Prod.fst).getD j 0)) ++ (List.range 4).map fun j => ((vals.map Prod.snd).getD j 0)

/-- The ADMIT is complete: its lanes follow its last admission (R342); a DYNAMIC one that admitted nothing logs an entry (R343). -/
def admitDone (t : TileId) (d : SpDesc) (vals : List (U32 × U32)) : Act :=
  actGet (fun s => vals.isEmpty && decide (s.hif.admMode = 0) && !s.echo.replay) fun none_ =>
    if none_ then ingress [{ entry := { typ := 8, agent := 0xFFFFFFFF }, acts := [.admitted t d.vreg (admitReport vals)] }]
    else afterWaiting [.admitted t d.vreg (admitReport vals)]

/-- A live admission of a request to a stream (R341, R342). -/
def admitOne (r : Request) (n : BitVec 9) (k : Bool → Act) : Act :=
  actGet id fun s =>
    let img := if r.ctx = 0 then none else some (s.bytes (hostMem r.ctx) 128)
    let refused := !bindOk s (bindFields s n img) n
    actAll [
      modHif fun h => { h with
        pool := h.pool.erase r
        lastPrefix := if refused then h.lastPrefix else tset h.lastPrefix n.toNat r.prefixId },
      actWhen (fun s => s.hif.admMode = 1) (setReg .admNextTag (BitVec.ofNat 32 (r.tag + 1))),
      actOn r.last (setF .admStatus F.admStatus_LAST_SEEN 1),
      ingress ((match img with
        | some bs => [{ entry := { typ := 5, agent := 0xFF, aux := r.ctx, len := 128, payload := digestNum bs } }]
        | none => []) ++ [{
          entry := { typ := 8, agent := n.toNat, aux := r.tag, len := 2, payload := r.queue },
          acts := [.admission n.toNat r.tag img refused] }]),
      complete r.queue r.cid r.head n.toNat (if refused then 0x75 else 0) 0,
      k refused]

/-- A request whose context image cannot be read leaves the pool (R345). -/
def admitUnread (r : Request) : Act :=
  actAll [
    modHif fun h => { h with pool := h.pool.erase r },
    actWhen (fun s => s.hif.admMode = 1) (setReg .admNextTag (BitVec.ofNat 32 (r.tag + 1))),
    complete r.queue r.cid r.head 0 7 1]

/-- An ADMIT entry of the replay source, with the DMA entry of its context image before it (R298). -/
def admitReplayed (img : Option (List Byte)) (k : BitVec 9 → Nat → Bool → Act) : Act :=
  actGet id fun s =>
    match nextSource s with
    | some (seq, e) =>
      if e.typ = 8 then
        let n : BitVec 9 := BitVec.ofNat 9 e.agent
        let refused := !bindOk s (bindFields s n img) n
        actSeq (takeSource seq e [.admission n.toNat e.aux img refused]) (k n e.aux refused)
      else stopReplay seq F.echoStatus_DIVERGE 0x93
    | none => freezeAtEnd

/-- Admissions of an ADMIT, up to four (R342, R343); in replay they follow the source: entries of one ADMIT share one STEP
(notes/assumptions/24.md). -/
def admitLoop (t : TileId) (d : SpDesc) (fails : BitVec 4) : Nat → Option Nat → List (U32 × U32) → Act
  | 0, _, vals => admitDone t d vals
  | n + 1, step, vals => actSeq advance (actGet id fun s =>
    let more := fun st (x : BitVec 9) tag refused => admitLoop t d fails n st (vals ++ [admitLanes x tag refused])
    if s.echo.replay then
      let same := step.getD (nextStep s) = nextStep s
      match nextSource s with
      | some (seq, e) =>
        if e.typ = 5 ∧ e.agent = 0xFF ∧ same then
          let bs := s.bytes (hostMem e.aux) 128
          if digestNum bs = e.payload then
            actSeq (takeSource seq e []) (admitReplayed (some bs) fun x tag refused => more (some (nextStep s)) x tag refused)
          else stopReplay seq F.echoStatus_PAYLOAD_MISMATCH 0x94
        else if e.typ = 8 ∧ same then
          if e.agent = 0xFFFFFFFF then actSeq (takeSource seq e []) (admitDone t d vals)
          else admitReplayed none fun x tag refused => more (some (nextStep s)) x tag refused
        else if vals.isEmpty && decide (s.hif.admMode = 0) then stopReplay seq F.echoStatus_DIVERGE 0x93
        else admitDone t d vals
      | none => if vals.isEmpty && decide (s.hif.admMode = 0) then freezeAtEnd else admitDone t d vals
    else match nextAdmit s (d.p0 % 2 ^ 16) (vals.map fun v => v.1.extractLsb' 0 9) with
      | .stop => admitDone t d vals
      | .late => modTile t fun τ => { τ with waits := τ.waits.map fun w =>
          match w with
          | .admission _ _ _ => .admission d vals (some (n + 1, fails))
          | w => w }
      | .take r x =>
        if r.ctx ≠ 0 ∧ fails.getLsbD (3 - n) then actSeq (admitUnread r) (admitLoop t d fails n step vals)
        else admitOne r x fun refused => more step x r.tag refused)

/-- ADMIT: release, admission, report (R342, R343); bit i of `fails` says that the context image of its i-th request cannot be read (R345). -/
def execPoolAdmit (t : TileId) (sp : Nat) (fails : BitVec 4) (s : State) : Host.Outcome State Fault Refusal :=
  s.does (inBeat t (actGet (fun s => s.tile t) fun τ =>
    let d := spdOf τ sp
    actAll [
      actEach (((lanes (τ.vreg d.vreg)).take 8).filter fun w => w.getLsbD 31 && decide (w.toNat % 512 < 384)) fun w =>
        freeStream (w.extractLsb' 0 9),
      addWait t (.admission d [] none),
      admitLoop t d fails 4 none []]))

/-- ADMITs that wait for a tag, and for nothing else, go on with what is left to them (R343). -/
def retryAdmits : Act :=
  actGet (fun s => s.tiles) fun ts => actEach ts fun p => actEach p.2.waits fun w =>
    match w with
    | .admission d vals (some l) => actSeq
        (modTile p.1 fun τ => { τ with waits := τ.waits.map fun x => if x = w then .admission d vals none else x })
        (admitLoop p.1 d l.2 l.1 none vals)
    | _ => actNop

/-! ### Time and telemetry (R376, R397) -/

/-- A value that the program reads from outside: logged with its source, into the first lanes of a vector register (R293). -/
def readValue (t : TileId) (d : SpDesc) (typ value : Nat) (vals : Nat → List U32) : Act :=
  actAll [
    addWait t (.reply typ d),
    consume typ d.sub (fun seq e => takeSource seq e [.lanes t d.vreg (vals e.aux)])
      (ingress [{ entry := { typ, agent := d.sub, aux := value }, acts := [.lanes t d.vreg (vals value)] }])]

/-- TIMESTAMP_READ: PTP time at the beat of issue, or the last PPS_IN edge, into lanes 0 and 1 (R376). -/
def execTimestampRead (t : TileId) (sp : Nat) (now : U64) (s : State) : Host.Outcome State Fault Refusal :=
  s.does (inBeat t (actGet (fun s => spdOf (s.tile t) sp) fun d => actSeq
    (setPair .ptpTimeLo .ptpTimeHi now.toNat)
    (actGet (fun s => if d.sub = 0 then now.toNat else s.pair .ptpPpsInLo .ptpPpsInHi) fun v =>
      readValue t d 0x0B v fun x => [BitVec.ofNat 32 x, BitVec.ofNat 32 (x / 2 ^ 32)])))

/-- HBM stacks of a compute die (R238): four to a die. -/
def dieStacks (d : DieId) : List (BitVec 5) := (List.range 4).map fun i => BitVec.ofNat 5 (4 * d.toNat + i)

/-- The value that a telemetry source selects (R397). -/
def telemetry (s : State) (d : DieId) (source : Nat) : Nat :=
  match source with
  | 0 => s.fget .pwrInputW F.pwrInputW_AVG_W
  | 1 => (s.reg (.pgvTj d)).toNat
  | 2 => (s.reg (.pgvBeatrate d)).toNat
  | 3 => s.fget (.pgvStatus d) F.pgvStatus_PACE_DUTY
  | 4 => (dieStacks d).foldl (fun n k => max n (s.fget (.hbmStatus k) F.hbmStatus_TEMP)) 0
  | _ => (s.reg .pwrVset).toNat

/-- TELEMETRY_READ: the value that SUB selects into lane 0 (R397). -/
def execTelemetryRead (t : TileId) (sp : Nat) (s : State) : Host.Outcome State Fault Refusal :=
  s.does (inBeat t (actGet id fun s =>
    let d := spdOf (s.tile t) sp
    readValue t d 0x0C (telemetry s (dieOf t) d.sub) fun x => [BitVec.ofNat 32 x]))

end Sys2Proof.Machine
end

