-- ==== Sys2Proof/Machine/Spare.lean ====
section
/-!
DEFINITION. The flash's regions and its retirement table; the spare pseudo-channels, and what the MC does with faults of the memory
(R240, R242, R243, R313-R316, R400, R401).
-/
namespace Sys2Proof.Machine

/-! ### The flash (R400, R401) -/

/-- Offsets and lengths of the flash regions in table order (R400). -/
def romRegions : List (Nat × Nat) :=
  [(0, 0x1000), (0x1000, 0x1000), (0x10000, 0x401000), (0x800000, 0x100000), (0x1000000, 0x2000000), (0x3000000, 0x1000000)]

/-- Two regions overlap. -/
def overlaps (a b : Nat × Nat) : Bool := decide (a.1 < b.1 + b.2) && decide (b.1 < a.1 + a.2) && decide (0 < a.2) && decide (0 < b.2)

/-- No region overlaps a later one. -/
def disjointRegions : List (Nat × Nat) → Bool
  | [] => true
  | r :: rs => rs.all (fun x => !overlaps r x) && disjointRegions rs

/-- The regions that the flash header names, where it is good (R401). -/
def headerRegions (h : List Byte) : Option (List (Nat × Nat)) :=
  let rs := (List.range 6).map fun i => (leAt h (16 + 8 * i) 4, leAt h (20 + 8 * i) 4)
  if h.take 8 = ascii "CKS8FLSH" ∧ leAt h 8 2 = 1 ∧ leAt h 64 4 = (crc32c (h.take 64)).toNat ∧
      rs.all (fun r => decide (r.1 + r.2 ≤ 0x4000000)) ∧ disjointRegions rs
  then some rs else none

/-- The flash header. -/
def flashHeader (s : State) : List Byte := s.bytes (flash 0) 68

/-- A region of the flash: where the header puts it, or where the ROM does. -/
def flashRegion (s : State) (i : Nat) : Nat × Nat := ((headerRegions (flashHeader s)).getD romRegions).getD i (0, 0)

/-! ### The retirement table (R313) -/

/-- The retirement table as the 4 KiB of its region: its entries, and the SHA3-256 of what stands before it in the last 32 bytes
(notes/assumptions/11.md, notes/assumptions/59.md). -/
def tableBytes (t : RetTable) : List Byte :=
  let body := (Config.retireBody t ++ List.replicate 4064 0).take 4064
  body ++ digestBytes (sha3 body)

/-- The table that the flash holds, where its digest checks. -/
def flashTable (s : State) : Option RetTable :=
  let bs := s.bytes (flash (flashRegion s 1).1) 4096
  if bs = tableBytes s.boot.table then some s.boot.table
  else if bs.drop 4064 = digestBytes (sha3 (bs.take 4064)) then Config.retireParse (bs.take 4064)
  else none

/-- The MC records a retirement, a remap or a loss: in its own copy and in the flash. -/
def setTable (f : RetTable → RetTable) : Act :=
  actGet (fun s => f s.boot.table) fun t => actSeq (modBoot fun b => { b with table := t })
    (actGet (fun s => (flashRegion s 1).1) fun a => store (flash a) (tableBytes t))

/-! ### Records of faults -/

/-- FLT_REC and its step (R328), with the interrupt of fault events (R340). -/
def writeFltRec (code cause die loc : Nat) : Act :=
  actAll [
    setReg .fltRec (BitVec.ofNat 32 (code * 2 ^ 24 + cause % 16 * 2 ^ 20 + die % 16 * 2 ^ 16 + loc % 2 ^ 16)),
    actGet moduleStep fun n => setPair .fltRecStepLo .fltRecStepHi n,
    signal 1]

/-! ### Stacks and their spares (R242, R243, R247, R314, R315) -/

/-- STATE of a stack (R247). -/
def stackState (s : State) (k : BitVec 5) : Nat := s.fget (.hbmStatus k) F.hbmStatus_STATE

/-- A stack fails for good (R314). -/
def failStack (k : BitVec 5) : Act :=
  actSeq (setF (.hbmStatus k) F.hbmStatus_STATE 5)
    (setTable fun t => { t with badStacks := if t.badStacks.contains k.toNat then t.badStacks else k.toNat :: t.badStacks })

/-- A full retrain takes the stack out of service (R242). -/
def startRetrain (k : BitVec 5) : Act :=
  actSeq (setF (.hbmStatus k) F.hbmStatus_RETRAIN_PEND 0) (setF (.hbmStatus k) F.hbmStatus_STATE 4)

/-- The stacks. -/
def allStacks : List (BitVec 5) := (List.range 32).map (BitVec.ofNat 5)

/-- Requested self-tests start: bits of REQ; a full retrain takes every READY stack out of service (R242, R326). -/
def startTests (mask result : Nat) : Act :=
  actAll [
    modFlt fun f => { f with testing := mask },
    setF .fltSelftest F.fltSelftest_RESULT result,
    actOn (mask.testBit 1) (actEach allStacks fun k => actWhen (fun s => stackState s k = 2) (startRetrain k))]

/-- A spare takes a logical pseudo-channel. -/
def useSpare (k : BitVec 5) (r : Reg) (used lpc : Fld) (pc : Nat) : Act :=
  actAll [
    setF r used 1, setF r lpc pc,
    actGet (fun s => s.fget (.hbmStatus k) F.hbmStatus_SPARES_LEFT) fun n => setF (.hbmStatus k) F.hbmStatus_SPARES_LEFT (n - 1),
    setF (.hbmErr k) F.hbmErr_REMAP 1]

/-- A spare of the stack is free. -/
def spareFree (s : State) (k : BitVec 5) : Bool := !s.flag (.hbmSpare0 k) F.hbmSpare0_USED || !s.flag (.hbmSpare1 k) F.hbmSpare1_USED

/-- A logical pseudo-channel moves to a spare; a spare that carried it has failed.  With no spare left, NOSPARE; a further failure
fails the stack (R243, R314). -/
def moveChannel (k : BitVec 5) (pc : Nat) : Act :=
  actAll [
    actWhen (fun s => s.flag (.hbmSpare0 k) F.hbmSpare0_USED && s.fget (.hbmSpare0 k) F.hbmSpare0_LPC = pc)
      (setF (.hbmSpare0 k) F.hbmSpare0_FAILED 1),
    actWhen (fun s => s.flag (.hbmSpare1 k) F.hbmSpare1_USED && s.fget (.hbmSpare1 k) F.hbmSpare1_LPC = pc)
      (setF (.hbmSpare1 k) F.hbmSpare1_FAILED 1),
    actGet id fun s =>
      if !s.flag (.hbmSpare0 k) F.hbmSpare0_USED then useSpare k (.hbmSpare0 k) F.hbmSpare0_USED F.hbmSpare0_LPC pc
      else if !s.flag (.hbmSpare1 k) F.hbmSpare1_USED then useSpare k (.hbmSpare1 k) F.hbmSpare1_USED F.hbmSpare1_LPC pc
      else actSeq
        (actOn (s.flag (.hbmErr k) F.hbmErr_NOSPARE) (failStack k))
        (setF (.hbmErr k) F.hbmErr_NOSPARE 1)]

/-- The remap of a logical pseudo-channel, recorded in the retirement table (R243, R313). -/
def remapNow (k : BitVec 5) (pc : Nat) : Act :=
  actGet (fun s => spareFree s k) fun free => actSeq (moveChannel k pc) (actOn free (actGet (fun s => pcMap s k pc) fun p =>
    setTable fun t => { t with remaps := (k.toNat, pc, p) :: t.remaps }))

/-- Sectors of a stack that cannot be corrected and have not been rebuilt. -/
def ueOf (s : State) (k : BitVec 5) : List Nat := s.flt.ueSectors.filter fun a => a / 2 ^ 36 = k.toNat

/-- The pseudo-channels that hold them move to spares (R243). -/
def remapUes (k : BitVec 5) : Act := actGet (fun s => (ueOf s k).map lpcOf) fun pcs => actEach pcs.eraseDups (remapNow k)

/-- With no job loaded a remap runs at once, and a sector that cannot be corrected is written as zero, as one of an unused range (R315,
R316). -/
def remapIdle (k : BitVec 5) : Act :=
  actGet (fun s => ueOf s k) fun us => actAll [
    remapUes k,
    actEach us fun a => wipe (hbm a) (hbm (a + 64)),
    modFlt fun f => { f with ueSectors := f.ueSectors.filter fun a => !us.contains a }]

/-- The MC records a fault that no job takes, and remaps at once where it is one of a sector (R227, R315; notes/assumptions/42.md). -/
def idleFault (f : FaultRec) : Act :=
  actSeq (writeFltRec f.code 0 f.die f.loc) (actOn (f.code = 0x86) (remapIdle (BitVec.ofNat 5 f.loc)))

/-- A fault of a link or a stack: one that the job takes freezes it; another one the MC records, once it is there (R227, R240, R327). -/
def hwFault (takes : State → Bool) (f : FaultRec) : Act :=
  actIf (fun s => jobLoaded s && takes s) (raiseFault f)
    (actIf (fun s => s.flt.mcAbsent) (modFlt fun x => { x with notes := x.notes ++ [f] }) (idleFault f))

end Sys2Proof.Machine
end

