-- ==== Sys2Proof/Machine/Pace.lean ====
section
/-!
DEFINITION. The pace governors: stall watchdog, droop holds, power capping and the voltage setpoint (R18-R29).
-/
namespace Sys2Proof.Machine

/-! ### Waits as the governor sees them (R18) -/

/-- The sync counter is EXTERNAL (R272). -/
def isExternal (s : State) (c : BitVec 13) : Bool := s.job.img.syncs.any fun x => x.index = c.toNat && x.cls = 1

/-- The wait is external (R18). -/
def waitExternal (s : State) (t : TileId) : Wait → Bool
  | .ge c _ => isExternal s c
  | .stuck c _ => isExternal s c
  | .key e _ => bitOf (s.reg (.cgsPending (dieOf t))) e || s.job.img.hdr.freshDecl.testBit e
  | .fresh _ | .dma _ _ | .bxSend _ | .bxArrive _ | .admission _ _ _ | .reply _ _ => true
  | .sieve n _ => s.fget (.svcCtrl (BitVec.ofNat 9 n)) F.svcCtrl_STATE = 2
  | _ => false

/-- The tile is in an internal wait. -/
def internalWait (s : State) (t : TileId) : Bool :=
  let τ := s.tile t
  τ.mode == .run && ((τ.mid && τ.waits.any fun w => !waitExternal s t w) || (!τ.mid && decide (τ.bfilled ≤ τ.bpos)))

/-- STALL_WATCHDOG_EXPIRY: no tile of the die has advanced for STALL_MS while one is in an internal wait (R18); no
watchdog runs while a tile of the module is HALTED (R440). -/
def execStallWatchdogExpiry (d : DieId) (s : State) : Host.Outcome State Fault Refusal :=
  s.does (actWhen (fun s => s.job.phase == .running && !dieStopped s d && !s.tiles.any (fun p => p.2.mode == .halted) && s.tiles.any fun p => dieOf p.1 = d && internalWait s p.1)
    (actSeq (setF (.pgvFault d) F.pgvFault_STALL 1) (raiseFault { code := 0x89, die := d.toNat })))

/-! ### Droop holds (R21-R23) -/

/-- A hold is asserted on the die; an assertion of a hold that is in force already is none. -/
def assertHold (d : DieId) : Act :=
  actWhen (fun s => !dieHeld s d) (actSeq (setF (.pgvStatus d) F.pgvStatus_DROOP_HOLD 1) (incReg (.pgvDroopCount d)))

/-- The hold ends where nothing asserts it any more; the time it took accumulates (R22, R34). -/
def endHold (d : DieId) (ns : Nat) : Act :=
  actWhen (fun s => dieHeld s d && !s.pwr.droop.contains d.toNat && !s.pwr.badSensors.any fun p => p.1 = d.toNat) (actSeq
    (setF (.pgvStatus d) F.pgvStatus_DROOP_HOLD 0)
    (actGet (fun s => s.pair (.pgvHoldNsLo d) (.pgvHoldNsHi d)) fun n =>
      setPair (.pgvHoldNsLo d) (.pgvHoldNsHi d) (satAdd (2 ^ 64 - 1) n ns)))

/-- The setpoint in µV (R33). -/
def setpointUv (s : State) : Nat := 500000 + 5000 * s.fget .pwrVset F.pwrVset_VSET

/-- A sensor's reading in quarters of a percent: the sag of `uv` µV below the setpoint, rounded up (R21). -/
def sagOf (sp uv : Nat) : Nat := ((sp - uv) * 400 + sp - 1) / sp

/-- DROOP_HOLD_ASSERT: a sensor sees a core supply of `uv` µV; one in service that reads more than 4 % below the setpoint asserts a hold
(R21). -/
def execDroopHoldAssert (d : DieId) (r : SensorReading) (s : State) : Host.Outcome State Fault Refusal :=
  s.does (actWhen (fun s => decide (16 < sagOf (setpointUv s) r.uv) && !s.pwr.retiredSensors.contains (d.toNat, r.sensor) &&
      !s.pwr.badSensors.contains (d.toNat, r.sensor))
    (actSeq (assertHold d) (modPwr fun p => { p with droop := if p.droop.contains d.toNat then p.droop else d.toNat :: p.droop })))

/-- DROOP_HOLD_RELEASE: `uv` is the lowest supply in µV that any sensor of the die has seen in the last 20 ns; where all have read no more
than 2 % below the setpoint, the hold ends; `ns` is its time (R21, R22). -/
def execDroopHoldRelease (d : DieId) (e : HoldEnd) (s : State) : Host.Outcome State Fault Refusal :=
  s.does (actWhen (fun s => decide (sagOf (setpointUv s) e.uv ≤ 8) && s.pwr.droop.contains d.toNat)
    (actSeq (modPwr fun p => { p with droop := p.droop.filter (· ≠ d.toNat) }) (endHold d e.ns)))

/-- DROOP_STUCK: a hold that a sag asserts has stayed for 100 µs; a failed sensor's hold is not timed (R23). -/
def execDroopStuck (d : DieId) (s : State) : Host.Outcome State Fault Refusal :=
  s.does (actWhen (fun s => dieHeld s d && s.pwr.droop.contains d.toNat)
    (actSeq (setF (.pgvFault d) F.pgvFault_DROOP_STUCK 1) (raiseFault { code := 0x8A, die := d.toNat })))

/-- SENSOR_FAIL: a sensor reads outside its self-check range; a hold is asserted until the MC retires it (R23). -/
def execSensorFail (d : DieId) (sensor : Nat) (s : State) : Host.Outcome State Fault Refusal :=
  s.does (actWhen (fun s => !s.pwr.retiredSensors.contains (d.toNat, sensor) && !s.pwr.badSensors.contains (d.toNat, sensor))
    (actAll [
      setF (.pgvFault d) F.pgvFault_SENSOR_FAIL 1,
      assertHold d,
      modPwr fun p => { p with badSensors := (d.toNat, sensor) :: p.badSensors }]))

/-- SENSOR_RETIRE: the MC retires a failed sensor and records it; the job continues (R23, R309).  DESIGN CHOICE: the place that FLT_REC
shows is the sensor's number (notes/assumptions/25.md). -/
def execSensorRetire (d : DieId) (sensor ns : Nat) (s : State) : Host.Outcome State Fault Refusal :=
  s.does (actWhen (fun s => s.pwr.badSensors.contains (d.toNat, sensor) && !s.flt.mcAbsent) (actAll [
    modPwr fun p => { p with
      badSensors := p.badSensors.erase (d.toNat, sensor)
      retiredSensors := (d.toNat, sensor) :: p.retiredSensors },
    writeFltRec 0x92 0 d.toNat sensor,
    endHold d ns]))

/-! ### Power capping (R24-R26) -/

/-- The host cap as it acts (R26). -/
def hostCap (s : State) : Option Nat :=
  match s.fget .pwrHostCap F.pwrHostCap_CAP_W with
  | 0 => none
  | n => some (max 800 n)

/-- The cap in force in watts (R24): the lowest of the active profile's cap, the host cap, and 1,200 W while UV_WARN shows a low input
(R398); none where none of these is there.  DESIGN CHOICE: with no job loaded no profile is active, and none of its caps acts
(notes/assumptions/25.md). -/
def capInForce (s : State) : Option Nat :=
  let e := if s.fget .pwrEnvActive F.pwrEnvActive_PROFILE = 0 then [] else [s.fget .pwrEnvActive F.pwrEnvActive_CAP_W]
  let u := if s.flag .pwrFault F.pwrFault_UV_WARN then [1200] else []
  (e ++ u ++ (hostCap s).toList).min?

/-- BUDGET_DIVIDE: the MC divides the cap in force into per-die budgets in proportion to the dies' demands (R24); the 10 ms average of
the input power and the highest 100 µs average since the last division show (R33, R395). -/
def execBudgetDivide (demand : List Nat) (avg peak : Nat) (s : State) : Host.Outcome State Fault Refusal :=
  s.does (actAll [
    setF .pwrInputW F.pwrInputW_AVG_W (min avg 0xFFFF),
    actWhen (fun s => decide (s.fget .pwrPeakW F.pwrPeakW_PEAK < peak)) (setF .pwrPeakW F.pwrPeakW_PEAK (min peak 0xFFFF)),
    actWhen (fun s => !s.flt.mcAbsent) (actGet capInForce fun o =>
      let sum := demand.foldl (· + ·) 0
      modPwr fun p => { p with budget := match o with
        | none => []
        | some c => demand.zipIdx.map fun x => (x.2, 1000 * c * x.1 / max 1 sum) })])

/-- The least share of time, in percent, that brings a die's power within its budget and its rate within 2,400 Mbeat/s; power and
rate fall in proportion (notes/assumptions/25.md). -/
def holdDensity (budget power rate : Nat) : Nat :=
  ((List.range 101).find? fun h => decide (power * (100 - h) ≤ budget * 100) && decide (rate * (100 - h) ≤ 240000)).getD 100

/-- PACING_ADJUST: the governor sets the density of its 8 ns holds by the die's power in mW and its free-running rate; the readings
of the interval show in the PGV registers (R19, R24, R34).  `hold` says whether one of the holds is in force now: the tiles of the die
start no beat until an adjustment ends it.  At its junction limit a die is paced to hold its temperature, at a density that the manual
leaves open (R396, notes/assumptions/4.md). -/
def execPacingAdjust (d : DieId) (power : Nat) (pace : BeatPace) (tj : BitVec 16) (vsense : BitVec 8) (s : State) :
    Host.Outcome State Fault Refusal :=
  s.does (actGet id fun s =>
    let parked := s.flag (.pgvStatus d) F.pgvStatus_PARKED
    let r := if parked then 0 else min pace.rate 0xFFFF
    let h := match tfind s.pwr.budget d.toNat with
      | some b => holdDensity b power r
      | none => holdDensity power power r
    let show_ := fun (h : Nat) => actAll [
      modPwr fun p => { p with density := tset p.density d.toNat h },
      setF (.pgvStatus d) F.pgvStatus_PACE_DUTY h,
      setF (.pgvStatus d) F.pgvStatus_PACING (b2n (pace.hold && decide (0 < h)))]
    actAll [
      (if s.pwr.dieLimit.contains d.toNat then withFree fun x => show_ (max h (x.toNat % 101)) else show_ h),
      setF (.pgvStatus d) F.pgvStatus_VSENSE vsense.toNat,
      setF (.pgvBeatrate d) F.pgvBeatrate_MBEAT r,
      setF (.pgvTj d) F.pgvTj_TJ tj.toNat])

/-- VSET_ADJUST: by the module-average pace duty of 100 ms, the setpoint falls by 25 mV, not below 0.65 V, or rises by 25 mV, not
above the profile's ceiling (R25). -/
def execVsetAdjust (duty : Nat) (s : State) : Host.Outcome State Fault Refusal :=
  s.does (actWhen (fun s => !s.flt.mcAbsent) (actGet (fun s => (s.fget .pwrVset F.pwrVset_VSET, s.fget .pwrEnvActive F.pwrEnvActive_VCEIL)) fun p =>
    if 20 < duty then actOn (decide (30 < p.1)) (setF .pwrVset F.pwrVset_VSET (max 30 (p.1 - 5)))
    else if duty < 5 ∧ p.1 < p.2 then setF .pwrVset F.pwrVset_VSET (min p.2 (p.1 + 5))
    else actNop))

/-- HOST_CAP_WRITE: the host sets or removes its cap (R26). -/
def execHostCapWrite (v : U32) (s : State) : Host.Outcome State Fault Refusal := s.does (reachReg .pwrHostCap (setReg .pwrHostCap v))

end Sys2Proof.Machine
end

