-- ==== Sys2Proof/Machine/Stream.lean ====
section
/-!
DEFINITION. HBM streams: issue, arrival and the bundle stream (R30-R32, R45, R49, R240, R269).
-/
namespace Sys2Proof.Machine

/-- HBM address of element `n` of a stream (R269). -/
def elementAddr (d : StreamDesc) (n : Nat) : Nat :=
  let row := if d.rowBytes = 0 then max 64 d.length else d.rowBytes
  d.base + n * 64 / row * d.rowStride + n * 64 % row

/-- Elements of a stream. -/
def elements (d : StreamDesc) : Nat := d.length / 64

/-- Issued and arrived elements of a stream. -/
def streamPos (s : State) (id : Nat) : Nat × Nat := tget s.job.strm (0, 0) id

/-- The stream's buffer has room for its next element: an empty line that no element in flight will take, or a place in the half of
bundle memory that is not executing (R32, R45). -/
def hasRoom (s : State) (d : StreamDesc) : Bool :=
  let p := streamPos s d.id
  let τ := s.tile (BitVec.ofNat 11 d.tile)
  if d.kind = 1 then decide (2 * p.1 < (τ.bpos / 2048 + 2) * 2048)
  else decide (p.1 - p.2 < d.bufNbanks * d.bufLines) &&
    !τ.full.contains (lineKey (bufferSlot d p.1).1 (bufferSlot d p.1).2)

/-- HBM_STREAM_ISSUE: the stream issues its next read while its buffer has room (R32). -/
def execHbmStreamIssue (n : Nat) (s : State) : Host.Outcome State Fault Refusal :=
  s.does (actGet id fun s => actOpt (streamOf s n) fun d =>
    let p := streamPos s n
    actOn (s.job.phase == .running && decide (p.1 < elements d) && hasRoom s d)
      (modJob fun j => { j with strm := tset j.strm n (p.1 + 1, p.2) }))

/-- An FE_SEVAL that waits takes its entries where they have come (R31, R191). -/
def retrySevals (t : TileId) : Act :=
  actGet (fun s => (s.tile t).waits) fun ws => actEach ws fun w =>
    match w with
    | .seval d ce ue => actGet (fun s => evalStream s t d ce ue) fun o => actOpt o fun a => actSeq (dropWait t w) a
    | _ => actNop

/-- An element of 64 bytes reaches its consumer: two bundles, or a buffer line that becomes full (R45, R49). -/
def landElement (d : StreamDesc) (n : Nat) (bs : List Byte) : Act :=
  let t : TileId := BitVec.ofNat 11 d.tile
  let q := bufferSlot d n
  if d.kind = 1 then actGet (fun s => s.tile t) fun τ => actAll [
    store (bundleMem t (2 * n % 4096)) bs,
    modTile t fun τ => { τ with bfilled := 2 * n + 2 },
    actOn (τ.mode == .run && !τ.mid && decide (τ.bfilled ≤ τ.bpos) && decide (τ.bpos < 2 * n + 2)) (incReg (.pgvHlateCount (dieOf t)))]
  else actAll [
    storeLine t q.1 q.2 (ofLineBytes bs),
    actWhen (fun s => !(d.kind = 2 && decide (n < (tget (s.tile t).fe.spos (0, 94, 0) d.id).1)))
      (modTile t fun τ => { τ with full := lineKey q.1 q.2 :: τ.full }),
    retrySevals t,
    settle]

/-- HBM_ERR of a stack takes a bit, with the address (R240, R247). -/
def hbmError (a : Nat) (f : Fld) : Act :=
  let k : BitVec 5 := BitVec.ofNat 5 (a / 2 ^ 36)
  actAll [setF (.hbmErr k) f 1, setPair (.hbmErrAddrLo k) (.hbmErrAddrHi k) a]

/-- HBM_UE: a sector with two erroneous symbols, a fault (R240); with no job loaded its pseudo-channel is remapped at once (R315). -/
def hbmUe (a : Nat) : Act :=
  actAll [
    hbmError a F.hbmErr_UE,
    modFlt fun f => { f with ueSectors := if f.ueSectors.contains (a / 64 * 64) then f.ueSectors else f.ueSectors ++ [a / 64 * 64] },
    hwFault (fun _ => true) { code := 0x86, die := a / 2 ^ 38 % 8, loc := a / 2 ^ 36 % 32 }]

/-- HBM_CE: a sector with one erroneous symbol, corrected and counted (R240). -/
def hbmCe (a : Nat) : Act := actSeq (hbmError a F.hbmErr_CE) (incReg (.hbmCeCount (BitVec.ofNat 5 (a / 2 ^ 36))))

/-- HBM_STREAM_ELEMENT_ARRIVAL: the next element in flight arrives with no erroneous symbol (0), one (1), two (2), which are
withheld, or more that the code does not detect (3), whose data is a free value (R49, R240). -/
def execHbmStreamElementArrival (n bad : Nat) (s : State) : Host.Outcome State Fault Refusal :=
  s.does (actGet id fun s => actOpt (streamOf s n) fun d =>
    let p := streamPos s n
    let a := elementAddr d p.2
    let next := modJob fun j => { j with strm := tset j.strm n (p.1, p.2 + 1) }
    actOn (s.job.phase != .none && decide (p.2 < p.1)) (match bad with
      | 0 => actSeq next (landElement d p.2 (s.bytes (hbm a) 64))
      | 1 => actAll [hbmCe a, next, landElement d p.2 (s.bytes (hbm a) 64)]
      | 2 => hbmUe a
      | _ => actSeq next (withFree fun w => landElement d p.2 (leBytes 64 w.toNat))))

end Sys2Proof.Machine
end

