-- ==== Sys2Proof/Machine/Hbm.lean ====
section
/-!
DEFINITION. Die-to-die links and HBM stacks: replays, loss of a link, refresh, retraining and sparing (R227, R240-R243, R314,
R315).
-/
namespace Sys2Proof.Machine

/-! ### Die-to-die links -/

/-- D2D_REPLAY: a link replays a flit, or uses lane repair; only arrival times change (R227). -/
def execD2dReplay (d : DieId) (l : BitVec 2) (repair : Bool) (s : State) : Host.Outcome State Fault Refusal :=
  s.does (actWhen (fun s => s.flag (.d2dStat d l) F.d2dStat_UP)
    (if repair then incF (.d2dStat d l) F.d2dStat_REPAIRED else incReg (.d2dRetry d l)))

/-- The far end of a link: west 0 meets east 1 of the die before it, vertical 2 that of the die above or below; a link that joins
the IOD has none among the compute dies (R224, R248). -/
def farEnd (d : DieId) (l : BitVec 2) : Option (DieId × BitVec 2) :=
  let n := d.toNat
  match l.toNat with
  | 0 => if n % 4 = 0 then none else some (BitVec.ofNat 3 (n - 1), 1)
  | 1 => if n % 4 = 3 then none else some (BitVec.ofNat 3 (n + 1), 0)
  | 2 => some (BitVec.ofNat 3 (n ^^^ 4), 2)
  | _ => none

/-- A link goes down at both of its ends. -/
def linkDown (d : DieId) (l : BitVec 2) : Act :=
  actSeq (setF (.d2dStat d l) F.d2dStat_UP 0) (actOpt (farEnd d l) fun p => setF (.d2dStat p.1 p.2) F.d2dStat_UP 0)

/-- The loaded job uses the link: its image's traffic crosses it (R227). -/
def usesLink (s : State) (d : DieId) (l : BitVec 2) : Bool := s.job.img.links.contains (linkName d.toNat l.toNat)

/-- D2D_LINK_DOWN: a link has run out of spare lanes or failed retraining: the MC records it, and a job that uses it freezes (R227). -/
def execD2dLinkDown (d : DieId) (l : BitVec 2) (s : State) : Host.Outcome State Fault Refusal :=
  s.does (actWhen (fun s => s.flag (.d2dStat d l) F.d2dStat_UP) (actSeq (linkDown d l)
    (hwFault (fun s => usesLink s d l) { code := 0x87, die := d.toNat, loc := l.toNat })))

/-! ### Stacks -/

/-- HBM_REFRESH: a refresh window with the stack's temperature, and the sectors in which the patrol scrub finds one erroneous symbol
or two (R240, R241). -/
def execHbmRefresh (k : BitVec 5) (pc : Nat) (temp : BitVec 8) (ce ue : List Nat) (s : State) : Host.Outcome State Fault Refusal :=
  s.does (actWhen (fun s => stackState s k = 2 && decide (pc < 62)) (actAll [
    setF (.hbmStatus k) F.hbmStatus_TEMP temp.toNat,
    setF (.hbmStatus k) F.hbmStatus_REFRESH_2X (b2n (decide (85 < temp.toNat))),
    actEach (ce.filter fun a => a / 2 ^ 36 = k.toNat) hbmCe,
    actEach (ue.filter fun a => a / 2 ^ 36 = k.toNat) hbmUe]))

/-- RETRAIN_PEND: periodic retraining cannot hold the eye margin.  With no job loaded the full retrain runs at once; else the stack runs on
with its present training, and the full retrain is deferred to the job boundary (R242). -/
def execRetrainPend (k : BitVec 5) (s : State) : Host.Outcome State Fault Refusal :=
  s.does (actWhen (fun s => stackState s k = 2)
    (actIf jobLoaded (setF (.hbmStatus k) F.hbmStatus_RETRAIN_PEND 1) (startRetrain k)))

/-- A full retrain ends: one that fails leaves the stack FAILED, a fault of a job that is loaded (R242). -/
def endRetrain (k : BitVec 5) (ok : Bool) : Act :=
  if ok then setF (.hbmStatus k) F.hbmStatus_STATE 2
  else actAll [
    setF (.hbmErr k) F.hbmErr_RETRAIN_FAIL 1,
    failStack k,
    hwFault (fun _ => true) { code := 0x91, die := k.toNat / 4, loc := k.toNat }]

/-- HBM_FULL_RETRAIN: the full retrain that has taken the stack out of service ends (R242, R326). -/
def execHbmFullRetrain (k : BitVec 5) (ok : Bool) (s : State) : Host.Outcome State Fault Refusal :=
  s.does (actWhen (fun s => stackState s k = 4) (endRetrain k ok))

/-! ### Sparing (R243, R315) -/

/-- A remap for corrected errors past their threshold (R315): FLT_REC shows it, and the job goes on. -/
def thresholdRemap (k : BitVec 5) (pc : Nat) : Act :=
  actAll [
    remapNow k pc,
    actWhen jobLoaded (writeFltRec 0 1 (k.toNat / 4) k.toNat),
    actWhen (fun s => stackState s k = 5) (raiseFault { code := 0x86, die := k.toNat / 4, loc := k.toNat })]

/-- PC_REMAP: a pseudo-channel with more than 1,024 corrected errors in an hour is copied to a spare; with a job loaded and repairs
held, the remap waits for host approval (R243, R315). -/
def execPcRemap (k : BitVec 5) (pc : Nat) (s : State) : Host.Outcome State Fault Refusal :=
  s.does (actWhen (fun s => stackState s k = 2 && decide (pc < 62) && !s.flt.mcAbsent) (actIf
    (fun s => jobLoaded s && s.flag .fltCtrl F.fltCtrl_HOLD)
    (actAll [
      modFlt fun x => { x with heldRemaps := x.heldRemaps ++ [(k.toNat, pc)] },
      actWhen (fun s => s.fget .fltStatus F.fltStatus_STATE = 0) (setF .fltStatus F.fltStatus_STATE 3),
      mcEvent 3 [k.toNat, pc]])
    (thresholdRemap k pc)))

end Sys2Proof.Machine
end

