-- ==== Sys2Proof/Machine/RetireOps.lean ====
section
/-!
DEFINITION. Row maps, column shift, and the retirement of rows, dies and stacks (R35-R39, R311, R313, R314).
-/
namespace Sys2Proof.Machine

/-- A retired row of a die: in the retirement table, or fused (R39, R313). -/
def rowRetired (s : State) (d : DieId) (r : Nat) : Bool := s.boot.table.rows.contains (d.toNat, r) || s.boot.fusedRows.contains (d.toNat, r)

/-- LROW, RETIRED and FUSED of every physical row of a die, by the rows that are retired and the effective grade (R39). -/
def showRows (d : DieId) : Act :=
  actGet id fun s =>
    let top := if s.flag .glbStatus F.glbStatus_GRADE_EFF then 14 else 16
    actEach (List.range 16) fun r =>
      let gone := rowRetired s d r
      let rank := ((List.range r).filter fun i => !rowRetired s d i).length
      let carries := !gone && decide (rank < top)
      let reg := Reg.dieRowmap d (BitVec.ofNat 4 r)
      actAll [
        setF reg F.dieRowmap_LROW (if carries then rank else 15),
        setF reg F.dieRowmap_RETIRED (b2n gone),
        setF reg F.dieRowmap_FUSED (b2n (!gone && !carries))]

/-- Physical row that carries a logical row (R39). -/
def physRow (s : State) (d : DieId) (row : Nat) : BitVec 4 :=
  BitVec.ofNat 4 (((List.range 16).find? fun r =>
    s.fget (.dieRowmap d (BitVec.ofNat 4 r)) F.dieRowmap_LROW = row && !s.flag (.dieRowmap d (BitVec.ofNat 4 r)) F.dieRowmap_RETIRED).getD row)

/-- Physical column that carries a logical column of a physical row (R36). -/
def physCol (s : State) (d : DieId) (r : BitVec 4) (c : Nat) : Nat :=
  let u := s.fget (.dieRowmap d r) F.dieRowmap_UNMAPPED
  if c < u then c else c + 1

/-- A die is failed (R314). -/
def failDie (d : Nat) : Act :=
  setTable fun t => { t with dies := if t.dies.contains d then t.dies else d :: t.dies }

/-- A row is retired, or with no row left its die is failed (R39, R314). -/
def retireRow (d : DieId) (r : BitVec 4) : Act :=
  actGet id fun s =>
    let n := ((List.range 16).filter (rowRetired s d)).length
    if s.fget .glbId F.glbId_GRADE = 1 || decide (2 ≤ n) then failDie d.toNat
    else actAll [
      setTable fun t => { t with rows := (d.toNat, r.toNat) :: t.rows },
      setF .glbStatus F.glbStatus_GRADE_EFF 1,
      actEach allDies showRows]

/-- Tile-window registers of a tile that hold a word of their own: those of a logical tile, and those of a row's unmapped tile. -/
def tileRegs (t : TileId) : List Reg := [.tileErr t, .tileEcc t, .tileEccAddr t, .tileFlitRetry t, .tileSpmAddr t]
def utileRegs (d : DieId) (r : BitVec 4) : List Reg := [.utileErr d r, .utileEcc d r, .utileEccAddr d r, .utileFlitRetry d r, .utileSpmAddr d r]

/-- What a tile's window shows, and its scratchpad, are from here on those of another physical tile. -/
def moveWindow (src dst : List Reg) (from_ to_ : Nat) : Act :=
  actGet id fun s => actAll [
    actEach (src.zip dst) fun p => setReg p.2 (s.reg p.1),
    wipe to_ (to_ + 0x100000),
    fun s => (s.mem.filter fun c => from_ ≤ c.1 && c.1 < from_ + 0x100000).map fun c => .store (c.1 - from_ + to_) [c.2]]

/-- The windows of a row follow its physical tiles in a column shift at a logical column (R38): the unmapped tile's window reaches the tile that
the shift retires, and the last logical column reaches the spare. -/
def shiftWindows (d : DieId) (row r : BitVec 4) (c : Nat) : Act :=
  let tile := fun (k : Nat) => coord d row (BitVec.ofNat 4 k)
  let t := tile c
  actGet id fun s =>
    let spare := utileRegs d r
    let held := spare.map s.reg
    let cells := s.mem.filter fun x => spmUnmapped d r ≤ x.1 && x.1 < spmUnmapped d r + 0x100000
    let last := spm (tile 15) 0 0
    actAll [
      moveWindow (tileRegs t) spare (spm t 0 0) (spmUnmapped d r),
      setPair (.utileBeatLo d r) (.utileBeatHi d r) (s.tile t).beat,
      setReg (.utilePc d r) (F.tilePc_LOOP_DEPTH.put (F.tilePc_ADDR.put 0 ((s.tile t).bpos % 4096)) (s.tile t).loops.length),
      actEach ((List.range 15).filter fun k => c ≤ k) fun k => moveWindow (tileRegs (tile (k + 1))) (tileRegs (tile k)) (spm (tile (k + 1)) 0 0) (spm (tile k) 0 0),
      actEach ((tileRegs (tile 15)).zip held) fun p => setReg p.1 p.2,
      wipe last (last + 0x100000),
      fun _ => cells.map fun x => .store (x.1 - spmUnmapped d r + last) [x.2]]

/-- A physical tile of a row is retired: the row shifts, or with its spare gone the row is retired (R311, R314).  A spare that fails
before any shift takes the spare away. -/
def retirePhys (d : DieId) (r : BitVec 4) (col : Nat) : Act :=
  actGet id fun s =>
    let reg := Reg.dieRowmap d r
    let log := setTable fun t => { t with tiles := (d.toNat, r.toNat, col) :: t.tiles }
    if col = s.fget reg F.dieRowmap_UNMAPPED then actSeq log (setF reg F.dieRowmap_NOSPARE 1)
    else if s.flag reg F.dieRowmap_NOSPARE then actSeq log (retireRow d r)
    else actAll [
      log,
      shiftWindows d (BitVec.ofNat 4 (s.fget reg F.dieRowmap_LROW)) r col,
      setF (.utileStatus d r) F.tileStatus_STATE 7,
      setF reg F.dieRowmap_UNMAPPED col,
      setF reg F.dieRowmap_SHIFTED 1,
      setF reg F.dieRowmap_NOSPARE 1]

/-- Column shift of the physical tile that carries a logical tile (R311). -/
def columnShift (t : TileId) : Act :=
  actGet id fun s =>
    let r := physRow s (dieOf t) (rowOf t).toNat
    retirePhys (dieOf t) r (physCol s (dieOf t) r (colOf t).toNat)

/-- What the hardware has lost so far: rows, dies, stacks. -/
def lossCount (s : State) : Nat := s.boot.table.rows.length + s.boot.table.dies.length + s.boot.table.badStacks.length

end Sys2Proof.Machine
end

