-- ==== Sys2Proof/Machine/Bundle.lean ====
section
/-!
DEFINITION. The bundle of 256 bits and its slots, as schedule load reads them (R41-R43, R259-R267): the fields of each operation,
and the encodings that are refused.
-/
namespace Sys2Proof.Machine

/-- Bits [hi:lo] of a number. -/
def nb (w hi lo : Nat) : Nat := (w >>> lo) % 2 ^ (hi + 1 - lo)

/-- One bit of a number. -/
def n1 (w i : Nat) : Bool := w.testBit i

/-- MX slot (R262). -/
inductive MxOp where
  | nop
  | leaf (set : Bool) (td areg breg : Nat) (isNew : Bool) (bx : Nat) (bxInc dro dstats : Bool)
  | drain (set : Bool) (td : Nat) (stats : Bool)
  | park (set : Bool) (td : Nat)
  | resume (set : Bool) (td : Nat)
  deriving DecidableEq, Repr

/-- VX slot (R263). -/
structure VxOp where
  op : Nat := 0
  vd : Nat := 0
  va : Nat := 0
  vb : Nat := 0
  vc : Nat := 0
  rmode : Nat := 0
  fmt : Nat := 0
  deriving DecidableEq, Repr

/-- LS slot (R264). -/
structure LsOp where
  op : Nat := 0
  bank : Nat := 0
  line : Nat := 0
  ixen : Bool := false
  ix : Nat := 0
  inc : Bool := false
  reg : Nat := 0
  deriving DecidableEq, Repr

/-- Where a move of the NW slot ends on its tile (R265): a bank line by index register, or a vector register. -/
inductive MoveEnd where
  | bank (bank ix : Nat) (inc : Bool)
  | vec (n : Nat)
  deriving DecidableEq, Repr

/-- NW slot (R265). -/
inductive NwOp where
  | nop
  | fwd (port mask : Nat)
  | recv (port : Nat) (dst : MoveEnd)
  | send (port : Nat) (src : MoveEnd)
  | addf (in1 in2 out slot : Nat)
  deriving DecidableEq, Repr

/-- SY slot (R266). -/
structure SyOp where
  op : Nat := 0
  handle : Nat := 0
  vreg : Nat := 0
  stepv : Bool := false
  deriving DecidableEq, Repr

/-- SP slot (R267). -/
structure SpOp where
  op : Nat := 0
  desc : Nat := 0
  slot : Nat := 0
  xreg : Nat := 0
  xinc : Bool := false
  arg : Nat := 0
  deriving DecidableEq, Repr

/-- A bundle (R41). -/
structure Bundle where
  ctl : Nat := 0
  arg : Nat := 0
  mx : MxOp := .nop
  vx : VxOp := {}
  ls : List LsOp := []
  nw : List NwOp := []
  sy : SyOp := {}
  sp : SpOp := {}
  deriving DecidableEq, Repr

/-! ### Slots (R42, R262-R267): none where the encoding is unassigned -/

/-- The value where a condition holds. -/
def okIf {α : Type} (c : Bool) (x : α) : Option α := if c then some x else none

/-- MX slot from its 32 bits.  BX and BXINC are used at OPEN only, and DSTATS with DRO only; the TD of a leaf without OPEN is not looked at
(DESIGN CHOICE: notes/assumptions/64.md). -/
def decodeMx (w : Nat) : Option MxOp :=
  let set := n1 w 27
  let td := nb w 26 19
  match nb w 31 28 with
  | 0 => okIf (decide (w = 0)) .nop
  | 1 => okIf (decide (nb w 3 0 = 0) && (n1 w 10 || decide (nb w 9 6 = 0)) && (n1 w 5 || !n1 w 4))
      (.leaf set td (nb w 18 16) (nb w 14 12) (n1 w 10) (nb w 9 7) (n1 w 6) (n1 w 5) (n1 w 4))
  | 2 => okIf (decide (nb w 18 16 = 0 ∧ nb w 14 0 = 0)) (.drain set td (n1 w 15))
  | 3 => okIf (decide (nb w 18 0 = 0)) (.park set td)
  | 4 => okIf (decide (nb w 18 0 = 0)) (.resume set td)
  | _ => none

/-- The fields that a VX operation uses: VD, VA, VB, VC, RMODE, FMT. -/
def vxUses (op : Nat) : List Bool :=
  match op with
  | 1 | 2 | 3 => [true, true, true, false, true, true]
  | 4 => [true, true, true, true, true, true]
  | 5 | 6 => [true, true, true, false, false, true]
  | 7 => [true, true, true, true, false, true]
  | 8 => [true, true, true, true, false, false]
  | 9 => [true, true, false, true, true, true]
  | 10 => [true, true, false, false, true, true]
  | 11 => [true, true, false, false, false, false]
  | 12 => [true, true, true, false, true, true]
  | 13 => [true, true, false, false, false, false]
  | 14 => [false, true, true, false, false, false]
  | 15 | 17 => [true, false, true, false, false, false]
  | 16 => [false, false, false, false, false, false]
  | _ => [true, true, true, true, false, true]

/-- An operation that rounds by a fixed mode and carries no RMODE (R83): EXP2 and the two Flowstone reads. -/
def fixedRmode (op : Nat) : Bool := op = 11 || op = 15 || op = 17

/-- VX slot from its 36 bits.  The RMODE of an operation with a fixed mode is judged by `badRmode`. -/
def decodeVx (w : Nat) : Option VxOp :=
  let x : VxOp := { op := nb w 35 30, vd := nb w 29 24, va := nb w 23 18, vb := nb w 17 12, vc := nb w 11 6, rmode := nb w 5 4, fmt := nb w 3 0 }
  let free := ([x.vd, x.va, x.vb, x.vc, if fixedRmode x.op then 0 else x.rmode, x.fmt].zip (vxUses x.op)).all
    fun p => p.2 || decide (p.1 = 0)
  if x.op = 0 then okIf (decide (w = 0)) x
  else if 18 < x.op then none
  else okIf (free &&
    (decide (x.op = 12) || (decide (x.rmode ≠ 3) && decide (x.fmt ≤ 8))) &&
    (match x.op with
      | 7 => decide (x.vc < 8)
      | 9 => decide (nb x.vc 3 0 ≤ 8 ∧ x.vc < 32)
      | 10 => decide (x.va < 63)
      | 12 => decide (x.fmt < 4)
      | 14 | 15 | 17 => decide (x.vb < 16)
      | _ => true)) x

/-- LS slot from its 28 bits. -/
def decodeLs (w : Nat) : Option LsOp :=
  let x : LsOp := { op := nb w 27 25, bank := nb w 24 20, line := nb w 19 11, ixen := n1 w 10, ix := nb w 9 7, inc := n1 w 6, reg := nb w 5 0 }
  let ixOk := x.ixen || (decide (x.ix = 0) && !x.inc)
  match x.op with
  | 0 => okIf (decide (w = 0)) x
  | 3 | 5 => okIf (ixOk && decide (x.reg ≤ 9)) x
  | 6 => okIf (ixOk && decide (x.reg ≤ 1)) x
  | 7 => okIf (decide (x.bank = 0 ∧ x.reg = 0) && !x.ixen && !x.inc) x
  | _ => okIf ixOk x

/-- An end of a receive or a send from the low 13 bits of its slot, with DST or SRC in bit 13. -/
def decodeEnd (w : Nat) : Option MoveEnd :=
  if n1 w 13 then okIf (decide (nb w 6 0 = 0)) (.vec (nb w 12 7))
  else okIf (decide (nb w 3 0 = 0)) (.bank (nb w 12 8) (nb w 7 5) (n1 w 4))

/-- Ports set in a mask. -/
def maskPorts (m : Nat) : List Nat := (List.range 5).filter m.testBit

/-- NW slot from its 20 bits. -/
def decodeNw (w : Nat) : Option NwOp :=
  match nb w 19 17 with
  | 0 => okIf (decide (w = 0)) .nop
  | 1 => okIf (decide (nb w 8 0 = 0 ∧ nb w 16 14 < 5 ∧ 1 ≤ (maskPorts (nb w 13 9)).length ∧ (maskPorts (nb w 13 9)).length ≤ 4))
      (.fwd (nb w 16 14) (nb w 13 9))
  | 2 => if nb w 16 14 < 5 then (decodeEnd w).map (.recv (nb w 16 14)) else none
  | 3 => if nb w 16 14 < 5 then (decodeEnd w).map (.send (nb w 16 14)) else none
  | 4 => okIf (decide (nb w 5 0 = 0 ∧ nb w 16 14 < 5 ∧ nb w 13 11 < 5 ∧ nb w 10 8 < 5))
      (.addf (nb w 16 14) (nb w 13 11) (nb w 10 8) (nb w 7 6))
  | _ => none

/-- SY slot from its 16 bits; INC uses no value register. -/
def decodeSy (w : Nat) : Option SyOp :=
  let x : SyOp := { op := nb w 15 13, handle := nb w 12 5, vreg := nb w 4 3, stepv := n1 w 2 }
  match x.op with
  | 0 => okIf (decide (w = 0)) x
  | 2 => okIf (decide (nb w 4 0 = 0)) x
  | 1 | 3 | 4 => okIf (decide (nb w 1 0 = 0)) x
  | _ => none

/-- SP slot from its 24 bits: DESC, SLOT, XREG and XINC are 0 where the operation does not use them, as are ARG's other bits. -/
def decodeSp (w : Nat) : Option SpOp :=
  let x : SpOp := { op := nb w 23 18, desc := nb w 17 10, slot := nb w 9 8, xreg := nb w 7 5, xinc := n1 w 4, arg := nb w 3 0 }
  let seed := x.op = 1 || x.op = 4
  let cgx := x.op = 3 || x.op = 6 || x.op = 7
  let keyed := x.op = 1 || x.op = 3 || x.op = 5 || x.op = 7 || x.op = 11 || x.op = 12 || x.op = 16
  if x.op = 0 then okIf (decide (w = 0)) x
  else if 0x1B < x.op then none
  else okIf ((!seed || decide (x.desc = 0)) && (keyed || decide (x.slot = 0)) && (cgx || (decide (x.xreg = 0) && !x.xinc)) &&
    (seed || ((x.xinc || decide (nb x.arg 1 0 = 0)) && (decide (x.op = 7) || decide (nb x.arg 3 2 = 0))))) x

/-- A bundle from its 256 bits; none where a slot carries an unassigned encoding (R42). -/
def decodeBundle (w : Nat) : Option Bundle :=
  let ctl := nb w 255 252
  let arg := nb w 251 244
  match decodeMx (nb w 243 212), decodeVx (nb w 211 176), decodeLs (nb w 175 148), decodeLs (nb w 147 120),
    [nb w 59 40, nb w 79 60, nb w 99 80, nb w 119 100].mapM decodeNw, decodeSy (nb w 39 24), decodeSp (nb w 23 0) with
  | some mx, some vx, some l0, some l1, some nw, some sy, some sp =>
    okIf (decide (ctl < 8) && (decide (ctl = 1 ∨ ctl = 4 ∨ ctl = 7) || decide (arg = 0)))
      { ctl, arg, mx, vx, ls := [l0, l1], nw, sy, sp }
  | _, _, _, _, _, _, _ => none

/-! ### SP descriptors by operation (R261) -/

/-- The fields SITE, VREG, SUB, P0, P1, P2 that an operation uses. -/
def spUses (op : Nat) : List Bool :=
  match op with
  | 2 => [true, false, true, true, false, false]
  | 3 => [true, true, true, true, false, false]
  | 5 | 7 | 8 => [true, true, false, true, true, true]
  | 6 => [true, true, true, true, true, true]
  | 9 | 10 => [false, false, true, true, true, true]
  | 11 | 12 | 16 => [true, true, true, true, true, false]
  | 13 | 14 | 15 | 17 => [false, false, true, true, true, false]
  | 18 | 19 | 20 | 21 | 22 | 23 | 27 => [false, false, false, true, true, true]
  | 24 => [false, true, true, true, false, false]
  | 25 | 26 => [false, true, true, false, false, false]
  | _ => [false, false, false, false, false, false]

/-- The passes that a filter set selects, in their order: 0 the maximum, 1 to 4 the digits of top-k, 5 the coarse mass, 6 and 7 the
refinements (R166; the codes: notes/assumptions/21.md). -/
def filterPasses (fset : Nat) : List Nat :=
  (if fset.testBit 0 then [0] else []) ++ (if fset.testBit 1 then [1, 2, 3, 4] else []) ++
    (if fset.testBit 0 || fset.testBit 2 || fset.testBit 3 then [5] else []) ++ (if fset.testBit 2 then [6, 7] else [])

/-- The values that an operation's descriptor may hold (R137, R138, R166, R191, R261, R376, R397).  A CG_DRAW may name a site of any kind, SR,
GUMBEL and LOGIT among them (DESIGN CHOICE: notes/assumptions/65.md). -/
def spValues (op : Nat) (d : SpDesc) (handles : Nat) : Bool :=
  match op with
  | 2 => decide (d.sub < 8 ∧ d.p0 < 4096)
  | 3 => decide (d.sub < 9 ∧ d.p0 < 2 ^ 16 ∧ (d.sub = 4 ∨ d.p0 = 0))
  | 6 => decide (d.p0 < 384 ∧ nb d.p2 7 4 = 0 ∧ nb d.p2 9 8 ≠ 3 ∧ d.p2 < 2 ^ 18) && (filterPasses (d.p2 % 256)).contains d.sub
  | 5 | 7 | 8 => decide (d.p0 < 384 ∧ nb d.p2 7 4 = 0 ∧ nb d.p2 9 8 ≠ 3 ∧ d.p2 < 2 ^ 18)
  | 9 => decide (d.sub < 4 ∧ d.p0 % 16 = 0 ∧ d.p0 < 8192 ∧ d.p1 < 2 ^ 16 ∧ d.p2 < 2 ^ 16)
  | 10 => decide (d.sub < 4 ∧ d.p0 < 2 ^ 16 ∧ d.p1 < 2 ^ 16 ∧ d.p2 < 2 ^ 16)
  | 11 | 12 => decide (d.sub < 16 ∧ d.p0 < 2 ^ 18 ∧ d.p1 < 2)
  | 16 => decide (d.sub = 0 ∧ d.p0 < 2 ^ 18 ∧ d.p1 < 2)
  | 13 | 14 | 15 | 17 => decide (d.sub < 3 ∧ d.p0 < 2 ^ 16 ∧ d.p1 < 2 ^ 18)
  | 18 | 19 | 22 | 23 => decide (d.p0 < 2 ^ 16 ∧ d.p1 < 2 ^ 16 ∧ d.p2 < handles)
  | 20 | 21 | 27 => decide (d.p0 < 32 ∧ d.p1 < 2 ^ 16 ∧ d.p2 < handles)
  | 24 => decide (d.sub < 2 ∧ d.p0 < 64)
  | 25 => decide (d.sub < 2)
  | 26 => decide (d.sub < 6)
  | _ => true

/-- The descriptor that an SP operation names is there, uses no other field, and holds values that the operation takes. -/
def spDescOk (op : Nat) (r : TileRec) (i : Nat) : Bool :=
  if op = 0 || op = 1 || op = 4 then true
  else match r.spds[i]? with
    | none => false
    | some d => ([d.site, d.vreg, d.sub, d.p0, d.p1, d.p2].zip (spUses op)).all (fun p => p.2 || decide (p.1 = 0)) &&
        decide (d.vreg < 64) && spValues op d r.handles.length

/-! ### What one bundle shows of itself (R47, R67, R83, R222) -/

/-- Every named descriptor and handle is there, and every descriptor's values are assigned (R42, R261, R266). -/
def namesOk (r : TileRec) (b : Bundle) : Bool :=
  (match b.mx with
    | .nop => true
    | .leaf _ td .. => decide (td < r.tds.length)
    | .drain _ td _ => decide (td < r.tds.length)
    | .park _ td => decide (td < r.tds.length)
    | .resume _ td => decide (td < r.tds.length)) &&
  (b.sy.op = 0 || decide (b.sy.handle < r.handles.length)) && spDescOk b.sp.op r b.sp.desc

/-- A fixed-mode operation names a mode (R83). -/
def badRmode (b : Bundle) : Bool := fixedRmode b.vx.op && decide (b.vx.rmode ≠ 0)

/-- The port uses of a move: (port, outgoing). -/
def moveUses : NwOp → List (Nat × Bool)
  | .nop => []
  | .fwd p m => (p, false) :: (maskPorts m).map fun q => (q, true)
  | .recv p _ => [(p, false)]
  | .send p _ => [(p, true)]
  | .addf a b o _ => [(a, false), (b, false), (o, true)]

/-- The port uses of a bundle. -/
def portUses (b : Bundle) : List (Nat × Bool) := b.nw.flatMap moveUses

/-- A list holds an element twice. -/
def hasDup {α : Type} [DecidableEq α] : List α → Bool
  | [] => false
  | x :: xs => xs.contains x || hasDup xs

/-- What lies beyond a port of a tile's router. -/
inductive Beyond where
  | tile (t : Nat)
  | iod
  | edge
  deriving DecidableEq, Repr

/-- COORD from its parts. -/
def coordN (d r c : Nat) : Nat := d * 256 + r * 16 + c

/-- The far side of a port (R222); `rows` is the number of logical rows of a die. -/
def beyond (rows t port : Nat) : Beyond :=
  let d := t / 256
  let r := t / 16 % 16
  let c := t % 16
  match port with
  | 0 => if 0 < r then .tile (coordN d (r - 1) c) else if 4 ≤ d then .tile (coordN (d - 4) (rows - 1) c) else .edge
  | 1 => if c < 15 then .tile (coordN d r (c + 1)) else if d % 4 ≠ 3 then .tile (coordN (d + 1) r 0) else .edge
  | 2 => if r + 1 < rows then .tile (coordN d (r + 1) c) else if d < 4 then .tile (coordN (d + 4) 0 c) else .edge
  | 3 => if 0 < c then .tile (coordN d r (c - 1)) else if d % 4 ≠ 0 then .tile (coordN (d - 1) r 15) else .iod
  | _ => .tile t

/-- The port of the far router that a port joins. -/
def opposite (port : Nat) : Nat := match port with | 0 => 2 | 1 => 3 | 2 => 0 | 3 => 1 | _ => 4

/-- Banks that the LS and NW slots name (R47). -/
def slotBanks (b : Bundle) : List Nat :=
  (b.ls.filterMap fun l => if l.op = 0 ∨ l.op = 7 then none else some l.bank) ++
  b.nw.filterMap fun m =>
    match m with
    | .recv _ (.bank k _ _) => some k
    | .send _ (.bank k _ _) => some k
    | _ => none

/-- The codes that a bundle alone is refused with (R42, R67, R83, R104, R120), in the order they are looked for. -/
def bundleCodes (rows t : Nat) (r : TileRec) (b : Bundle) : List Nat :=
  (if namesOk r b then [] else [0x10]) ++
  (if badRmode b then [0x16] else []) ++
  (if b.vx.op = 12 ∧ b.vx.rmode = 3 then [0x31] else []) ++
  (if hasDup (portUses b) then [0x22] else []) ++
  (if (portUses b).any fun p => beyond rows t p.1 = .edge then [0x23] else [])

end Sys2Proof.Machine
end

