-- ==== Sys2Proof/Machine/Image.lean ====
section
/-!
DEFINITION. The Aethold image: container, header and sections, and the checks of phases 1 to 3 of schedule load (R252-R258,
R260, R269-R275).
-/
namespace Sys2Proof.Machine

/-- A refusal: its code of R276 with the SECTION, TILE and ITEM of R279. -/
structure ImgRefusal where
  code : Nat
  sect : Nat := 0
  tile : Nat := 0
  item : Nat := 0
  deriving DecidableEq, Repr

/-- What the module brings to the checks: its grade, usable bytes of a stack, accepted NSVs, image policy and owner key. -/
structure ImgEnv where
  gradeB : Bool
  usable : Nat
  nsvMin : Nat
  nsvMax : Nat
  signed : Bool
  owner : List Byte
  deriving DecidableEq, Repr

/-- Bytes of the image from an offset on. -/
abbrev ImgBytes : Type := Nat → Nat → List Byte

/-- A little-endian field of the image. -/
def iLe (rd : ImgBytes) (o n : Nat) : Nat := ofLe (rd o n)

/-- Every byte is 0. -/
def allZero (bs : List Byte) : Bool := bs.all (· = 0)

/-! ### The container (R252-R255) -/

/-- A directory entry (R253). -/
structure Section where
  typ : Nat
  len : Nat
  off : Nat
  deriving DecidableEq, Repr

/-- The header's fields (R252). -/
def readHeader (rd : ImgBytes) : Header where
  contVer := iLe rd 8 2
  nsv := iLe rd 10 2
  grade := iLe rd 12 1
  profile := iLe rd 13 1
  cls := iLe rd 14 1
  flags := iLe rd 15 1
  moduleCount := iLe rd 16 2
  sections := iLe rd 18 2
  seedDecl := iLe rd 20 2
  freshDecl := iLe rd 22 2
  imageLen := iLe rd 24 8
  footprint := iLe rd 32 8
  variant := iLe rd 40 8
  logical := iLe rd 48 32
  digest := iLe rd 80 32

/-- The directory (R253). -/
def readDir (rd : ImgBytes) (n : Nat) : List Section :=
  (List.range n).map fun i => { typ := iLe rd (128 + 16 * i) 2, len := iLe rd (130 + 16 * i) 6, off := iLe rd (136 + 16 * i) 8 }

/-- The section of a type. -/
def sectionOf (dir : List Section) (typ : Nat) : Option Section := dir.find? fun x => x.typ = typ

/-- Section types that the module knows (R253). -/
def knownSections : List Nat := [1, 2, 3, 4, 5, 6, 7, 8, 0xF0]

/-- Two byte ranges overlap. -/
def overlap (a m b n : Nat) : Bool := decide (a < b + n ∧ b < a + m)

/-- A directory entry breaks a rule of R253, given the entries before it. -/
def badSection (h : Header) (before : List Section) (x : Section) : Bool :=
  decide (x.off % 64 ≠ 0) || decide (h.imageLen < x.off + x.len) || decide (x.off < 128 + 16 * h.sections) ||
  before.any (fun y => overlap x.off x.len y.off y.len || decide (x.typ = y.typ)) ||
  (decide (x.typ < 0x8000) && !knownSections.contains x.typ)

/-- The first entry that breaks a rule, by index. -/
def firstBadSection (h : Header) : List Section → List Section → Option Section
  | _, [] => none
  | before, x :: xs => if badSection h before x then some x else firstBadSection h (before ++ [x]) xs

/-- The directory's outcome (R253). -/
def checkDir (h : Header) (dir : List Section) : Option ImgRefusal :=
  if h.sections = 0 ∨ 64 < h.sections then some { code := 0x03 }
  else match firstBadSection h [] dir with
    | some x => some { code := 0x03, sect := x.typ }
    | none =>
      match ([1, 2, 3, 4, 5, 6, 8] ++ (if h.flags.testBit 0 then [0xF0] else [])).find? fun n => (sectionOf dir n).isNone with
      | some n => some { code := 0x03, sect := n }
      | none => none

/-- IMAGE_DIGEST covers bytes 128 up, the signature section apart (R252). -/
def imageDigest (rd : ImgBytes) (h : Header) (dir : List Section) : Digest :=
  match sectionOf dir 0xF0 with
  | none => sha3 (rd 128 (h.imageLen - 128))
  | some x => sha3 (rd 128 (x.off - 128) ++ rd (x.off + x.len) (h.imageLen - (x.off + x.len)))

/-- The owner's signature (R254). -/
def checkSignature (e : ImgEnv) (rd : ImgBytes) (dir : List Section) : Option ImgRefusal :=
  match sectionOf dir 0xF0 with
  | some x =>
    if x.len = 2420 ∧ Config.mldsaVerify e.owner (sha3 (rd 0 128)) (rd x.off x.len) then none else some { code := 0x05, sect := 0xF0 }
  | none => if e.signed then some { code := 0x06 } else none

/-- Phase 1 (R252-R255); `fits` says that the image's bytes lie in usable HBM (R239, R250). -/
def phase1 (e : ImgEnv) (fits : Bool) (rd : ImgBytes) (h : Header) (dir : List Section) : Option ImgRefusal :=
  if rd 0 8 ≠ ascii "CKAETHIM" then some { code := 0x01 }
  else if h.contVer / 256 ≠ 1 then some { code := 0x02 }
  else if h.nsv < e.nsvMin ∨ e.nsvMax < h.nsv then some { code := 0x08 }
  else if !fits then some { code := 0x29 }
  else match checkDir h dir with
    | some r => some r
    | none =>
      if imageDigest rd h dir ≠ BitVec.ofNat 256 (ofBe (rd 80 32)) then some { code := 0x04 } else checkSignature e rd dir

/-! ### The header against the module (R256) -/

/-- Regions of section 0x0008 (R270). -/
def readRegions (rd : ImgBytes) (x : Section) : List Region :=
  (List.range (x.len / 24)).map fun i =>
    let o := x.off + 24 * i
    { id := iLe rd o 2, kind := iLe rd (o + 2) 1, base := iLe rd (o + 8) 8, len := iLe rd (o + 16) 8 }

/-- The module's usable HBM (R2). -/
def usableCapacity (e : ImgEnv) : Nat := 32 * e.usable

/-- Phase 2 (R256).  Header bits that R252 states as 0 are fields too (notes/assumptions/26.md). -/
def phase2 (e : ImgEnv) (rd : ImgBytes) (h : Header) (regions : List Region) : Option ImgRefusal :=
  if h.grade ≠ b2n e.gradeB then some { code := 0x09 }
  else if h.profile = 0 ∨ 4 < h.profile ∨ h.moduleCount = 0 ∨ 4096 < h.moduleCount ∨
      h.footprint ≠ (regions.map Region.len).foldl (· + ·) 0 ∨ h.seedDecl &&& h.freshDecl ≠ 0 ∨
      8 ≤ h.flags ∨ 2 < h.cls ∨ !allZero (rd 112 16) then some { code := 0x07 }
  else if usableCapacity e < h.footprint then some { code := 0x0A }
  else none

/-! ### Tile records (R258, R260, R261) -/

/-- A tree descriptor (R260). -/
def readTd (bs : List Byte) : TreeDesc where
  site := leAt bs 0 2
  trm := nb (leAt bs 2 1) 1 0
  preload := n1 (leAt bs 2 1) 2
  stats := n1 (leAt bs 2 1) 3
  split := n1 (leAt bs 2 1) 4
  fast := n1 (leAt bs 2 1) 5
  keyslot := nb (leAt bs 2 1) 7 6
  fmtA := nb (leAt bs 3 1) 3 0
  fmtB := nb (leAt bs 3 1) 7 4
  outFmt := nb (leAt bs 4 1) 3 0
  rmode := nb (leAt bs 4 1) 5 4
  sat := n1 (leAt bs 4 1) 6
  stackBank := leAt bs 5 1
  stackLine := leAt bs 6 2
  leaves := leAt bs 8 4
  firstLeaf := leAt bs 12 4
  splitLevel := leAt bs 16 1
  statVreg := leAt bs 17 1
  statsLine := leAt bs 18 2
  c := BitVec.ofNat 32 (leAt bs 20 4)
  nOut := leAt bs 24 4

/-- An SP descriptor (R261). -/
def readSpd (bs : List Byte) : SpDesc where
  site := leAt bs 0 2
  vreg := leAt bs 2 1
  sub := leAt bs 3 1
  p0 := leAt bs 4 4
  p1 := leAt bs 8 4
  p2 := leAt bs 12 4

/-- Bytes of a record with its tables (R258). -/
def recLen (rd : ImgBytes) (o : Nat) : Nat := 64 + 32 * iLe rd (o + 8) 2 + 16 * iLe rd (o + 10) 2 + 4 * iLe rd (o + 12) 2

/-- A tile record at an offset; `ends` is set by phase 4. -/
def readRec (rd : ImgBytes) (o : Nat) : TileRec :=
  let nt := iLe rd (o + 8) 2
  let ns := iLe rd (o + 10) 2
  let ot := o + 64
  let os := ot + 32 * nt
  let oh := os + 16 * ns
  { coord := iLe rd o 2
    bstream := iLe rd (o + 2) 2
    bundles := iLe rd (o + 4) 4
    tds := (List.range nt).map fun i => readTd (rd (ot + 32 * i) 32)
    spds := (List.range ns).map fun i => readSpd (rd (os + 16 * i) 16)
    handles := (List.range (iLe rd (o + 12) 2)).map fun i => iLe rd (oh + 4 * i) 2
    svInit := (List.range 4).map fun i => iLe rd (o + 16 + 4 * i) 4
    svStep := (List.range 4).map fun i => iLe rd (o + 32 + 4 * i) 4
    partBank := iLe rd (o + 48) 1
    tagBank := iLe rd (o + 49) 1
    partLine := iLe rd (o + 50) 2
    partLines := iLe rd (o + 52) 2
    tagLine := iLe rd (o + 54) 2 }

/-- Offsets of the records of a section (R258): each starts at the first multiple of 64 after the one before it; `none` where one
runs past the end. -/
def recOffsets (rd : ImgBytes) (fin : Nat) : Nat → Nat → Option (List Nat)
  | 0, _ => some []
  | n + 1, o =>
    if fin ≤ o then some []
    else if fin < o + 64 ∨ fin < o + recLen rd o then none
    else (recOffsets rd fin n ((o + recLen rd o + 63) / 64 * 64)).map (o :: ·)

/-- Padding after a record, up to the next or the end of the section, is 0. -/
def paddingZero (rd : ImgBytes) (fin o : Nat) : Bool :=
  let a := o + recLen rd o
  allZero (rd a (min fin ((a + 63) / 64 * 64) - a))

/-- The permitted operand pairs (R260). -/
def pairOk (d : TreeDesc) : Bool :=
  ((d.fmtA = 3 || d.fmtA = 4) && (d.fmtB = 3 || d.fmtB = 4)) ||
  (d.fmtA = d.fmtB && (d.fmtA = 5 || d.fmtA = 1 || d.fmtA = 2 || (d.fmtA = 7 && d.trm = 0)))

/-- Fields of a tree descriptor that are in range and bits that are 0 (R42, R106, R260). -/
def tdFieldsOk (bs : List Byte) (d : TreeDesc) : Bool :=
  decide (d.nOut ≠ 0) && decide (d.rmode ≠ 3) && decide (d.outFmt ≤ 8) && decide (d.stackBank < 32) &&
  decide (d.stackLine + 21 ≤ 512) && decide (d.statVreg < 64) && decide (1 ≤ d.leaves) && decide (d.splitLevel ≤ 21) &&
  (if d.stats then decide (d.statsLine + 18 ≤ 512) else decide (d.statsLine = 0)) &&
  !n1 (leAt bs 4 1) 7 && allZero (bs.drop 28)

/-- A bundle stream as its record names it (R258, R259). -/
def streamFits (streams : List StreamDesc) (r : TileRec) : Bool :=
  match streams.find? fun d => d.id = r.bstream with
  | none => false
  | some d => decide (d.kind = 1 ∧ d.tile = r.coord ∧ 32 * r.bundles ≤ d.length)

/-- Logical rows of a die (R2). -/
def ImgEnv.rows (e : ImgEnv) : Nat := if e.gradeB then 14 else 16

/-- The outcome of one record (R258, R260). -/
def checkRec (e : ImgEnv) (h : Header) (streams : List StreamDesc) (rd : ImgBytes) (before : List TileRec) (i o : Nat) :
    Option ImgRefusal :=
  let r := readRec rd o
  let w : Nat → Option ImgRefusal := fun code => some { code, sect := 1, tile := r.coord % 2 ^ 16, item := i }
  if 256 < r.tds.length ∨ 256 < r.spds.length ∨ 256 < r.handles.length ∨ !allZero (rd (o + 14) 2) ∨ !allZero (rd (o + 56) 8) then w 0x03
  else if 2048 ≤ r.coord ∨ before.any (fun q => q.coord = r.coord) ∨ e.rows ≤ r.coord / 16 % 16 ∨
      (h.profile = 4 ∧ 4 ≤ r.coord / 256) then w 0x17
  else if !streamFits streams r then w 0x2B
  else if 32 ≤ r.partBank ∨ 32 ≤ r.tagBank ∨ 512 < r.partLine + r.partLines ∨
      (r.partLines ≠ 0 ∧ 512 < r.tagLine + ceilDiv r.partLines 8) ∨ r.handles.any (8192 ≤ ·) then w 0x10
  else if r.tds.any fun d => !pairOk d then w 0x15
  else if r.tds.zipIdx.any fun p => !tdFieldsOk (rd (o + 64 + 32 * p.2) 32) p.1 then w 0x10
  else none

/-- The first refusal among items in order, each seen with those before it. -/
def firstOf {α : Type} (f : List α → Nat → α → Option ImgRefusal) : List α → Nat → List α → Option ImgRefusal
  | _, _, [] => none
  | before, i, x :: xs =>
    match f before i x with
    | some r => some r
    | none => firstOf f (before ++ [x]) (i + 1) xs

/-- Every refusal among items in order, each seen with those before it. -/
def everyOf {α : Type} (f : List α → Nat → α → Option ImgRefusal) : List α → Nat → List α → List ImgRefusal
  | _, _, [] => []
  | before, i, x :: xs => (f before i x).toList ++ everyOf f (before ++ [x]) (i + 1) xs

/-- The refusal of the lowest (die, row, column), the earlier one of two (R275). -/
def lowestTile (rs : List ImgRefusal) : Option ImgRefusal :=
  rs.foldl (fun (o : Option ImgRefusal) r => match o with
    | none => some r
    | some q => if r.tile < q.tile then some r else some q) none

/-- The tile records of the image and the section's outcome (R258, R275). -/
def checkRecs (e : ImgEnv) (h : Header) (streams : List StreamDesc) (rd : ImgBytes) (x : Section) : Option ImgRefusal :=
  match recOffsets rd (x.off + x.len) (x.len / 64 + 1) x.off with
  | none => some { code := 0x03, sect := 1 }
  | some os =>
    lowestTile (everyOf (fun before i o => (checkRec e h streams rd (before.map (readRec rd)) i o).orElse fun _ =>
      if paddingZero rd (x.off + x.len) o then none else some { code := 0x03, sect := 1, tile := (readRec rd o).coord, item := i }) [] 0 os)

/-- The tile records of a section. -/
def readRecs (rd : ImgBytes) (x : Section) : List TileRec :=
  ((recOffsets rd (x.off + x.len) (x.len / 64 + 1) x.off).getD []).map (readRec rd)

/-! ### Streams and regions (R269, R270) -/

/-- A stream descriptor. -/
def readStream (bs : List Byte) : StreamDesc where
  base := leAt bs 0 6
  id := leAt bs 6 2
  length := leAt bs 8 6
  tile := leAt bs 14 2
  rowBytes := leAt bs 16 4
  rowStride := leAt bs 20 4
  bufBank := leAt bs 24 1
  bufNbanks := leAt bs 25 1
  bufLine := leAt bs 26 2
  bufLines := leAt bs 28 2
  rate := leAt bs 30 1
  kind := nb (leAt bs 31 1) 1 0
  fwd := n1 (leAt bs 31 1) 7
  rsv := nb (leAt bs 31 1) 6 2 ≠ 0

def readStreams (rd : ImgBytes) (x : Section) : List StreamDesc :=
  (List.range (x.len / 32)).map fun i => readStream (rd (x.off + 32 * i) 32)

/-- A range lies in usable HBM (R239). -/
def ImgEnv.inHbm (e : ImgEnv) (a n : Nat) : Bool :=
  n = 0 || (decide (a + n ≤ 2 ^ 41) && decide (a % 2 ^ 36 + n ≤ e.usable))

/-- Every run of a stream lies in usable HBM. -/
def streamInHbm (e : ImgEnv) (d : StreamDesc) : Bool :=
  if d.rowBytes = 0 then e.inHbm d.base d.length
  else (List.range (ceilDiv d.length d.rowBytes)).all fun k =>
    e.inHbm (d.base + k * d.rowStride) (min d.rowBytes (d.length - k * d.rowBytes))

/-- The slack buffers of two streams overlap. -/
def buffersMeet (a b : StreamDesc) : Bool :=
  decide (a.tile = b.tile) && overlap a.bufBank a.bufNbanks b.bufBank b.bufNbanks && overlap a.bufLine a.bufLines b.bufLine b.bufLines

/-- The outcome of a stream descriptor (R239, R259, R269). -/
def checkStream (e : ImgEnv) (before : List StreamDesc) (i : Nat) (d : StreamDesc) : Option ImgRefusal :=
  let w : Nat → Option ImgRefusal := fun code => some { code, sect := 2, tile := d.tile, item := i }
  let buffer :=
    if d.kind = 1 then decide (d.bufBank = 0 ∧ d.bufNbanks = 0 ∧ d.bufLine = 0 ∧ d.bufLines = 0)
    else decide (1 ≤ d.bufNbanks ∧ d.bufBank + d.bufNbanks ≤ 32 ∧ 1 ≤ d.bufLines ∧ d.bufLine + d.bufLines ≤ 512)
  if 2 ^ 41 ≤ d.base ∨ d.length % 64 ≠ 0 ∨ 2048 ≤ d.tile ∨ d.rowBytes % 64 ≠ 0 ∨ !buffer ∨ d.rate = 0 ∨ 128 < d.rate ∨ d.rsv ∨
      before.any (fun q => q.id = d.id || buffersMeet q d) then w 0x2B
  else if !streamInHbm e d then w 0x29
  else none

/-- Die crossings between two dies of the 2 × 4 grid (R225). -/
def dieHops (a b : Nat) : Nat := (max (a % 4) (b % 4) - min (a % 4) (b % 4)) + b2n (a / 4 ≠ b / 4)

/-- SLACK_SHORT (R269): the buffer holds fewer lines than D_wc, and the crossing beats of a forwarded stream, ask for. -/
def slackShort (d : StreamDesc) : Bool :=
  let x := if d.fwd then 6 * dieHops (d.base / 2 ^ 38) (d.tile / 256) else 0
  d.kind ≠ 1 && decide (d.bufNbanks * d.bufLines < ceilDiv ((2880 + x) * d.rate) 64)

/-- The outcome of a region (R270). -/
def checkRegion (e : ImgEnv) (rd : ImgBytes) (x : Section) (before : List Region) (i : Nat) (r : Region) : Option ImgRefusal :=
  if 8 < r.kind ∨ !allZero (rd (x.off + 24 * i + 3) 5) ∨ !e.inHbm r.base r.len ∨
      before.any (fun q => q.id = r.id || overlap q.base q.len r.base r.len)
  then some { code := 0x29, sect := 8, item := i } else none

/-! ### Sites, counters, checkpoint map, maintenance (R271-R274) -/

def readSites (rd : ImgBytes) (x : Section) : List Site :=
  (List.range (x.len / 16)).map fun i =>
    let o := x.off + 16 * i
    { site := iLe rd o 2, kind := iLe rd (o + 2) 1, flags := iLe rd (o + 3) 1, base := iLe rd (o + 4) 6, keyStep := iLe rd (o + 10) 6 }

/-- The outcome of a site (R271). -/
def checkSite (before : List Site) (i : Nat) (d : Site) : Option ImgRefusal :=
  if before.any fun q => q.site = d.site then some { code := 0x44, sect := 3, item := i }
  else if 8 < d.kind ∨ 3 ≤ d.flags ∨ (d.flags ≠ 2 ∧ d.keyStep ≠ 0) then some { code := 0x10, sect := 3, item := i }
  else none

def readSyncs (rd : ImgBytes) (x : Section) : List SyncAlloc :=
  (List.range (x.len / 8)).map fun i =>
    let o := x.off + 8 * i
    { index := iLe rd o 2, cls := iLe rd (o + 2) 1, agent := iLe rd (o + 3) 1, init := iLe rd (o + 4) 4 }

/-- The outcome of an allocation (R272). -/
def checkSync (before : List SyncAlloc) (i : Nat) (d : SyncAlloc) : Option ImgRefusal :=
  if 8192 ≤ d.index ∨ 1 < d.cls ∨ (d.cls = 0 ∧ d.agent ≠ 0) ∨ (d.cls = 1 ∧ (d.agent = 0 ∨ 4 < d.agent)) ∨
      before.any fun q => q.index = d.index
  then some { code := 0x26, sect := 4, item := i } else none

def readCkpt (rd : ImgBytes) (x : Section) : CkptMap where
  interval := iLe rd x.off 4
  mirrorA := iLe rd (x.off + 4) 1
  mirrorB := iLe rd (x.off + 5) 1
  region := iLe rd (x.off + 6) 2
  entries := (List.range ((x.len - 16) / 16)).map fun i =>
    let o := x.off + 16 + 16 * i
    { kind := iLe rd o 1, flags := iLe rd (o + 1) 1, tile := iLe rd (o + 2) 2, start := iLe rd (o + 4) 6, len := iLe rd (o + 10) 6 }

/-- An entry of the map lies in what it names (R273). -/
def ckptEntryOk (e : ImgEnv) (d : CkptEntry) : Bool :=
  decide (d.kind < 4 ∧ d.flags < 2 ∧ d.tile < 2048) &&
    (match d.kind with
      | 0 => decide (d.start + d.len ≤ 2 ^ 20)
      | 1 => e.inHbm d.start d.len
      | _ => true)

/-- Bytes of a map entry in a copy: the length of a range, the field-engine state of the image, or 128 bytes of each stream context
(R176, R273, R291). -/
def entryLen (h : Header) (e : CkptEntry) : Nat :=
  match e.kind with
  | 2 => Config.feBytes h.digest
  | 3 => 384 * 128
  | _ => e.len

/-- Bytes of a checkpoint copy, its header apart, for an image (R273, R303). -/
def copyBytes (h : Header) (m : CkptMap) : Nat := Config.hwStateBytes h.digest + (m.entries.map (entryLen h)).foldl (· + ·) 0

/-- Where a region's mirror lies (R317). -/
def mirrorBase (m : CkptMap) (base : Nat) : Nat := base + m.mirrorB * 2 ^ 38 - m.mirrorA * 2 ^ 38

/-- The outcome of the checkpoint map (R273, R317). -/
def checkCkpt (e : ImgEnv) (h : Header) (regions : List Region) (rd : ImgBytes) (x : Section) : Option ImgRefusal :=
  let m := readCkpt rd x
  let w := some { code := 0x2C, sect := 5 : ImgRefusal }
  if x.len < 16 ∨ x.len % 16 ≠ 0 then some { code := 0x03, sect := 5 }
  else if m.mirrorA = m.mirrorB ∨ 8 ≤ m.mirrorA ∨ 8 ≤ m.mirrorB ∨ (h.profile = 4 ∧ (4 ≤ m.mirrorA ∨ 4 ≤ m.mirrorB)) ∨
      !allZero (rd (x.off + 8) 8) then w
  else match regions.find? fun r => r.id = m.region with
    | none => w
    | some r =>
      if r.kind ≠ 7 ∨ r.base / 2 ^ 38 ≠ m.mirrorA ∨ r.len % 128 ≠ 0 ∨
          regions.any (fun q => overlap q.base q.len (mirrorBase m r.base) r.len) ∨ r.len / 2 < 256 + copyBytes h m then w
      else match m.entries.findIdx? fun d => !ckptEntryOk e d with
        | some i => some { code := 0x2C, sect := 5, item := i }
        | none => none

def readMaint (rd : ImgBytes) (x : Section) : List MaintDecl :=
  (List.range (x.len / 8)).map fun i =>
    let o := x.off + 8 * i
    { slot := iLe rd o 2, length := iLe rd (o + 2) 2, tasks := iLe rd (o + 4) 1 }

/-- The outcome of a maintenance declaration (R274). -/
def checkMaint (rd : ImgBytes) (x : Section) (before : List MaintDecl) (i : Nat) (d : MaintDecl) : Option ImgRefusal :=
  if 255 < d.slot ∨ d.length < 64 ∨ 7 < d.tasks ∨ !allZero (rd (x.off + 8 * i + 5) 3) ∨ before.any fun q => q.slot = d.slot
  then some { code := 0x13, sect := 6, item := i } else none

/-! ### Phase 3 (R275) -/

/-- The image declares one ECHO region of at least 64 MiB (R296). -/
def checkEcho (img : Image) : Option ImgRefusal :=
  match img.regions.filter fun r => r.kind = 8 with
  | [r] => if 0x4000000 ≤ r.len then none else some { code := 0x03, sect := 8 }
  | _ => some { code := 0x03, sect := 8 }

/-- A table's section holds whole entries. -/
def wholeEntries (x : Section) (n : Nat) : Option ImgRefusal := if x.len % n = 0 then none else some { code := 0x03, sect := x.typ }

/-- The image as its sections give it (R252-R274). -/
def readImage (rd : ImgBytes) (addr : Nat) : Image :=
  let h := readHeader rd
  let dir := readDir rd h.sections
  let sec := fun n => (sectionOf dir n).getD { typ := n, len := 0, off := 0 }
  { addr, hdr := h
    recs := readRecs rd (sec 1)
    streams := readStreams rd (sec 2)
    sites := readSites rd (sec 3)
    syncs := readSyncs rd (sec 4)
    ckpt := readCkpt rd (sec 5)
    maint := readMaint rd (sec 6)
    fe := match sectionOf dir 7 with
      | none => {}
      | some x => Config.feSection (rd x.off x.len)
    regions := readRegions rd (sec 8)
    barriers := Config.imageBarriers h.digest }

/-- The outcome of one section. -/
def checkSection (e : ImgEnv) (rd : ImgBytes) (img : Image) (x : Section) : Option ImgRefusal :=
  match x.typ with
  | 1 => checkRecs e img.hdr img.streams rd x
  | 2 => (wholeEntries x 32).orElse fun _ => firstOf (checkStream e) [] 0 img.streams
  | 3 => (wholeEntries x 16).orElse fun _ => firstOf checkSite [] 0 img.sites
  | 4 => (wholeEntries x 8).orElse fun _ => firstOf checkSync [] 0 img.syncs
  | 5 => checkCkpt e img.hdr img.regions rd x
  | 6 => (wholeEntries x 8).orElse fun _ => firstOf (checkMaint rd x) [] 0 img.maint
  | 8 => (wholeEntries x 24).orElse fun _ => (firstOf (checkRegion e rd x) [] 0 img.regions).orElse fun _ => checkEcho img
  | _ => none

/-- A section put in its place by offset. -/
def dirPut (x : Section) : List Section → List Section
  | [] => [x]
  | y :: ys => if x.off ≤ y.off then x :: y :: ys else y :: dirPut x ys

/-- Sections by their offsets. -/
def sortDir (dir : List Section) : List Section := dir.foldr dirPut []

/-- Phase 3: the sections, lowest offset first (R258-R261, R269-R275). -/
def phase3 (e : ImgEnv) (rd : ImgBytes) (img : Image) : Option ImgRefusal :=
  (sortDir (readDir rd img.hdr.sections)).findSome? (checkSection e rd img)

end Sys2Proof.Machine
end

