-- ==== Sys2Proof/Machine/Verify.lean ====
section
/-!
DEFINITION. Phases 4 to 6 of schedule load (R275): each tile's bundles with their loops unrolled, the checks across tiles, and the
image's class (R43, R44, R47, R48, R62, R67, R98-R122, R128, R131-R138, R145, R153, R191-R208, R222-R234, R257-R274, R468, R469).
-/
namespace Sys2Proof.Machine

/-! ### The walk's state -/

/-- What the schedule load knows of a line's tag (R117, R264): none, a partial, the parent of a partial, or that of a flit taken from a
port. -/
inductive Tg where
  | none
  | part (fast : Bool) (site trm block node : Nat)
  | parent (g : Tg)
  | flit (port n : Nat)
  /-- positions of the Roaster, the last of them written in the iteration before `iter` -/
  | pos (iter : Nat)
  deriving DecidableEq, Repr

/-- A set as the walk follows it (R109, R468): the first beat for a new leaf, the beat from which its output is there, the next leaf
position and the end of those assigned to it. -/
structure VSet where
  td : Nat := 0
  isOpen : Bool := false
  busy : Nat := 0
  out : Option Nat := none
  tag : Tg := .none
  pos : Nat := 0
  fin : Nat := 0
  half : Bool := false
  block : Nat := 0
  deriving DecidableEq, Repr

/-- Counter blocks that must issue ahead of the beat that uses them (R268): how many, in which beats (from `lo`, before `fin`), and for a
draw of the field engine the coordinates of its block, which further updates may share (R189, R203). -/
structure Want where
  beat : Nat
  cls : Nat
  level : Nat
  slot : Nat
  idx : Nat
  n : Nat
  lo : Nat
  fin : Nat
  blk : Option (List Nat) := none
  deriving DecidableEq, Repr

/-- The two blocks of a stochastic rounding in beat `r`: from r − 32 to r − 10 (R268). -/
def roundWant (r cls level slot idx : Nat) : Want := { beat := r, cls, level, slot, idx, n := 2, lo := r - 32, fin := r + 1 - 10 }

/-- What a Sieve operation supplies (R469): stream, step, pass (8 for the noised draw), row length, filter set, indices, bundle. -/
structure RowPart where
  stream : Nat
  step : Nat
  pass : Nat
  len : Nat
  fset : Nat
  xs : List Nat
  idx : Nat
  deriving DecidableEq, Repr

/-- The walk of one tile: where it is, what every register holds ready, and what it has found. -/
structure Walk where
  pc : Nat := 0
  beat : Nat := 0
  step : Nat := 0
  done : Bool := false
  /-- open levels: first bundle and iterations left -/
  loops : List (Nat × Nat) := []
  fails : List (Nat × Nat) := []
  vready : Tab Nat Nat := []
  mready : Tab Nat Nat := []
  vtag : Tab Nat Tg := []
  ptag : Tab Nat Tg := []
  setA : VSet := {}
  setB : VSet := {}
  parked : Tab Nat VSet := []
  ix : Tab Nat Nat := []
  cgx : Tab Nat Nat := []
  sv : Tab Nat Nat := []
  keyReady : Tab Nat Nat := []
  keyLoads : List (Nat × Nat) := []
  /-- bank uses of tree stacks, by beat (R47) -/
  stack : List (Nat × Nat) := []
  /-- last STATS drain by tree descriptor: row group and column (R114) -/
  order : Tab Nat (Nat × Nat) := []
  spBeats : List Nat := []
  wants : List Want := []
  addfs : List (Nat × Nat × Nat × Tg × Tg) := []
  combs : List (Nat × Nat × Tg × Tg) := []
  fsum : List (Nat × Option Tg) := []
  took : Tab Nat Nat := []
  gave : Tab Nat Nat := []
  sent : Tab (Nat × Nat) Tg := []
  ins : Tab (Nat × Nat) Nat := []
  outs : Tab (Nat × Nat) Nat := []
  cross : List (Nat × Nat × Nat) := []
  syncs : List (Nat × Nat × Nat) := []
  admits : List (Nat × Bool) := []
  rows : List RowPart := []
  feReady : Nat := 0
  lastEnd : Option Nat := none
  first : Bool := true
  updated : Bool := false
  openUpd : Bool := false
  /-- iterations of the step so far, END updates and FE_ROTs so far, and when each unit was last updated (R191, R195, R203, R205) -/
  iters : Nat := 0
  ends : Nat := 0
  rots : Nat := 0
  drawn : Tab Nat Nat := []
  /-- the END count up to which the tile's own positions have moved, the tags of source-table lines that moves have written, those written
  since the last evaluation, and those that an evaluation then read, with its bundle and iteration (R204) -/
  posIter : Nat := 0
  ltag : Tab Nat Tg := []
  fresh : List Tg := []
  fed : List (Nat × Nat × Tg) := []
  tdsUsed : List Nat := []
  /-- what the beat leaves to later ones (R48): vector registers with the beat they are usable from and their tag, index registers and CGX
  registers with a new value, or a step to add -/
  pv : List (Nat × Nat × Tg) := []
  pix : List (Nat × Option Nat) := []
  pcgx : List (Nat × Bool × Nat) := []
  deriving DecidableEq, Repr

/-- The walk finds a refusal at a bundle. -/
def Walk.fail (w : Walk) (c : Bool) (i code : Nat) : Walk := if c then { w with fails := w.fails ++ [(i, code)] } else w

def Walk.set (w : Walk) (b : Bool) : VSet := if b then w.setB else w.setA
def Walk.putSet (w : Walk) (b : Bool) (x : VSet) : Walk := if b then { w with setB := x } else { w with setA := x }
def Walk.cgxAt (w : Walk) (n : Nat) : Nat := tget w.cgx 0 n
def Walk.ixAt (w : Walk) (n : Nat) : Nat := tget w.ix 0 n
def Walk.ready (w : Walk) (v : Nat) : Bool := decide (tget w.vready 0 v ≤ w.beat)
def Walk.tagAt (w : Walk) (v : Nat) : Tg := tget w.vtag .none v

/-- A vector register is written: usable from a beat on, with a tag. -/
def Walk.wrote (w : Walk) (v at_ : Nat) (g : Tg) : Walk := { w with pv := w.pv ++ [(v, at_, g)] }
def Walk.cgxAdd (w : Walk) (n k : Nat) : Walk := { w with pcgx := w.pcgx ++ [(n, false, k)] }
def Walk.cgxSet (w : Walk) (n v : Nat) : Walk := { w with pcgx := w.pcgx ++ [(n, true, v)] }
def Walk.ixPut (w : Walk) (n : Nat) (v : Option Nat) : Walk := { w with pix := w.pix ++ [(n, v)] }

/-- The beat's results land (R48). -/
def Walk.land (w : Walk) : Walk :=
  let w := w.pv.foldl (fun (w : Walk) p => { w with vready := tset w.vready p.1 p.2.1, vtag := tset w.vtag p.1 p.2.2 }) w
  let w := w.pix.foldl (fun (w : Walk) p => { w with ix := tset w.ix p.1 (p.2.getD ((w.ixAt p.1 + 1) % 512)) }) w
  let w := w.pcgx.foldl (fun (w : Walk) p => { w with cgx := tset w.cgx p.1 (if p.2.1 then p.2.2 else w.cgxAt p.1 + p.2.2) }) w
  { w with pv := [], pix := [], pcgx := [] }

/-- What the walk of a tile reads: the image, the record, the rows of a die, and the tile's bundles. -/
structure VEnv where
  img : Image
  tr : TileRec
  rows : Nat
  code : List Bundle
  deriving DecidableEq, Repr

def VEnv.td (e : VEnv) (i : Nat) : TreeDesc := e.tr.tds.getD i {}
def VEnv.spd (e : VEnv) (i : Nat) : SpDesc := e.tr.spds.getD i {}
def VEnv.site (e : VEnv) (n : Nat) : Option Site := e.img.sites.find? fun x => x.site = n
/-- The site is in the table with this draw kind (R137). -/
def VEnv.kindIs (e : VEnv) (site kind : Nat) : Bool := (e.site site).any fun x => x.kind = kind

/-- Lines of the tile's source table, at most: each of its records makes one source per chain (R179, R181, R200); the descriptor names no
count (DESIGN CHOICE: notes/assumptions/65.md). -/
def VEnv.srcLines (e : VEnv) : Nat :=
  let n := ((e.img.fe.ranges.filter fun r => r.tile = e.tr.coord).map LedgerRange.count).foldl (· + ·) 0
  ceilDiv (min 16384 (n * e.img.fe.nchain)) (if e.img.fe.mode = 2 then 16 else 512)

/-- A line of the tile's source table, counted on through the banks. -/
def VEnv.inSources (e : VEnv) (bank line : Nat) : Bool :=
  let k := bank * 512 + line
  let b := e.img.fe.srcBank * 512 + e.img.fe.srcLine
  decide (b ≤ k ∧ k < b + e.srcLines)

/-- Banks of the source table, whose port an update takes for the states that it writes (R47, R181, R191). -/
def VEnv.srcBanks (e : VEnv) : List Nat :=
  if e.srcLines = 0 then [] else
    (List.range ((e.img.fe.srcLine + e.srcLines - 1) / 512 + 1)).map (e.img.fe.srcBank + ·)

/-- A line of a slack buffer of the tile (R49). -/
def VEnv.inBuffer (e : VEnv) (bank line : Nat) : Bool :=
  e.img.streams.any fun d => d.kind ≠ 1 && d.tile = e.tr.coord && decide (d.bufBank ≤ bank ∧ bank < d.bufBank + d.bufNbanks ∧
    d.bufLine ≤ line ∧ line < d.bufLine + d.bufLines)

/-! ### Loops (R43, R44, R259), HALT, maintenance (R274) -/

/-- Violations of the loop structure, the first bundle of each open level (`none` for LOOP_ONE, which closes at once) kept in a
stack; `halted` once a HALT outside every loop has come. -/
def loopCodes : List Bundle → Nat → List Nat → Bool → List (Nat × Nat)
  | [], i, open_, halted => (match open_.reverse with
      | [] => []
      | b :: _ => if halted then [] else [(b, 0x11)]) ++ (if halted then [] else [(i - 1, 0x10)])
  | b :: bs, i, open_, halted =>
    match b.ctl with
    | 1 => (if 4 ≤ open_.length then [(i, 0x11)] else []) ++ loopCodes bs (i + 1) (i :: open_) halted
    | 7 => (if 4 ≤ open_.length then [(i, 0x11)] else []) ++ loopCodes bs (i + 1) open_ halted
    | 2 => match open_ with
      | [] => (i, 0x11) :: loopCodes bs (i + 1) [] halted
      | o :: os => (if o / 2048 ≠ i / 2048 then [(o, 0x12)] else []) ++ loopCodes bs (i + 1) os halted
    | 3 => (if open_.isEmpty then [] else [(i, 0x11)]) ++ loopCodes bs (i + 1) open_ halted
    | 6 => if open_.isEmpty then loopCodes bs (i + 1) [] true else (i, 0x11) :: loopCodes bs (i + 1) open_ halted
    | _ => loopCodes bs (i + 1) open_ halted

/-- The slots that a maintenance slot leaves idle (R274). -/
def maintIdle (b : Bundle) : Bool :=
  b.mx == .nop && decide (b.vx.op = 0) && b.ls.all (fun l => l.op = 0) && decide (b.sp.op = 0)

/-- A maintenance slot that is open: its first bundle, its declared length, its beats so far, and the loop levels opened inside it with their
iterations and the beats before them. -/
structure MaintOpen where
  first : Nat
  len : Nat
  beats : Nat
  levels : List (Nat × Nat)
  deriving DecidableEq, Repr

/-- Violations of maintenance slots (R274): a slot counts its beats with the loops inside it unrolled, and crosses no level that is open
around it. -/
def maintCodes (decls : List MaintDecl) : List Bundle → Nat → Option MaintOpen → List (Nat × Nat)
  | [], _, o => match o with
    | some m => [(m.first, 0x13)]
    | none => []
  | b :: bs, i, o =>
    match o with
    | none =>
      if b.ctl = 4 then
        match decls.find? fun d => d.slot = b.arg with
        | some d => (if maintIdle b then [] else [(i, 0x13)]) ++ maintCodes decls bs (i + 1) (some ⟨i, d.length, 1, []⟩)
        | none => (i, 0x13) :: maintCodes decls bs (i + 1) none
      else (if b.ctl = 5 then [(i, 0x13)] else []) ++ maintCodes decls bs (i + 1) none
    | some m =>
      let bad := fun (c : Bool) => if c || !maintIdle b then [(i, 0x13)] else []
      match b.ctl, m.levels with
      | 0, _ => bad false ++ maintCodes decls bs (i + 1) (some { m with beats := m.beats + 1 })
      | 7, _ => bad false ++ maintCodes decls bs (i + 1) (some { m with beats := m.beats + b.arg + 1 })
      | 1, ls => bad false ++ maintCodes decls bs (i + 1) (some { m with beats := 1, levels := (b.arg + 1, m.beats) :: ls })
      | 2, (n, k) :: ls => bad false ++ maintCodes decls bs (i + 1) (some { m with beats := k + n * (m.beats + 1), levels := ls })
      | 5, ls => bad (!ls.isEmpty || decide (m.beats + 1 ≠ m.len)) ++ maintCodes decls bs (i + 1) none
      | _, _ => bad true ++ maintCodes decls bs (i + 1) (some { m with beats := m.beats + 1 })

/-! ### Trees (R98-R118, R268, R468) -/

/-- Nodes that a leaf completes (R107): level, formed by a rounded sum, and left pending for a right sibling. -/
def nodesAfter (pos fin top : Nat) : Nat → Nat → List (Nat × Bool × Bool)
  | 0, _ => []
  | n + 1, l =>
    if top < l ∨ ((pos + 1) % 2 ^ l ≠ 0 ∧ pos + 1 ≠ fin) then []
    else
      let j := pos / 2 ^ l
      (l, decide ((2 * j + 1) * 2 ^ (l - 1) < fin), decide (l < top ∧ j % 2 = 0 ∧ (j + 1) * 2 ^ l < fin)) :: nodesAfter pos fin top n (l + 1)

/-- What a tree descriptor is refused with where a tree opens (R98, R104, R114, R118). -/
def tdCode (d : TreeDesc) : Option Nat :=
  if d.trm = 3 then some 0x31
  else if 2 ^ 21 < d.leaves then some 0x30
  else if d.split && !d.fast && decide (treeDepth d.leaves ≤ d.splitLevel ∨ d.firstLeaf % 2 ^ d.splitLevel ≠ 0 ∨ d.leaves ≤ d.firstLeaf) then some 0x33
  else if d.stats && decide (2 ^ 20 < d.nOut) then some 0x36
  else none

/-- The first position beyond those that a descriptor's part forms (R468). -/
def partEnd (d : TreeDesc) : Nat :=
  if d.split && !d.fast then min d.leaves ((d.firstLeaf / 2 ^ d.splitLevel + 1) * 2 ^ d.splitLevel) else d.leaves

/-- Leaves that a LEAF forms, given a half leaf before it (R52, R262, R467). -/
def leavesOf (d : TreeDesc) (half : Bool) : Nat := match d.fmtA with | 5 => 2 | 1 | 2 => b2n half | _ => 1

/-- Bank uses and roundings of one leaf position (R106, R107, R268); INT8 trees have neither (R56).  A node that reads its left child's line and
is itself left pending uses the port once in its beat (DEDUCED: notes/assumptions/64.md); a stack line in a slack buffer is a scheduled store
there (R49). -/
def Walk.leafAt (w : Walk) (e : VEnv) (d : TreeDesc) (i pos : Nat) : Walk :=
  if d.fmtA = 7 then w
  else
    let ns := nodesAfter pos d.leaves (topLevel d) 22 1
    let w := w.fail (ns.any fun n => n.2.2 && decide (4 ≤ n.1) && e.inBuffer d.stackBank (d.stackLine + (n.1 - 4))) i 0x21
    { w with
      wants := w.wants ++ (if d.trm = 2 then [roundWant w.beat 0 0 d.keyslot i] else []) ++
        ns.filterMap fun n => if n.2.1 && decide (d.trm ≠ 0) then some (roundWant (w.beat + n.1) 1 n.1 d.keyslot i) else none
      stack := w.stack ++ ns.filterMap fun n =>
        if (n.2.1 && decide (5 ≤ n.1)) || (n.2.2 && decide (4 ≤ n.1)) then some (w.beat + n.1, d.stackBank) else none }

/-- A statistics leaf formed in beat `c` for block `block` of a descriptor (R114): its order, the bank uses of its nodes, and the register
that the last column writes. -/
def Walk.statLeaf (w : Walk) (e : VEnv) (i td : Nat) (d : TreeDesc) (block c vreg : Nat) : Walk :=
  let n := ceilDiv d.nOut 4
  let col := block % n
  let grp := block / n
  let good := match tfind w.order td with
    | none => decide (col = 0)
    | some (g, k) => if k + 1 = n then decide (col = 0) else decide (g = grp ∧ k + 1 = col)
  let ns := nodesAfter col n (treeDepth n) 22 1
  let first := decide (col % 2 = 0 ∧ col + 1 < n)
  let w := w.fail (!good) i 0x39
  let w := w.fail ((first && e.inBuffer d.stackBank d.statsLine) || ns.any fun m => m.2.2 && e.inBuffer d.stackBank (d.statsLine + m.1)) i 0x21
  let w := { w with
    order := tset w.order td (grp, col)
    stack := w.stack ++ (if first then [(c, d.stackBank)] else []) ++ ns.filterMap fun m => if m.2.1 || m.2.2 then some (c + m.1, d.stackBank) else none }
  if col + 1 = n then w.wrote vreg (c + 1 + treeDepth n) .none else w

/-- The tag of a descriptor's partial (R117, R121). -/
def partTag (d : TreeDesc) (block : Nat) : Tg :=
  .part d.fast d.site d.trm block (nodeNum (topLevel d) (if d.fast then 0 else d.firstLeaf / 2 ^ topLevel d))

/-- A drain of a set (R109, R114, R262, R468). -/
def Walk.drain (w : Walk) (e : VEnv) (i : Nat) (b stats : Bool) : Walk :=
  let x := w.set b
  if !x.isOpen then w.fail true i 0x35
  else
    let d := e.td x.td
    let c := w.beat + topLevel d
    let w := w.fail (decide (x.pos < x.fin) || x.half) i 0x38
    let part := d.split || d.fast
    let w := w.putSet b { x with
      isOpen := false, busy := c + 2, out := some (c + 1),
      tag := if part then partTag d x.block else .none }
    let w := if d.rmode = 2 && !part then
      { w with wants := w.wants ++ [roundWant c 2 0 d.keyslot i] } else w
    if stats then w.statLeaf e i x.td d x.block c d.statVreg else w

/-- The MX slot (R55, R101, R103, R108, R109, R137, R262, R468). -/
def Walk.mx (w : Walk) (e : VEnv) (i : Nat) (b : Bundle) : Walk :=
  match b.mx with
  | .nop => w
  | .leaf set td ar br isNew bx bxInc dro dst =>
    let d := e.td (if isNew then td else (w.set set).td)
    let x := w.set set
    let w := w.fail (([ar, br] ++ (if d.fmtA = 5 then [8, 9] else [])).any fun r => w.beat < tget w.mready 0 r) i 0x14
    let w := w.fail (decide (w.beat < x.busy) || (isNew && x.isOpen) || (!isNew && !x.isOpen)) i 0x35
    let w := if !isNew then w else
      let w := match tdCode d with
        | some c => w.fail true i c
        | none => w
      let w := w.fail ((e.site d.site).any fun s => decide (s.keyStep ≠ w.step)) i 0x34
      let w := w.fail (if d.trm ≠ 0 ∨ d.rmode = 2 then !e.kindIs d.site 0 else (e.site d.site).isNone) i 0x42
      let w := w.fail (decide (2 ^ 21 ≤ w.cgxAt bx)) i 0x32
      let w := w.putSet set { x with td, isOpen := true, pos := d.firstLeaf + b2n d.preload, fin := partEnd d, half := false, block := w.cgxAt bx }
      let w := { w with tdsUsed := if w.tdsUsed.contains td then w.tdsUsed else td :: w.tdsUsed }
      if bxInc then w.cgxAdd bx 1 else w
    let x := w.set set
    let w := if !x.isOpen then w else
      let k := leavesOf d x.half
      let w := w.fail (decide (x.fin < x.pos + max k 1)) i 0x38
      let w := (List.range k).foldl (fun w j => w.leafAt e d i (x.pos + j)) w
      w.putSet set { x with pos := x.pos + k, half := (d.fmtA = 1 || d.fmtA = 2) && !x.half }
    if dro then w.drain e i (!set) dst else w
  | .drain set td stats => (w.fail ((w.set set).isOpen && decide ((w.set set).td ≠ td)) i 0x10).drain e i set stats
  | .park set td =>
    let x := w.set set
    let d := e.td (if x.isOpen then x.td else td)
    let w := { w with stack := w.stack ++ (List.range 4).map fun k => (w.beat + k, d.stackBank) }
    let w := w.fail ((List.range 4).any fun k => e.inBuffer d.stackBank (d.stackLine + 17 + k)) i 0x21
    if x.isOpen then { (w.putSet set { x with isOpen := false }) with parked := tset w.parked td x } else w
  | .resume set td =>
    let x := w.set set
    let o := tfind w.parked td
    let d := e.td ((o.map VSet.td).getD td)
    let w := { w with stack := w.stack ++ (List.range 4).map fun k => (w.beat + k, d.stackBank) }
    let w := w.fail x.isOpen i 0x35
    match o with
    | some y => { (w.putSet set { y with busy := x.busy, out := x.out, tag := x.tag }) with parked := tdel w.parked td }
    | none => w

/-! ### VX, LS, NW, SY -/

/-- Vector registers that a VX operation reads (R263). -/
def vxReads (x : VxOp) : List Nat :=
  match x.op with
  | 1 | 2 | 3 | 5 | 6 | 7 | 8 | 12 => [x.va, x.vb]
  | 4 => [x.va, x.vb, x.vc]
  | 9 | 11 | 13 | 14 => [x.va]
  | 10 => [x.va, x.va + 1]
  | 18 => [x.va]
  | _ => []

/-- Vector register that a VX operation writes. -/
def vxWrites (x : VxOp) : Option Nat := match x.op with | 0 | 7 | 14 | 16 => none | _ => some x.vd

/-- The VX slot (R48, R119, R122, R268). -/
def Walk.vx (w : Walk) (e : VEnv) (i : Nat) (b : Bundle) : Walk :=
  let x := b.vx
  let ga := w.tagAt x.va
  let stat := match ga with
    | .part _ site _ block _ => (e.tr.tds.zipIdx.find? fun p => p.1.stats && decide (p.1.site = site)).map fun p => (p, block)
    | _ => none
  let w := w.fail ((vxReads x).any fun r => !w.ready r) i 0x14
  let w := match x.op with
    | 12 => { w with
        combs := w.combs ++ [(i, x.rmode, ga, w.tagAt x.vb)]
        wants := if x.rmode = 0 then w.wants else w.wants ++ [roundWant w.beat 3 0 (x.fmt % 4) i] }
    | 14 => { w with fsum := w.fsum ++ [(i, some ga)] }
    | 16 | 17 => { w with fsum := w.fsum ++ [(i, none)] }
    | _ => w
  match vxWrites x, (if x.op = 18 then stat else none) with
  | none, _ => w
  | some v, some ((d, td), block) => w.statLeaf e i td d block w.beat v
  | some v, none => w.wrote v (w.beat + 1) (if x.op = 12 ∨ x.op = 13 then .parent ga else .none)

/-- The line that an LS access resolves (R47). -/
def Walk.lsLine (w : Walk) (l : LsOp) : Nat := if l.ixen then (l.line + w.ixAt l.ix) % 512 else l.line

/-- Position of a line in the tile's partial region (R264). -/
def inPart (r : TileRec) (bank line : Nat) : Option Nat :=
  if bank = r.partBank ∧ r.partLine ≤ line ∧ line < r.partLine + r.partLines then some (line - r.partLine) else none

/-- The partial position that an LDV, STV or STD reaches, with its tag access (R264). -/
def Walk.lsPart (w : Walk) (e : VEnv) (l : LsOp) : Option Nat :=
  if l.op = 1 ∨ l.op = 2 ∨ l.op = 6 then inPart e.tr l.bank (w.lsLine l) else none

/-- A line of the source table is written by a move or a store (R181, R204). -/
def Walk.intoTable (w : Walk) (e : VEnv) (bank line : Nat) (g : Tg) : Walk :=
  if e.inSources bank line then { w with ltag := tset w.ltag (bank * 512 + line) g, fresh := g :: w.fresh } else w

/-- The tag of a source-table line as it is sent: that of the move that last wrote it, else the tile's own positions (R204). -/
def Walk.fromTable (w : Walk) (e : VEnv) (bank line : Nat) : Tg :=
  if e.inSources bank line then tget w.ltag (.pos w.posIter) (bank * 512 + line) else .none

/-- What the LS slots read and store (R47, R48, R49, R109, R264). -/
def Walk.lsUse (w : Walk) (e : VEnv) (i : Nat) (l : LsOp) : Walk :=
  let w := w.fail (decide (l.op = 2) && !w.ready l.reg) i 0x14
  let w := w.fail (decide (l.op = 6) && !((w.set (l.reg = 1)).out.any (· ≤ w.beat))) i 0x14
  let w := w.fail (decide (l.op = 2 ∨ l.op = 6) && (e.inBuffer l.bank (w.lsLine l) ||
    (w.lsPart e l).any fun p => e.inBuffer e.tr.tagBank (e.tr.tagLine + p / 8))) i 0x21
  let w := if l.op = 2 then w.intoTable e l.bank (w.lsLine l) (w.tagAt l.reg)
    else if l.op = 6 then w.intoTable e l.bank (w.lsLine l) .none else w
  match w.lsPart e l with
  | none => w
  | some p => if l.op = 1 then w else { w with ptag := tset w.ptag p (if l.op = 2 then w.tagAt l.reg else (w.set (l.reg = 1)).tag) }

/-- What the LS slots load, and how index registers move (R47, R48, R264). -/
def Walk.lsLand (w : Walk) (e : VEnv) (l : LsOp) : Walk :=
  let w := match l.op with
    | 1 => w.wrote l.reg (w.beat + 1) (match w.lsPart e l with
        | some p => tget w.ptag .none p
        | none => w.fromTable e l.bank (w.lsLine l))
    | 4 => w.wrote l.reg (w.beat + 1) .none
    | 3 | 5 => { w with mready := tset w.mready l.reg (w.beat + 1) }
    | _ => w
  if l.op = 7 then w.ixPut l.ix (some l.line)
  else if l.op ≠ 0 && l.ixen && l.inc then w.ixPut l.ix none else w

/-- The next flit of a port, as the tag of what it brings (R67). -/
def Walk.take (w : Walk) (port : Nat) : Tg × Walk :=
  let n := tget w.took 0 port
  (.flit port n, { w with took := tset w.took port (n + 1), ins := tset w.ins (port, w.step) (tget w.ins 0 (port, w.step) + 1) })

/-- A flit leaves on a port (R67, R224). -/
def Walk.give (w : Walk) (i port : Nat) (g : Tg) : Walk :=
  let n := tget w.gave 0 port
  { w with
    gave := tset w.gave port (n + 1)
    sent := tset w.sent (port, n) g
    outs := tset w.outs (port, w.step) (tget w.outs 0 (port, w.step) + 1)
    cross := w.cross ++ [(port, w.beat, i)] }

/-- Index register of an end of a move. -/
def Walk.endInc (w : Walk) : MoveEnd → Walk
  | .bank _ ix true => w.ixPut ix none
  | _ => w

/-- One NW slot (R67, R120, R265). -/
def Walk.nw (w : Walk) (e : VEnv) (i : Nat) : NwOp → Walk
  | .nop => w
  | .fwd p m =>
    let (g, w) := w.take p
    (maskPorts m).foldl (fun w q => w.give i q g) w
  | .recv p dst =>
    let (g, w) := w.take p
    (match dst with
      | .vec v => w.wrote v (w.beat + 1) g
      | .bank k ix _ => (w.fail (e.inBuffer k (w.ixAt ix)) i 0x21).intoTable e k (w.ixAt ix) g).endInc dst
  | .send p src =>
    let g := match src with
      | .vec v => w.tagAt v
      | .bank k ix _ => w.fromTable e k (w.ixAt ix)
    let w := w.fail (match src with
      | .vec v => !w.ready v
      | _ => false) i 0x14
    (w.give i p g).endInc src
  | .addf a b o slot =>
    let (ga, w) := w.take a
    let (gb, w) := w.take b
    { (w.give i o (.parent ga)) with addfs := w.addfs ++ [(i, w.beat, slot, ga, gb)] }

/-- The SY slot (R230, R266). -/
def Walk.sy (w : Walk) (e : VEnv) (i : Nat) (x : SyOp) : Walk :=
  if x.op = 0 then w
  else
    let v := tget w.sv (e.tr.svInit.getD x.vreg 0) x.vreg
    let w := { w with syncs := w.syncs ++ [(e.tr.handles.getD x.handle 0, x.op, i)] }
    let w := w.fail (decide (x.op = 3 ∧ 0xFFFF < v)) i 0x10
    if x.stepv then { w with sv := tset w.sv x.vreg ((v + e.tr.svStep.getD x.vreg 0) % 2 ^ 32) } else w

/-! ### SP (R131-R138, R145, R153, R188-R208, R268, R469) -/

/-- A CGX register after the operation that names it (R138, R267). -/
def Walk.cgxStep (w : Walk) (x : SpOp) : Walk :=
  if x.xinc then w.cgxAdd x.xreg ([1, 4, 8, 16].getD (x.arg % 4) 1) else w

/-- A key is loaded (R62, R131, R169). -/
def Walk.loadKey (w : Walk) (slot : Nat) : Walk :=
  { w with keyReady := tset w.keyReady slot (w.beat + 10), keyLoads := w.keyLoads ++ [(slot, w.beat)] }

/-- The key slot of an issue is loaded and expanded (R62, R132). -/
def Walk.keyOk (w : Walk) (slot : Nat) : Bool := (tfind w.keyReady slot).any (· ≤ w.beat)

/-- End of the bytes that an FE_STORE reaches in its region (R194, R196, R214). -/
def storeEnd (fe : FeDesc) (tile : Nat) (d : SpDesc) : Nat :=
  let stride := ceilDiv (ceilDiv fe.nvar 8) 64 * 64
  (fe.places.filter fun p => p.tile = tile && decide (p.unit / 16 = nb d.p1 17 16) && (d.p1 % 2 ^ 16).testBit (p.unit % 16)).foldl
    (fun n p => max n (match d.sub with
      | 0 => p.var / 8 + p.chain * stride + 1
      | 1 => (p.var + p.chain * fe.nvar + 1) * 4
      | _ => (p.var + p.chain * fe.nvar + 1) * 8)) 0

/-- A write of the program into a region that takes none, or into the record of an OUTPUT region (R187, R270, R288). -/
def VEnv.readOnly (e : VEnv) (x : SpOp) (d : SpDesc) : Bool :=
  let region := match x.op with
    | 18 | 19 | 20 | 23 => some d.p1
    | 13 | 14 => some d.p0
    | _ => none
  match region.bind fun n => e.img.regions.find? fun r => r.id = n with
  | none => false
  | some r => (decide (r.kind ≤ 2 ∨ 7 ≤ r.kind)) || (decide (r.kind = 4) &&
      (decide (x.op = 23) || (decide (x.op = 14) && decide (r.len < storeEnd e.img.fe e.tr.coord d + 512))))

/-- A unit that an update names has another colour in the placement map (R188). -/
def VEnv.wrongColour (e : VEnv) (block : Nat) (d : SpDesc) : Bool :=
  e.img.fe.places.any fun p => p.tile = e.tr.coord && p.block = block && decide (p.unit / 16 = nb d.p0 17 16) && d.p0.testBit (p.unit % 16) && p.colour ≠ d.sub

/-- Field-engine and Roaster operations. -/
def isFe (op : Nat) : Bool := 9 ≤ op && op ≤ 17

/-- The draw kind that an operation's site must have (R137). -/
def drawKind (x : SpOp) (d : SpDesc) : Option Nat :=
  match x.op with
  | 3 => some d.sub
  | 7 => some 6
  | 11 => some 7
  | 12 => some 6
  | 16 => some 5
  | _ => none

/-- Bits of a draw kind (R136, R139). -/
def kindWidth (k : Nat) : Nat := match k with | 1 => 8 | 0 | 2 | 4 => 16 | _ => 32

/-- The program has Roaster updates, so its evaluations are iterations, not sweeps. -/
def VEnv.roaster (e : VEnv) : Bool := e.code.any fun b => b.sp.op = 16

/-- The block of the rotation that is resident (R194, R195). -/
def Walk.block (w : Walk) (e : VEnv) : Nat :=
  let r := e.img.fe.rotation
  ((if w.rots = 0 then r.head? else r[(w.rots - 1) % r.length]?).map Prod.fst).getD 0

/-- The units that an update draws for: the named ones outside one-hot groups, the members of the first named group, or all named ones
(R188, R190, R201). -/
def Walk.drawUnits (w : Walk) (e : VEnv) (op : Nat) (d : SpDesc) : List Place :=
  let here := e.img.fe.places.filter fun p => p.tile = e.tr.coord && p.block = w.block e
  let named := (List.range 16).filterMap fun j =>
    if d.p0.testBit j then here.find? fun p => p.unit = 16 * nb d.p0 17 16 + j else none
  match op with
  | 11 => named.filter fun p => p.group = 0
  | 12 => match named.find? fun p => p.group ≠ 0 with
    | none => []
    | some g => here.filter fun p => p.group = g.group
  | _ => named

/-- The blocks that an update's draws need (R189, R190, R203, R268): one for each four variables of a chain, issued 12 beats or more before
the update (R145) and after the units were last updated; the window is the model's (DESIGN CHOICE: notes/assumptions/65.md). -/
def Walk.drawWants (w : Walk) (i : Nat) (x : SpOp) (d : SpDesc) (us : List Place) : List Want :=
  let quads := (us.map fun p => (p.chain, p.var / 4)).eraseDups
  quads.map fun q => {
    beat := w.beat, cls := 5, level := 0, slot := x.slot, idx := i, n := 1
    lo := us.foldl (fun n p => if (p.chain, p.var / 4) = q then max n ((tfind w.drawn p.unit).elim 0 (· + 1)) else n) 0
    fin := w.beat + 1 - 12
    blk := some [x.slot, w.step, d.site, q.1, q.2, if x.op = 16 then w.iters else 0] }

/-- An update of units (R188, R191, R203-R208). -/
def Walk.update (w : Walk) (e : VEnv) (i : Nat) (x : SpOp) (d : SpDesc) : Walk :=
  let us := w.drawUnits e x.op d
  let w := w.fail (decide (w.beat < w.feReady)) i 0x5C
  let w := w.fail (decide (x.op ≠ 16) && !w.ready d.vreg) i 0x14
  let w := w.fail (decide (x.op = 16) && w.first && w.lastEnd.any fun n => decide (w.beat < n + 64)) i 0x5C
  let w := w.fail (decide (x.op = 16 ∧ 2 ^ 18 ≤ w.iters)) i 0x43
  let w := { w with
    wants := w.wants ++ w.drawWants i x d us
    drawn := us.foldl (fun (t : Tab Nat Nat) (p : Place) => tset t p.unit w.beat) w.drawn
    posIter := w.ends + 1 }
  if d.p1 % 2 = 1 then
    { w with first := true, updated := false, openUpd := false, lastEnd := some w.beat, iters := w.iters + 1, ends := w.ends + 1 }
  else { w with first := false, updated := true, openUpd := true }

/-- The beat stores into the source table: its state bits are visible to an evaluation from the next beat only (R48, R191). -/
def Walk.tableBusy (w : Walk) (e : VEnv) (b : Bundle) : Bool :=
  (b.ls.any fun l => (l.op = 2 || l.op = 6) && e.inSources l.bank (w.lsLine l)) ||
    b.nw.any fun m => match m with
      | .recv _ (.bank k ix _) => e.inSources k (w.ixAt ix)
      | _ => false

/-- The SP slot. -/
def Walk.sp (w : Walk) (e : VEnv) (i : Nat) (b : Bundle) : Walk :=
  let x := b.sp
  if x.op = 0 then w
  else
    let d := e.spd x.desc
    let seeds := e.img.hdr.seedDecl ||| e.img.hdr.freshDecl
    let w := { w with spBeats := w.beat :: w.spBeats }
    let w := w.fail (decide (x.op = 1) && !seeds.testBit x.arg) i 0x40
    let w := w.fail (decide (x.op = 4) && !e.img.hdr.freshDecl.testBit x.arg) i 0x40
    let w := w.fail (match drawKind x d with
      | some k => !e.kindIs d.site k
      | none => (decide (x.op = 2) || (decide (5 ≤ x.op ∧ x.op ≤ 8) && decide (d.site ≠ 0))) && (e.site d.site).isNone) i 0x42
    let w := w.fail ((x.op = 3 || (x.op = 7 && decide (nb d.p2 9 8 ≠ 1))) && !w.keyOk x.slot) i 0x41
    let w := w.fail (e.readOnly x d) i 0x2A
    match x.op with
    | 1 => w.loadKey x.slot
    | 5 => w.loadKey x.slot
    | 2 => w.cgxSet d.sub (((e.site d.site).map Site.base).getD 0 + d.p0)
    | 3 =>
      let n := 128 / kindWidth d.sub
      let w := w.fail (decide (2 ^ (48 - bitLen (kindWidth d.sub / 16)) ≤ w.cgxAt x.xreg / n * n + (n - 1))) i 0x43
      (w.wrote d.vreg (w.beat + (if 5 ≤ d.sub ∧ d.sub ≤ 7 then 12 else 11)) .none).cgxStep x
    | 6 =>
      let w := w.fail (decide (d.p1 = 0 ∨ 2 ^ 20 < d.p1)) i 0x46
      let w := w.fail (!w.ready d.vreg) i 0x14
      { w.cgxStep x with rows := w.rows ++ [{
        stream := d.p0, step := w.step, pass := d.sub, len := d.p1, fset := d.p2 % 256, xs := (List.range 16).map (w.cgxAt x.xreg + ·), idx := i }] }
    | 7 =>
      let w := w.fail (decide (d.p1 = 0 ∨ 2 ^ 20 < d.p1)) i 0x46
      let w := w.fail (!w.ready d.vreg) i 0x14
      { w.cgxStep x with rows := w.rows ++ [{
        stream := d.p0, step := w.step, pass := 8, len := d.p1, fset := d.p2 % 256,
        xs := (List.range 4).map (w.cgxAt x.xreg + 4 * (x.arg / 4) + ·), idx := i }] }
    | 8 => w.wrote d.vreg (w.beat + 1) .none
    | 9 | 10 =>
      let w := w.fail ((e.roaster && w.updated) || w.tableBusy e b) i 0x5C
      { w with feReady := w.beat + 2, openUpd := true, fresh := [], fed := if e.roaster then w.fed ++ w.fresh.map fun g => (i, w.ends, g) else w.fed }
    | 11 | 12 => (w.fail (e.wrongColour (w.block e) d) i 0x10).update e i x d
    | 16 => w.update e i x d
    | 13 => { w with rots := w.rots + 1 }
    | 17 => w.fail (decide (w.beat < w.feReady)) i 0x5C
    | 24 => { w.wrote d.vreg (w.beat + 1) .none with admits := w.admits ++ [(i, decide (d.sub % 2 = 1))] }
    | 25 | 26 => w.wrote d.vreg (w.beat + 1) .none
    | _ => w

/-! ### One beat, and all of them -/

/-- The scheduled ports of the beat (R47): slots, tag accesses, tree stacks, and the state transfers of an update. -/
def Walk.banks (w : Walk) (e : VEnv) (b : Bundle) : List Nat :=
  slotBanks b ++ (b.ls.filterMap fun l => (w.lsPart e l).map fun _ => e.tr.tagBank) ++
    (w.stack.filter fun p => p.1 = w.beat).map Prod.snd ++ (if b.sp.op = 11 ∨ b.sp.op = 12 ∨ b.sp.op = 16 then e.srcBanks else [])

/-- The slots of a bundle in one beat: what they read is judged by the beats before, then their results land (R48). -/
def Walk.slots (w : Walk) (e : VEnv) (i : Nat) (b : Bundle) : Walk :=
  let w := b.ls.foldl (fun w l => w.lsUse e i l) w
  let w := w.mx e i b
  let w := w.fail (hasDup (w.banks e b)) i 0x20
  let w := w.vx e i b
  let w := b.nw.foldl (fun w m => w.nw e i m) w
  let w := w.sy e i b.sy
  let w := w.sp e i b
  (b.ls.foldl (fun w l => w.lsLand e l) w).land

/-- The CTL slot (R43, R44, R108, R192, R204).  A tree counts as open until its drain is issued, so a drain may be in progress over a STEP_END
(DESIGN CHOICE: notes/assumptions/64.md). -/
def Walk.ctl (w : Walk) (e : VEnv) (i : Nat) (b : Bundle) : Walk :=
  let nxt := { w with pc := i + 1, beat := w.beat + 1 }
  let back := fun (n : Nat) ls => { w with pc := n, beat := w.beat + 1, loops := ls }
  match b.ctl, w.loops with
  | 1, ls => if ls.head?.any (fun l => l.1 = i) then nxt else { nxt with loops := (i, b.arg + 1) :: ls }
  | 2, (f, n) :: ls => if 1 < n then back f ((f, n - 1) :: ls) else { nxt with loops := ls }
  | 7, (f, n) :: ls =>
    if f = i then (if 1 < n then back i ((f, n - 1) :: ls) else { nxt with loops := ls })
    else if 0 < b.arg then back i ((i, b.arg) :: (f, n) :: ls) else nxt
  | 7, [] => if 0 < b.arg then back i [(i, b.arg)] else nxt
  | 3, _ =>
    let nxt := nxt.fail (w.setA.isOpen || w.setB.isOpen) i 0x34
    let nxt := nxt.fail w.openUpd i (if e.roaster then 0x64 else 0x5D)
    { nxt with step := w.step + 1, iters := 0 }
  | 6, _ => { w with done := true }
  | _, _ => nxt

/-- The beats of a tile up to its HALT, or before the bundle `stop`. -/
def Walk.run (e : VEnv) (stop : Nat) : Nat → Walk → Walk
  | 0, w => w
  | n + 1, w =>
    if w.done ∨ stop ≤ w.pc then w
    else match e.code[w.pc]? with
      | none => w
      | some b => Walk.run e stop n ((w.slots e w.pc b).ctl e w.pc b)

/-- A tile's walk with the codes that its bundles alone give: bundles by index, the loop structure, maintenance, then the beats. -/
structure TileCheck where
  tr : TileRec
  walk : Walk
  fails : List (Nat × Nat)
  deriving DecidableEq, Repr

/-- The bundles of a tile, an unassigned encoding standing as an idle bundle. -/
def tileBundles (img : Image) (rdm : Nat → Nat → List Byte) (r : TileRec) : List (Option Bundle) :=
  let base := ((img.streams.find? fun d => d.id = r.bstream).map StreamDesc.base).getD 0
  (List.range r.bundles).map fun i => decodeBundle (ofLe (rdm (base + 32 * i) 32))

/-- A field-engine operation stands in some bundle, reached or not, and the image has no section for the field engine (R253). -/
def feMissing (img : Image) (dir : List Section) (rdm : Nat → Nat → List Byte) : Bool :=
  (sectionOf dir 7).isNone && img.recs.any fun r => (tileBundles img rdm r).any fun o => o.any fun b => isFe b.sp.op

/-- The end of the walk's beats: every count of four levels unrolled. -/
def walkFuel (bundles : Nat) : Nat := bundles * 256 ^ 4 + 1

/-- The checks of one tile on its own (R275 phase 4). -/
def checkTile (rows : Nat) (img : Image) (rdm : Nat → Nat → List Byte) (r : TileRec) : TileCheck :=
  let bs := tileBundles img rdm r
  let alone := bs.zipIdx.flatMap fun p =>
    match p.1 with
    | none => [(p.2, 0x10)]
    | some b => (bundleCodes rows r.coord r b).map fun c => (p.2, c)
  let code := bs.zipIdx.map fun p =>
    match p.1 with
    | none => {}
    | some b => if namesOk r b then b else { ctl := b.ctl, arg := b.arg, ls := [{}, {}], nw := [.nop, .nop, .nop, .nop] : Bundle }
  let loops := loopCodes code 0 [] false
  let stop := loops.foldl (fun n p => min n p.1) r.bundles
  let w := Walk.run { img, tr := r, rows, code } stop (walkFuel r.bundles) {}
  { tr := { r with ends := code.any fun b => (b.sp.op = 11 || b.sp.op = 12 || b.sp.op = 16) && decide ((r.spds.getD b.sp.desc {}).p1 % 2 = 1) }
    walk := w
    fails := alone ++ loops ++ maintCodes img.maint code 0 none ++ w.fails }

/-! ### Tags across tiles, and the blocks of stochastic roundings (R118-R122, R268) -/

/-- A tag with the flits it came by followed to the tile that sent it. -/
def resolveTag (rows : Nat) (ts : List TileCheck) : Nat → Nat → Tg → Tg
  | 0, _, _ => .none
  | n + 1, t, g =>
    match g with
    | .parent h => match resolveTag rows ts n t h with
      | .part f s m b q => .part f s m b (q / 2)
      | x => x
    | .flit port k =>
      match beyond rows t port with
      | .tile u =>
        match ts.find? fun x => x.tr.coord = u with
        | some x => match tfind x.walk.sent (opposite port, k) with
          | some h => resolveTag rows ts n u h
          | none => .none
        | none => .none
      | _ => .none
    | h => h

/-- Flits of all tiles and the levels of a tree, which bound the way of a tag. -/
def flitCount (ts : List TileCheck) : Nat := ts.foldl (fun n x => n + x.walk.sent.length + 1) 32

/-- Wants in the order in which blocks are given out (R268). -/
def wantBefore (a b : Want) : Bool :=
  decide (a.beat < b.beat ∨ (a.beat = b.beat ∧ (a.cls < b.cls ∨ (a.cls = b.cls ∧ a.level ≤ b.level))))

def wantPut (x : Want) : List Want → List Want
  | [] => [x]
  | y :: ys => if wantBefore x y then x :: y :: ys else y :: wantPut x ys

/-- `n` beats for blocks of a want, each the latest that is free. -/
def grabBeats (w : Walk) (x : Want) : Nat → List Nat → Option (List Nat)
  | 0, _ => some []
  | n + 1, taken =>
    match ((List.range (x.fin - x.lo)).map fun k => x.fin - 1 - k).find? fun b => !taken.contains b && !w.spBeats.contains b with
    | none => none
    | some b => (grabBeats w x n (b :: taken)).map (b :: ·)

/-- The key of a slot is loaded and expanded in a beat (R62, R132). -/
def Walk.keyAt (w : Walk) (slot b : Nat) : Bool :=
  (w.keyLoads.filter fun p => p.1 = slot && decide (p.2 ≤ b)).getLast?.any fun p => decide (p.2 + 10 ≤ b)

/-- Place the blocks of the wants in their order, each in the latest free beat of its window, with its key ready there (R62, R132, R268);
a block of the field engine that has issued serves later updates too (R189, R203).  A draw whose window holds no beat is not visible in time
(R191); one whose beats are all taken is CG_BUSY. -/
def placeBlocks (w : Walk) : List Want → List Nat → List (List Nat × Nat) → List (Nat × Nat)
  | [], _, _ => []
  | x :: xs, taken, had =>
    if x.blk.any fun c => had.any fun p => p.1 = c && decide (x.lo ≤ p.2 ∧ p.2 < x.fin) then placeBlocks w xs taken had
    else match grabBeats w x x.n taken with
      | none => (x.idx, if x.blk.isSome && decide (x.fin ≤ x.lo) then 0x5C else 0x45) :: placeBlocks w xs taken had
      | some bs =>
        (if bs.all (w.keyAt x.slot) then [] else [(x.idx, 0x41)]) ++
          placeBlocks w xs (bs ++ taken) (x.blk.elim had fun c => bs.map (c, ·) ++ had)

/-- FS_ADDs of fast-mode partials between two clears (R122). -/
def fsCodes (res : Tg → Tg) : List (Nat × Option Tg) → Nat → List (Nat × Nat)
  | [], _ => []
  | (_, none) :: xs, _ => fsCodes res xs 0
  | (i, some g) :: xs, n =>
    match res g with
    | .part true _ _ _ _ => (if 2 ^ 16 ≤ n then [(i, 0x37)] else []) ++ fsCodes res xs (n + 1)
    | _ => fsCodes res xs n

/-- What the tags show of a tile: combines of another mode (R124), evaluations of an iteration that read a position written in it (R204),
fast-mode sums, and the blocks of its roundings and draws, add-forwards among them (R120, R268). -/
def tagCodes (rows : Nat) (ts : List TileCheck) (x : TileCheck) : List (Nat × Nat) :=
  let res := resolveTag rows ts (flitCount ts) x.tr.coord
  let adds : List Want := x.walk.addfs.filterMap fun p =>
    match res p.2.2.2.1 with
    | .part _ _ trm _ _ => if trm = 0 then none else some (roundWant p.2.1 4 0 p.2.2.1 p.1)
    | _ => none
  (x.walk.combs.filterMap fun p =>
    if [p.2.2.1, p.2.2.2].any fun g => (match res g with
      | .part _ _ trm _ _ => decide (trm ≠ p.2.1)
      | _ => false) then some (p.1, 0x31) else none) ++
  (x.walk.fed.filterMap fun p => match res p.2.2 with
    | .pos n => if p.2.1 < n then some (p.1, 0x5C) else none
    | _ => none) ++
  fsCodes res x.walk.fsum 0 ++ placeBlocks x.walk ((x.walk.wants ++ adds).foldr wantPut []) [] []

/-- The lowest bundle index, and of its codes the first (R275). -/
def lowest : List (Nat × Nat) → Option (Nat × Nat)
  | [] => none
  | p :: ps => match lowest ps with
    | none => some p
    | some q => if q.1 < p.1 then some q else some p

/-- Phase 4: tiles in the order of (die, row, column) (R275). -/
def phase4 (rows : Nat) (ts : List TileCheck) : Option ImgRefusal :=
  ts.findSome? fun x => (lowest (x.fails ++ tagCodes rows ts x)).map fun p => { code := p.2, sect := 1, tile := x.tr.coord, item := p.1 }

/-! ### Across tiles (R275 phase 5) -/

/-- Every index of a row is supplied once in each pass that its filter set selects and in the noised pass, and the passes of a tile come in
their order (R166, R469).  The operations of a row agree on ROW_LEN and FSET; a pass with no operation is reported at every operation of the
row (notes/assumptions/21.md). -/
def rowCodes (ts : List TileCheck) : List ImgRefusal :=
  let all := ts.flatMap fun x => x.walk.rows.map fun r => (x.tr.coord, r)
  ts.flatMap fun x => x.walk.rows.zipIdx.filterMap fun p =>
    let r := p.1
    let row := (all.map Prod.snd).filter fun q => q.stream = r.stream && q.step = r.step
    let xs := (row.filter fun q => q.pass = r.pass).flatMap fun q => q.xs.filter (· < q.len)
    let before := (x.walk.rows.take p.2).filter fun q => q.stream = r.stream && q.step = r.step
    if (row.all fun q => q.len = r.len && q.fset = r.fset) && ((filterPasses r.fset ++ [8]).all fun k => row.any fun q => q.pass = k) &&
        (before.all fun q => q.pass ≤ r.pass) && (List.range r.len).all (fun i => xs.count i = 1) then none
    else some { code := 0x46, sect := 1, tile := x.tr.coord, item := r.idx }

/-- Counts of a link agree in every step (R275). -/
def linkCodes (rows : Nat) (half : Bool) (ts : List TileCheck) : List ImgRefusal :=
  ts.flatMap fun x => (List.range 4).filterMap fun port =>
    match beyond rows x.tr.coord port with
    | .tile u =>
      let y := (ts.find? fun y => y.tr.coord = u).map TileCheck.walk |>.getD {}
      let steps := ((tkeys x.walk.outs).filter fun k => k.1 = port).map Prod.snd ++ ((tkeys y.ins).filter fun k => k.1 = opposite port).map Prod.snd
      if !(half && decide (4 ≤ u / 256)) && steps.any fun n => tget x.walk.outs 0 (port, n) ≠ tget y.ins 0 (opposite port, n)
      then some { code := 0x24, sect := 1, tile := x.tr.coord }
      else if (tkeys x.walk.ins).any fun k => k.1 = port && (ts.all fun y => y.tr.coord ≠ u)
      then some { code := 0x24, sect := 1, tile := x.tr.coord } else none
    | _ => none

/-- Some 16 consecutive beats hold more flits than a crossing takes (R224). -/
def overRate (n : Nat) : List (Nat × Nat) → Option Nat
  | [] => none
  | p :: ps => match ps[n - 1]? with
    | none => none
    | some q => if q.1 < p.1 + 16 then some q.2 else overRate n ps

/-- Crossing rates (R224). -/
def rateCodes (rows : Nat) (ts : List TileCheck) : List ImgRefusal :=
  ts.flatMap fun x => (List.range 4).filterMap fun port =>
    let flits := (x.walk.cross.filter fun p => p.1 = port).map Prod.snd
    let w := fun i => some { code := 0x25, sect := 1, tile := x.tr.coord, item := i : ImgRefusal }
    match beyond rows x.tr.coord port with
    | .iod => (overRate 6 flits).bind w
    | .tile u => if u / 256 = x.tr.coord / 256 then none else (overRate 13 flits).bind w
    | .edge => none

/-- Counters (R230, R234) and moves into parked dies (R234). -/
def syncCodes (rows : Nat) (img : Image) (ts : List TileCheck) : List ImgRefusal :=
  let half := img.hdr.profile = 4
  ts.flatMap fun x =>
    (if half && x.tr.handles.any (4096 ≤ ·) then [{ code := 0x27, sect := 1, tile := x.tr.coord : ImgRefusal }] else []) ++
    (x.walk.syncs.filterMap fun p =>
      if p.2.1 ≠ 4 ∧ img.syncs.any (fun a => a.index = p.1 && a.cls = 1) then
        some { code := 0x26, sect := 1, tile := x.tr.coord, item := p.2.2 } else none) ++
    (x.walk.cross.filterMap fun p =>
      match beyond rows x.tr.coord p.1 with
      | .tile u => if half ∧ 4 ≤ u / 256 then some { code := 0x28, sect := 1, tile := x.tr.coord, item := p.2.2 } else none
      | _ => none)

/-- Counters of the allocation that are powered off (R234). -/
def allocCodes (img : Image) : List ImgRefusal :=
  img.syncs.zipIdx.filterMap fun p =>
    if img.hdr.profile = 4 ∧ 4096 ≤ p.1.index then some { code := 0x27, sect := 4, item := p.2 } else none

/-- Tiles that do not execute the steps of the first tile (R128). -/
def stepCodes (ts : List TileCheck) : List ImgRefusal :=
  match ts with
  | [] => []
  | y :: _ => ts.filterMap fun x => if x.walk.step = y.walk.step then none else some { code := 0x18, sect := 1, tile := x.tr.coord }

/-- Two canonical partials are the children of one node (R119). -/
def siblings : Tg → Tg → Bool
  | .part false s t b n, .part false u v c m => decide (s = u ∧ t = v ∧ b = c ∧ n / 2 = m / 2 ∧ n ≠ m ∧ 2 ≤ n)
  | _, _ => false

/-- Split pairing (R118, R268, R277): add-forwards whose partials cannot be traced, or are not siblings, and combines of partials that are
traced and are not siblings. -/
def splitCodes (rows : Nat) (ts : List TileCheck) : List ImgRefusal :=
  ts.flatMap fun x =>
    let res := resolveTag rows ts (flitCount ts) x.tr.coord
    let no := fun (i : Nat) => { code := 0x33, sect := 1, tile := x.tr.coord, item := i : ImgRefusal }
    (x.walk.addfs.filterMap fun p => if siblings (res p.2.2.2.1) (res p.2.2.2.2) then none else some (no p.1)) ++
    x.walk.combs.filterMap fun p =>
      match res p.2.2.1, res p.2.2.2 with
      | .part f s t b n, .part g u v c m => if siblings (.part f s t b n) (.part g u v c m) then none else some (no p.1)
      | _, _ => none

/-- ADMITs that carry another FIXED than the first one (R343). -/
def admitCodes (ts : List TileCheck) : List ImgRefusal :=
  let all := ts.flatMap fun x => x.walk.admits.map fun p => (x.tr.coord, p)
  match all with
  | [] => []
  | a :: _ => all.filterMap fun p => if p.2.2 = a.2.2 then none else some { code := 0x10, sect := 1, tile := p.1, item := p.2.1 }

/-- Phase 5: the refusal in the section of the lowest offset, then of the lowest tile, then of the lowest bundle (R275). -/
def phase5 (rows : Nat) (img : Image) (offs : Nat → Nat) (ts : List TileCheck) : Option ImgRefusal :=
  let all := rowCodes ts ++ linkCodes rows (img.hdr.profile = 4) ts ++ rateCodes rows ts ++ syncCodes rows img ts ++ allocCodes img ++ stepCodes ts ++
    splitCodes rows ts ++ admitCodes ts
  let key := fun (r : ImgRefusal) => (offs r.sect * 2 ^ 11 + r.tile) * 2 ^ 32 + r.item
  all.foldl (fun (o : Option ImgRefusal) r =>
    match o with
    | none => some r
    | some q => if key r < key q then some r else some q) none

/-! ### The class (R257) -/

/-- Determinism mark of an SP operation: 0 D, 1 G, 2 V (R267). -/
def spMark (img : Image) (r : TileRec) (x : SpOp) : Nat :=
  match x.op with
  | 4 | 19 | 25 | 26 | 27 => 2
  | 24 => if (r.spds.getD x.desc {}).sub % 2 = 1 then 0 else 2
  | 18 => if 1 < img.fe.roaster.e then 1 else 0
  | _ => 0

/-- The derived class: 0 E, 1 G, 2 V (R257). -/
def deriveClass (img : Image) (codes : List (TileRec × List Bundle)) : Nat :=
  let marks := codes.flatMap fun p => p.2.map fun b => spMark img p.1 b.sp
  let rot := codes.any fun p => p.2.any fun b => b.sp.op = 13 || b.sp.op = 16 || b.sp.op = 17
  if marks.contains 2 then 2
  else if marks.contains 1 || img.recs.any (fun r => r.tds.any TreeDesc.fast) || (img.hdr.profile = 4 && !img.hdr.flags.testBit 2) ||
      (rot && !img.hdr.flags.testBit 1) then 1
  else 0

/-! ### Information codes (R112, R269, R272) -/

/-- A module barrier counter whose bound is 34 ns: a tile that uses it lies four crossings from its home die (R233). -/
def barrierFar (ts : List TileCheck) (c : Nat) : Bool :=
  ts.any fun x => decide (4 ≤ dieHops (c / 1024) (x.tr.coord / 256)) && x.walk.syncs.any fun p => p.1 = c

/-- The information codes of an image, one per tree descriptor, stream and counter that shows one. -/
def infoCount (img : Image) (ts : List TileCheck) : Nat :=
  ts.foldl (fun n x => n + (x.walk.tdsUsed.filter fun i => decide (2 ^ 17 < (x.tr.tds.getD i {}).leaves)).length) 0 +
  (img.streams.filter slackShort).length +
  (img.syncs.filter fun a => barrierFar ts a.index).length

/-- The die-to-die links that an image's traffic crosses (R222, R225, R230, R157, R227): those of its flits, of the streams that another
die's stacks feed, of its counters, of its rows' combiners and of a ledger that several dies hold; and the IOD's links of the dies that run
(notes/assumptions/48.md). -/
def imageLinks (rows : Nat) (img : Image) (ts : List TileCheck) : List (Nat × Nat) :=
  let die := fun (x : TileCheck) => x.tr.coord / 256
  let flits := ts.flatMap fun x => x.walk.cross.flatMap fun p =>
    match beyond rows x.tr.coord p.1 with
    | .tile u => if u / 256 = die x then [] else diePath (die x) (u / 256)
    | .iod => [linkName (die x) 0]
    | .edge => []
  let streams := img.streams.flatMap fun d => diePath (d.base / 2 ^ 38) (d.tile / 256)
  let syncs := ts.flatMap fun x => x.walk.syncs.flatMap fun p => diePath (die x) (p.1 / 1024)
  let rowDies := (ts.filter fun x => !x.walk.rows.isEmpty).flatMap fun x => diePath (die x) 0
  let feDies := (img.fe.places.map fun p => p.tile / 256).eraseDups
  let ledger := feDies.flatMap fun a => feDies.flatMap fun b => diePath a b
  ((0, 0) :: (if img.hdr.profile = 4 then [] else [(4, 0)]) ++ flits ++ streams ++ syncs ++ rowDies ++ ledger).eraseDups

/-! ### All six phases (R275) -/

/-- What schedule load finds: the refusal, or the class; and the image with its records as phase 4 completes them. -/
structure ImgVerdict where
  refusal : Option ImgRefusal
  cls : Nat
  info : Nat
  img : Image
  deriving DecidableEq, Repr

/-- The checks of an image whose bytes `rd` reads from its start and `rdm` from HBM. -/
def verifyImage (e : ImgEnv) (addr : Nat) (rd : ImgBytes) (rdm : Nat → Nat → List Byte) : ImgVerdict :=
  let img := readImage rd addr
  let dir := readDir rd img.hdr.sections
  let stop := fun r => { refusal := some r, cls := 0, info := 0, img : ImgVerdict }
  match (phase1 e (e.inHbm addr img.hdr.imageLen) rd img.hdr dir).orElse fun _ =>
      if feMissing img dir rdm then some { code := 0x03, sect := 7 } else none with
  | some r => stop r
  | none => match phase2 e rd img.hdr img.regions with
    | some r => stop r
    | none => match phase3 e rd img with
      | some r => stop r
      | none =>
        let sorted := (List.range 2048).filterMap fun c => img.recs.find? fun r => r.coord = c
        let ts := sorted.map (checkTile e.rows img rdm)
        let info := infoCount img ts
        match (phase4 e.rows ts).orElse fun _ => phase5 e.rows img (fun n => ((sectionOf dir n).map Section.off).getD 0) ts with
        | some r => { stop r with info }
        | none =>
          let cls := deriveClass img (sorted.map fun r => (r, (tileBundles img rdm r).filterMap id))
          let done := { img with recs := img.recs.map fun r => ((ts.find? fun x => x.tr.coord = r.coord).map TileCheck.tr).getD r,
                                  admitFixed := (ts.flatMap fun x => x.walk.admits).head?.map Prod.snd,
                                  links := imageLinks e.rows img ts }
          if cls ≠ img.hdr.cls then { refusal := some { code := 0x0B }, cls, info, img := done }
          else { refusal := none, cls, info, img := done }

end Sys2Proof.Machine
end

