-- ==== Sys2Proof/Machine/ImageCmd.lean ====
section
/-!
DEFINITION. LOAD_IMAGE and the end of schedule load (R250, R251, R275, R279, R337, R339).
-/
namespace Sys2Proof.Machine

/-- STATE of a slot (R279). -/
def slotState (s : State) (j : Nat) : Nat := s.fget (.imgStatus (BitVec.ofNat 2 j)) F.imgStatus_STATE

/-- What the module brings to the checks (R2, R254, R255, R464). -/
def imgEnv (s : State) : ImgEnv where
  gradeB := s.flag .glbStatus F.glbStatus_GRADE_EFF
  usable := usableTop s
  nsvMin := s.fget .imgNsv F.imgNsv_MIN
  nsvMax := s.fget .imgNsv F.imgNsv_MAX
  signed := s.boot.cfg.imgSig
  owner := ((tfind s.otp.owner (s.fget .secLc F.secLc_INDEX)).map OwnerEntry.key).getD []

/-- The module is in S2 or deeper (R251). -/
def deepState (s : State) : Bool := decide (2 ≤ s.fget .pwrState F.pwrState_CUR)

/-- Schedule load of a slot starts: its place is LOADING and its registers are clear (R250, R279). -/
def startLoad (j addr queue cid head : Nat) : Act :=
  let k : BitVec 2 := BitVec.ofNat 2 j
  actAll [
    modSlot j fun _ => { loading := true, addr, queue, cid, head },
    setReg (.imgStatus k) 0, setF (.imgStatus k) F.imgStatus_STATE 1,
    setReg (.imgWhere k) 0, setReg (.imgWhereItem k) 0]

/-- The outcome of schedule load in the slot's registers (R275, R279). -/
def slotOutcome (j : Nat) (v : ImgVerdict) : Act :=
  let k : BitVec 2 := BitVec.ofNat 2 j
  let r := v.refusal.getD { code := 0 }
  actAll [
    modSlot j fun x => { x with loading := false, verified := v.refusal.isNone, len := v.img.hdr.imageLen, img := v.img },
    setF (.imgStatus k) F.imgStatus_CODE r.code,
    setF (.imgStatus k) F.imgStatus_INFO_COUNT (min 0xFF v.info),
    setF (.imgStatus k) F.imgStatus_CLASS v.cls,
    setF (.imgStatus k) F.imgStatus_STATE (if v.refusal.isNone then 2 else 3),
    setF (.imgWhere k) F.imgWhere_SECTION r.sect,
    setF (.imgWhere k) F.imgWhere_TILE r.tile,
    setReg (.imgWhereItem k) (BitVec.ofNat 32 r.item)]

/-- The checks of the image that a slot is loading. -/
def slotVerdict (s : State) (j : Nat) : ImgVerdict :=
  let a := (s.slot j).addr
  verifyImage (imgEnv s) a (fun o n => s.bytes (hbm (a + o)) n) fun o n => s.bytes (hbm o) n

/-- LOAD_IMAGE: schedule load of an image in HBM into a slot (R250, R251, R337). -/
def execLoadImage (q : BitVec 6) (s : State) : Host.Outcome State Fault Refusal :=
  s.does (withCmd q.toNat 1 fun c => actGet id fun s =>
    let j := leAt c.bytes 4 1
    let a := leAt c.bytes 8 8
    if !onlyBytes c.bytes [(4, 1), (8, 8)] || decide (3 < j) || !inHbm s a then finishCmd q.toNat 0 2 1
    else if deepState s then finishCmd q.toNat 0 0x0C 0
    else if (s.slot j).loading ∧ (s.slot j).queue = q.toNat ∧ (s.slot j).cid = c.cid then actNop
    else if slotState s j = 4 ∨ (s.slot j).loading then finishCmd q.toNat 0 0x0D 0
    else startLoad j a q.toNat c.cid c.head)

/-- SCHEDULE_LOAD_COMPLETE: the six phases have ended; the slot is VERIFIED, or REFUSED with its code and place (R275). -/
def execScheduleLoadComplete (slot : BitVec 2) (s : State) : Host.Outcome State Fault Refusal :=
  s.does (actWhen (fun s => (s.slot slot.toNat).loading) (actGet id fun s =>
    let v := slotVerdict s slot.toNat
    actAll [
      slotOutcome slot.toNat v,
      actOn ((s.qp (s.slot slot.toNat).queue).busy.any fun c => c.opc = 1 && c.cid = (s.slot slot.toNat).cid)
        (finishCmd (s.slot slot.toNat).queue (v.cls + 2 ^ 8 * min 0xFF v.info) ((v.refusal.map ImgRefusal.code).getD 0) 0)]))

end Sys2Proof.Machine
end

