-- ==== Sys2Proof/Machine/SnapOps.lean ====
section
/-!
DEFINITION. Checkpoints and saved contexts as copies of the state and as bytes (R146, R174, R196, R218, R228, R303, R304, R317,
R367).
-/
namespace Sys2Proof.Machine

/-! ### What a copy holds -/

/-- Registers whose values belong to a checkpoint: seed store, sync counters, stream contexts, and the counts of the field engine
and the Roaster (R130, R146, R174, R196, R218, R228). -/
def savedReg : Reg → Bool
  | .cgsSeed _ _ _ | .cgsStatus _ | .cgsPending _ | .syncCnt _ => true
  | .svcCtrl _ | .svcResult _ | .svcPosLo _ | .svcPosHi _ | .svcSeed _ _ | .svcInvT _ | .svcC _ | .svcTopP _ | .svcFilt _ => true
  | .svcPenPtrLo _ | .svcPenPtrHi _ | .svcKvPtrLo _ | .svcKvPtrHi _ | .svcHostTmo _ | .svcYSel _ | .svcM _ | .svcS _ => true
  | .feRot _ | .feSweepLo _ | .feSweepHi _ | .rsIter _ | .rsTraceCount _ | .rsTraceDrop _ | .rsXchgSkip _ => true
  | _ => false

/-- First byte of a checkpoint-map entry's range (R273). -/
def entryAddr (e : CkptEntry) : Nat :=
  if e.kind = 0 then spm (BitVec.ofNat 11 e.tile) 0 0 + e.start else hbm e.start

/-- A map entry as bytes (R273, R291). -/
def serialise (s : State) (e : CkptEntry) : List Byte :=
  match e.kind with
  | 0 | 1 => s.bytes (entryAddr e) e.len
  | 2 => Config.feBody (s.tiles.map fun p => (p.1, p.2.fe))
  | _ => allStreams.flatMap (ctxBytes s)

/-- A map entry as it lies in a copy: its bytes at the length that the image gives it. -/
def mapBytes (s : State) (e : CkptEntry) : List Byte :=
  let n := entryLen s.job.img.hdr e
  (serialise s e ++ List.replicate n 0).take n

/-- The map entries that are ranges of bytes. -/
def rangeEntries (m : CkptMap) : List CkptEntry := m.entries.filter fun e => e.kind ≤ 1

/-- The state at this step boundary as a copy of generation or address `gen` (R303, R317). -/
def takeSnap (s : State) (gen : Nat) : Snap where
  gen := gen
  step := moduleStep s
  seq := s.echo.seq
  chain := s.job.chain
  nsv := s.job.img.hdr.nsv
  mode := recordMode s
  count := s.job.count
  rank := s.job.rank
  logical := s.job.img.hdr.logical
  variant := s.job.img.hdr.variant
  members := s.job.members
  tiles := s.tiles
  regs := s.regs.filter fun p => savedReg p.1
  rows := s.rows
  strm := s.job.strm
  fe := s.job.fe
  rings := s.hif.ringNext
  transfers := s.hif.transfers
  srcPos := if s.echo.rmode && s.echo.replay then some s.echo.pos else none
  chans := s.net.chans
  arrivals := s.net.arrivals
  outgoing := s.net.outgoing
  barriers := s.net.barriers
  sets := s.net.sets
  ghosts := s.net.ghosts
  closing := s.net.closing
  ranges := (rangeEntries s.job.img.ckpt).map fun e => (entryAddr e, s.bytes (entryAddr e) e.len)
  body := s.job.img.ckpt.entries.flatMap (mapBytes s)

/-! ### Bytes -/

/-- The body of a copy: the hardware state, then every entry of the map (R273, R303). -/
def snapBody (img : Image) (x : Snap) : List Byte :=
  let n := Config.hwStateBytes img.hdr.digest
  let b := Config.stateBody x
  (b ++ List.replicate (n - b.length) 0).take n ++ x.body

/-- Bytes of a copy's body. -/
def bodyLen (img : Image) : Nat := copyBytes img.hdr img.ckpt

/-- The 64-byte header of a checkpoint copy (R317). -/
def copyHeader (x : Snap) (body : List Byte) : List Byte :=
  ascii "CKS8CKPT" ++ leBytes 4 x.gen ++ leBytes 6 x.step ++ leBytes 6 0 ++ leBytes 8 x.seq ++ digestBytes (sha3 body)

/-- The 256-byte header of a saved context (R303). -/
def contextHeader (x : Snap) (body : List Byte) : List Byte :=
  ascii "CKS8CTX" ++ leBytes 1 0 ++ leBytes 2 x.nsv ++ leBytes 2 x.mode ++ leBytes 2 x.count ++ leBytes 2 x.rank ++ leBytes 6 x.step ++
    leBytes 2 0 ++ leBytes 8 x.seq ++ digestBytes x.chain ++ leBytes 32 x.logical ++ leBytes 8 x.variant ++ leBytes 120 0 ++
    digestBytes (sha3 body)

/-- The ranges of the map cut out of the bytes of its entries (R273). -/
def cutRanges (h : Header) : List CkptEntry → List Byte → List (Nat × List Byte)
  | [], _ => []
  | e :: es, bs => (if e.kind ≤ 1 then [(entryAddr e, bs.take e.len)] else []) ++ cutRanges h es (bs.drop (entryLen h e))

/-- The copy that a body holds: one that this module took, where its body is the same, else what the layout says. -/
def readBody (img : Image) (known : List Snap) (body : List Byte) : Option Snap :=
  match known.find? fun x => snapBody img x = body with
  | some x => some x
  | none =>
    let n := Config.hwStateBytes img.hdr.digest
    (Config.stateParse (body.take n)).map fun x => { x with ranges := cutRanges img.hdr img.ckpt.entries (body.drop n), body := body.drop n }

/-! ### Where copies lie (R317, R348) -/

/-- The CHECKPOINT region (R273). -/
def ckptRegion (s : State) : Region := (regionOf s s.job.img.ckpt.region).getD {}

/-- Start of slot `k` of the range of mirror `m` (0 A, 1 B): the CHECKPOINT region and its mirror range, or the two host buffers. -/
def slotAddr (s : State) (m k : Nat) : Nat :=
  if s.job.hostCkpt then
    let h := s.hif.ckptHost.getD (0, 0, 0)
    hostMem ((if m = 0 then h.1 else h.2.1) + k * (h.2.2 / 2))
  else
    let r := ckptRegion s
    let base := if m = 0 then r.base else r.base + s.job.img.ckpt.mirrorB * 2 ^ 38 - s.job.img.ckpt.mirrorA * 2 ^ 38
    hbm (base + k * (r.len / 2))

/-- The digest of a copy in memory verifies: no sector of it is lost, and its header's digest is that of its body (R316, R317,
R318). -/
def copyOk (s : State) (a : Nat) : Bool :=
  !(s.flt.badSectors.any fun b => decide (a ≤ b) && decide (b < a + 64 + bodyLen s.job.img)) && s.bytes a 8 = ascii "CKS8CKPT" && ofBe (s.bytes (a + 32) 32) = (sha3 (s.bytes (a + 64) (bodyLen s.job.img))).toNat

/-! ### Restoring -/

/-- Position in the bundle stream after `k` STEP_ENDs of a tile's program (R43, R44). -/
def posAfter (codeAt : Nat → Nat × Nat) : Nat → Nat → Tile → Tile
  | 0, _, τ => τ
  | _ + 1, 0, τ => τ
  | n + 1, k + 1, τ =>
    let c := codeAt τ.bpos
    posAfter codeAt n (if c.1 = 3 then k else k + 1) (τ.ctlMove c.1 c.2)

/-- CODE and ARG of a bundle of the tile's stream in HBM (R42, R43). -/
def ctlAt (s : State) (d : StreamDesc) (n : Nat) : Nat × Nat :=
  let b := ofLe (s.bytes (hbm (elementAddr d (n / 2) + 32 * (n % 2))) 32)
  (b / 2 ^ 252 % 16, b / 2 ^ 244 % 256)

/-- A line of a stream's buffer (R49). -/
def lineOf (d : StreamDesc) (k : Nat) : Bool :=
  (List.range d.bufNbanks).any fun i => (List.range d.bufLines).any fun j => lineKey (d.bufBank + i) (d.bufLine + j) = k

/-- A tile as a copy restores it into a tile of the loaded image: the state is the saved one (R71, R146, R197, R283), the record is
that of the image; in another variant the place in the bundle stream is that of the step (R304). -/
def restoreTile (s : State) (same : Bool) (x now : Tile) : Tile :=
  let y := { x with trec := now.trec, hasRec := now.hasRec, haltReq := false, stepsLeft := 0, freezeReq := false, ctl := none,
                    waits := [], mid := false,
                    mode := (match x.mode with | .done => .done | .retired => .retired | _ => .run) }
  let y := { y with full := y.full.filter fun k => !(s.job.img.streams.any fun d => d.tile = now.trec.coord && lineOf d k) }
  if same then { y with bfilled := y.bpos / 2 * 2 }
  else
    let d := (streamOf s now.trec.bstream).getD {}
    let z := posAfter (ctlAt s d) (2 ^ 48) x.step { now with bpos := 0, loops := [] }
    { y with bpos := z.bpos, loops := z.loops, bfilled := z.bpos / 2 * 2 }

/-- Streams are refilled from the first element that their consumer has not taken (R197, R320). -/
def restoreStreams (s : State) (same : Bool) (x : Snap) : Tab Nat (Nat × Nat) :=
  s.job.img.streams.map fun d =>
    let t : TileId := BitVec.ofNat 11 d.tile
    let old := tget x.tiles {} t
    let n := if d.kind = 1 then (restoreTile s same old (s.tile t)).bpos / 2
      else (tget x.strm (0, 0) d.id).2 - (old.full.filter (lineOf d)).length
    (d.id, (n, n))

/-- Write a copy's state into place, in logical coordinates (R304, R320).  `same` says that the loaded image is the variant that the
copy was taken of. -/
def restoreSnap (x : Snap) : Act :=
  actGet id fun s =>
    let same := decide (x.variant = s.job.img.hdr.variant)
    actAll [
      fun s => [.tiles (s.tiles.map fun p => (p.1, restoreTile s same (tget x.tiles p.2 p.1) p.2))],
      fun s => [.regs (x.regs ++ s.regs.filter fun p => !savedReg p.1)],
      fun _ => [.rows x.rows],
      actEach x.ranges fun p => store p.1 p.2,
      modJob fun j => { j with chain := x.chain, step := x.step, strm := restoreStreams s same x, holds := [],
                               fe := { j.fe with trace := x.fe.trace, sums := x.fe.sums, taken := x.fe.taken } },
      modNet fun n => { n with chans := x.chans, arrivals := x.arrivals, outgoing := x.outgoing, barriers := x.barriers, sets := x.sets,
                               ghosts := x.ghosts, closing := x.closing }]

end Sys2Proof.Machine
end

