-- ==== Sys2Proof/Machine/JobOps.lean ====
section
/-!
DEFINITION. Job load, job start and the end of a job, shared by the host's commands and the standing program (R28, R207-R219,
R228, R244, R250, R281, R289, R290, R293, R304, R338, R343, R362).
-/
namespace Sys2Proof.Machine

/-! ### Digests (R289, R290) -/

/-- Regions in ID order. -/
def byId (rs : List Region) : List Region :=
  (List.range (rs.foldl (fun n r => max n (r.id + 1)) 0)).filterMap fun i => rs.find? fun r => r.id = i

/-- Write generations of the GiBs that a region covers. -/
def regionGens (s : State) (r : Region) : List Nat :=
  (List.range ((r.base + r.len - 1) / 2 ^ 30 + 1 - r.base / 2 ^ 30)).map fun i => tget s.hif.gens 0 (r.base / 2 ^ 30 + i)

/-- The digest of a region; a cached one is used where no generation has changed. -/
def digestOf (s : State) (r : Region) : Digest :=
  match s.hif.digests.find? fun x => x.1 = r.base && x.2.1 = r.len && x.2.2.1 = regionGens s r with
  | some x => x.2.2.2
  | none => regionDigest (s.bytes (hbm r.base) r.len)

/-- The cache keeps the digests of up to 64 regions; the oldest leave (notes/assumptions/11.md). -/
def cacheDigests (rs : List Region) : Act :=
  actGet id fun s => modHif fun h =>
    let new := rs.map fun r => (r.base, r.len, regionGens s r, digestOf s r)
    let old := h.digests.filter fun x => !(rs.any fun r => r.base = x.1 && r.len = x.2.1)
    { h with digests := (old ++ new).drop ((old ++ new).length - 64) }

/-- Regions whose digests make WEIGHTS, and those that start the INPUTS chain. -/
def weightRegions (img : Image) : List Region := byId (img.regions.filter fun r => r.kind = 1 || r.kind = 2)
def inputRegions (img : Image) : List Region := byId (img.regions.filter fun r => r.kind = 3 || r.kind = 5)

/-- Digests of the 2 MiB chunks of the regions that the host may have to rebuild (R289, R316). -/
def chunkDigests (s : State) (img : Image) : List (Nat × Nat × Digest) :=
  (img.regions.filter fun r => r.kind ≤ 2).flatMap fun r =>
    (List.range (ceilDiv r.len (2 ^ 21))).map fun i =>
      let n := min (2 ^ 21) (r.len - i * 2 ^ 21)
      (r.base + i * 2 ^ 21, n, sha3 (s.bytes (hbm (r.base + i * 2 ^ 21)) n))

/-! ### The checks of job load (R250) -/

/-- Why a job load is refused: an outcome code, an interface status, a refusal of the ledger load, or a check of R304. -/
inductive LoadStop where
  | code (c : Nat)
  | status (c : Nat)
  | fe (r : FeRefuse)
  | ctx (reason : Nat)
  deriving DecidableEq, Repr

/-- Voltage ceiling and average cap of a profile (R27). -/
def profileLimits (p : Nat) : Nat × Nat :=
  match p with
  | 1 => (0x46, 2400)
  | 2 => (0x3C, 1800)
  | 3 => (0x28, 1200)
  | _ => (0x46, 1400)

/-- Seed mask of a job-load block, and the seed it supplies for an entry (R338). -/
def blockMask (b : List Byte) : Nat := leAt b 6 2
def blockSeed (b : List Byte) (n : Nat) : U128 := BitVec.ofNat 128 (leAt b (64 + 16 * n) 16)

/-- The block's fields that must be 0 are 0 (R338). -/
def blockOk (b : List Byte) : Bool :=
  leAt b 0 1 ≤ 3 && leAt b 1 1 ≤ 4 && leAt b 32 32 = 0 && leAt b 320 192 = 0

/-- The job that a block asks for, not loaded yet. -/
def wantedJob (s : State) (b : List Byte) (slot queue : Nat) (standing : Bool) : Job :=
  let img := (s.slot slot).img
  { phase := .loading, slot, img, profile := if leAt b 1 1 = 0 then img.hdr.profile else leAt b 1 1, rank := leAt b 2 2, count := leAt b 4 2,
    members := List.range (leAt b 4 2), queue, block := b, standing }

/-- The shape of the hardware lets the profile run: no failed die that it uses, and a permitted profile (R314, R407). -/
def profileOk (s : State) (p : Nat) : Bool :=
  s.boot.cfg.profiles.testBit p && s.boot.table.dies.all fun d => decide (4 ≤ d) && p = 4

/-- Every stack that the image's regions use is READY (R244). -/
def stacksReady (s : State) (img : Image) : Bool :=
  img.regions.all fun r => (List.range 32).all fun k =>
    !(decide (r.base / 2 ^ 36 ≤ k) && decide (k ≤ (r.base + r.len - 1) / 2 ^ 36)) || decide (s.fget (.hbmStatus (BitVec.ofNat 5 k)) F.hbmStatus_STATE = 2)

/-- FP32 in (0, hi] or [lo, hi]. -/
def inOpen (v hi : U32) : Bool := isFin32 v && flt 0#32 v && fle v hi
def inClosed (lo v hi : U32) : Bool := isFin32 v && fle lo v && fle v hi

/-- Points of a curve of the profile table (R207). -/
def curvePoints (s : State) (a n : Nat) : List (Nat × U32) :=
  (List.range n).map fun i => (leAt (s.bytes (hbm (a + 8 * i)) 8) 0 4, BitVec.ofNat 32 (leAt (s.bytes (hbm (a + 8 * i)) 8) 4 4))

/-- Iterations rise strictly. -/
def rising : List (Nat × U32) → Bool
  | p :: q :: ps => decide (p.1 < q.1) && rising (q :: ps)
  | _ => true

/-- The Roaster checks, in their order (R199, R207, R209, R218). -/
def roasterStop (s : State) (img : Image) (count : Nat) : Option Nat :=
  let d := img.fe
  let r := d.roaster
  let ts := curvePoints s r.profile r.nptT
  let as_ := curvePoints s (r.profile + 512) r.nptA
  let pairs := d.places.map fun p =>
    let bs := s.bytes (pairAddr r.init d.nvar p.var p.chain) 8
    ((BitVec.ofNat 32 (leAt bs 0 4) : U32), (BitVec.ofNat 32 (leAt bs 4 4) : U32))
  if d.mode ≠ 2 then none
  else if decide (1 < d.ncol) || d.places.any fun p => p.group ≠ 0 then some 0x60
  else if !(inOpen r.a0 0x41800000 && inOpen r.dt 0x40800000 && inClosed 0 r.c0 0x47800000 && inOpen r.cs 0x41800000 &&
      decide (1 ≤ r.nptT) && decide (r.nptT ≤ 64) && decide (1 ≤ r.nptA) && decide (r.nptA ≤ 64) &&
      decide (r.profile % 64 = 0) && decide (r.init % 64 = 0) && decide (r.traceBase % 64 = 0) &&
      decide (1 ≤ r.traceCap) && decide (r.traceCap ≤ 65536) && decide (r.traceInt ≤ 65535) && decide (r.xchg ≤ 2) &&
      decide (1 ≤ r.e) && decide (r.e ≤ 65535) && decide ((r.xchg = 0) = (count = 1))) then some 0x61
  else if !(rising ts && rising as_ && ts.all (fun p => inClosed 0 p.2 0x47800000) && as_.all fun p => inClosed 0xC3800000 p.2 0x43800000) then some 0x62
  else if pairs.any fun p => !(isFin32 p.1 && isFin32 p.2 && fle (abs32 p.1) 0x3F800000) then some 0x63
  else none

/-- The copy at a job-load address, where its digest verifies: a saved context, or a checkpoint copy (R303, R304, R314, R317). -/
def contextAt (s : State) (a : Nat) : Option Snap :=
  let p := placedAt a
  let img := s.job.img
  if s.bytes p 8 = ascii "CKS8CTX" ++ [0#8] then
    let body := s.bytes (p + 256) (bodyLen img)
    if ofBe (s.bytes (p + 224) 32) = (sha3 body).toNat then (readBody img s.flt.copies body).map fun x => { x with
      nsv := leAt (s.bytes p 256) 8 2, mode := leAt (s.bytes p 256) 10 2, count := leAt (s.bytes p 256) 12 2, rank := leAt (s.bytes p 256) 14 2,
      step := leAt (s.bytes p 256) 16 6, seq := leAt (s.bytes p 256) 24 8, chain := BitVec.ofNat 256 (ofBe (s.bytes (p + 32) 32)),
      logical := leAt (s.bytes p 256) 64 32, variant := leAt (s.bytes p 256) 96 8 }
    else none
  else if copyOk s p then (readBody img s.flt.copies (s.bytes (p + 64) (bodyLen img))).map fun x => { x with
      gen := leAt (s.bytes p 64) 8 4, step := leAt (s.bytes p 64) 12 6, seq := leAt (s.bytes p 64) 24 8 }
  else none

/-- The saved context that the block names. -/
def wantedContext (s : State) : Option Snap := if leAt s.job.block 8 8 = 0 then none else contextAt s (leAt s.job.block 8 8)

/-- The checks of R304, in their order. -/
def contextStop (s : State) : Option Nat :=
  if leAt s.job.block 8 8 = 0 then none
  else match wantedContext s with
    | none => some 1
    | some x =>
      let h := s.job.img.hdr
      if x.logical ≠ h.logical then some 2
      else if x.nsv ≠ h.nsv then some 3
      else if x.count ≠ s.job.count then some 4
      else if x.rank ≠ s.job.rank then some 5
      else none

/-- The first check of job load that fails, on a state whose job is the wanted one.  Their order, that of the Roaster and ledger
checks apart (R218), is the model's (notes/assumptions/27.md). -/
def loadStop (s : State) : Option LoadStop :=
  let j := s.job
  let h := j.img.hdr
  if !(s.slot j.slot).verified then some (.code 0x73)
  else if h.grade % 2 ≠ b2n (s.flag .glbStatus F.glbStatus_GRADE_EFF) then some (.code 0x09)
  else if decide ((j.profile = 4) ≠ (h.profile = 4)) || !profileOk s j.profile || !s.boot.cfg.profiles.testBit h.profile then some (.code 0x70)
  else if j.count ≠ h.moduleCount || decide (j.count ≤ j.rank) then some (.code 0x71)
  else if h.seedDecl &&& blockMask j.block ≠ h.seedDecl then some (.code 0x74)
  else if j.img.admitFixed.any fun f => b2n f ≠ s.fget .admCtrl F.admCtrl_MODE then some (.code 0x77)
  else if !stacksReady s j.img then some (.code 0x72)
  else match roasterStop s j.img j.count with
    | some c => some (.code c)
    | none => match (if j.img.fe.mode = 0 then none else match ledgerCheck s j.img.fe with | .error e => some e | .ok _ => none) with
      | some e => some (.fe e)
      | none => (contextStop s).map .ctx

/-- Registers of the field engine and of the Roaster (R198, R219), and of tiles, that job load clears (R70). -/
def loadClears : Reg → Bool
  | .feCfg _ | .feLoadStatus _ | .feConflictCount _ | .feConflictTgt _ | .feConflictSrc _ | .feZeroed _ | .feLoadRec _ | .feRot _ => true
  | .feSweepLo _ | .feSweepHi _ | .feFault _ => true
  | .rsCfg _ | .rsXchgE _ | .rsA0 _ | .rsC0 _ | .rsDt _ | .rsCs _ | .rsIter _ | .rsParamT _ | .rsParamA _ | .rsParamG _ => true
  | .rsTraceInt _ | .rsTraceCount _ | .rsTraceDrop _ | .rsXchgSkip _ | .rsStatus _ => true
  | .tileErr _ | .tileEcc _ | .tileFlitRetry _ | .syncCnt _ => true
  | _ => false

/-- Registers of the field engine and of the Roaster that job load clears whatever comes of it: all but the configuration and the parameters
(R198, R219). -/
def loadResults : Reg → Bool
  | .feLoadStatus _ | .feConflictCount _ | .feConflictTgt _ | .feConflictSrc _ | .feZeroed _ | .feLoadRec _ | .feRot _ => true
  | .feSweepLo _ | .feSweepHi _ | .feFault _ => true
  | .rsIter _ | .rsTraceCount _ | .rsTraceDrop _ | .rsXchgSkip _ | .rsStatus _ => true
  | _ => false

/-- A refusal of the ledger load in the registers of one die (R184). -/
def showFeRefusal (r : FeRefuse) : Act :=
  let d : DieId := BitVec.ofNat 3 r.die
  actAll [
    setReg (.feLoadStatus d) 0,
    setF (.feLoadStatus d) F.feLoadStatus_ERR r.code,
    setF (.feLoadStatus d) F.feLoadStatus_VAR (b2n r.var),
    setF (.feLoadStatus d) F.feLoadStatus_MODULE (b2n r.module),
    setReg (.feLoadRec d) (BitVec.ofNat 32 r.loc)]

/-- The load is refused: the state is unchanged apart from status registers (R250), of which job load clears those of the field engine (R198); and the command, or STAND_ERR for the standing
program, has the code (R339, R414).  A refused resume has no code of its own: BAD_FIELD (notes/assumptions/27.md). -/
def refuseLoad (queue : Nat) (standing : Bool) (r : LoadStop) : Act :=
  let c := match r with
    | .code c => (c, 0)
    | .status c => (c, 1)
    | .fe e => (e.code, 0)
    | .ctx _ => (2, 1)
  actAll [
    fun s => [.regs (s.regs.filter fun p => !loadResults p.1)],
    (match r with
      | .fe e => showFeRefusal e
      | .ctx n => setF .echoRestore F.echoRestore_REASON n
      | _ => actNop),
    modJob fun j => { ({} : Job) with jobId := j.jobId },
    modNet fun n => { n with waitJoin := false },
    actOn standing (setF .bootStatus F.bootStatus_STAND_ERR c.1),
    finishCmd queue 0 c.1 c.2]

/-! ### Job start -/

/-- The tile of a record at beat 0 (R123, R258). -/
def freshTile (r : TileRec) : Tile := { mode := .run, hasRec := true, trec := r }

/-- FE_CFG (R198, R199). -/
def feConfig (d : FeDesc) : Act :=
  actEach allDies fun die => actAll [
    setF (.feCfg die) F.feCfg_MODE d.mode,
    setF (.feCfg die) F.feCfg_ROTATE (b2n !d.rotation.isEmpty),
    actOn (d.mode = 1) (actSeq (setF (.feCfg die) F.feCfg_NCOL_M1 (d.ncol - 1)) (setF (.feCfg die) F.feCfg_POLICY d.policy))]

/-- c0 in use (R210): Q2 sums over every loaded entry, in units of 2^-96. -/
def roasterC0 (d : FeDesc) (ls : List Loaded) : U32 :=
  let r := d.roaster
  if r.autoC0 then
    let q2 := (ls.flatMap fun l => l.all).foldl (fun (n : Nat) e => n + (e.m.natAbs * 2 ^ (e.xe - 94)) ^ 2) 0
    let rms : U32 := if q2 = 0 then 0x3F800000 else sqrtR (quotR q2 (d.nvar * d.nchain) (-96))
    divR (mulR r.cs r.a0) rms
  else r.c0

/-- The Roaster's registers and parameters at job load (R201, R207, R210, R218, R219). -/
def roasterLoad (ls : List Loaded) : Act :=
  actGet id fun s =>
    let d := s.job.img.fe
    let r := d.roaster
    let c0 := roasterC0 d ls
    actSeq
      (modJob fun j => { j with fe := { j.fe with dta0 := mulR r.dt r.a0, c0, tpt := curvePoints s r.profile r.nptT, apt := curvePoints s (r.profile + 512) r.nptA } })
      (actEach allDies fun die => actAll [
        setF (.rsCfg die) F.rsCfg_XCHG r.xchg, setF (.rsCfg die) F.rsCfg_TRACE_RAW (b2n r.traceRaw),
        setF (.rsCfg die) F.rsCfg_CONT (b2n r.cont), setF (.rsCfg die) F.rsCfg_AUTO_C0 (b2n r.autoC0),
        setReg (.rsXchgE die) (if r.xchg = 1 then BitVec.ofNat 32 r.e else 0),
        setReg (.rsA0 die) r.a0, setReg (.rsC0 die) c0, setReg (.rsDt die) r.dt, setReg (.rsCs die) r.cs,
        setReg (.rsTraceInt die) (BitVec.ofNat 32 r.traceInt), showParams die 0])

/-- The field engine at job load (R184, R186, R198, R218). -/
def feLoad : Act :=
  actGet id fun s =>
    let d := s.job.img.fe
    match (if d.mode = 0 then .ok [] else ledgerCheck s d) with
    | .error _ => actNop
    | .ok ls => actAll [
        feConfig d,
        actOn (d.mode ≠ 0) (ledgerLoad ls),
        actOn (d.mode = 2) (roasterLoad ls),
        actGet (fun s => (allDies.any fun die => s.reg (.feConflictCount die) ≠ 0)) fun c => actOn (c && decide (d.mode = 1)) (actAll [
          recFlag 7,
          actEach allDies fun die => actWhen (fun s => s.reg (.feConflictCount die) ≠ 0) (setF (.feLoadStatus die) F.feLoadStatus_NON_GIBBS 1)])]

/-- Class and flags of the job at its start: those of the image, or V with TAINT (R281, R307). -/
def startClass : Act :=
  actGet (fun s => (s.job.img.hdr.cls, s.flag .secDbgStatus F.secDbgStatus_TAINT)) fun p => actAll [
    setReg .echoJob 0,
    setF .echoJob F.echoJob_CLASS (if p.2 then 2 else p.1),
    actOn p.2 (recFlag 6)]

/-- A resumed job takes the class that it had fallen to and its flags; another grade or profile group sets REGRADE (R281, R286,
R304). -/
def resumeClass (x : Snap) : Act :=
  actGet id fun s =>
    let cls := max (s.fget .echoJob F.echoJob_CLASS) (x.mode / 2 % 4)
    let regrade := decide (x.mode % 2 ≠ s.job.img.hdr.grade % 2) || decide ((x.mode / 8 % 8 = 4) ≠ (s.job.profile = 4))
    actAll [
      setF .echoJob F.echoJob_CLASS cls,
      modReg .echoJob fun w => w ||| BitVec.ofNat 32 (x.mode / 64 % 1024 * 64 &&& 0xFBC0),
      actOn regrade (recFlag 13)]

/-- The Echo log at job load: its registers are sampled (R297), and a replay takes its source (R298). -/
def startEcho : Act :=
  actGet id fun s =>
    let c := s.reg .echoCtrl
    let ring := (s.job.img.regions.find? fun r => r.kind = 8).getD {}
    let m := if F.echoCtrl_MODE.get c = 1 then 1 else 0
    let replay := F.echoCtrl_REPLAY.get c = 1
    let skip := (wantedContext s).map Snap.seq
    let src := placedAt (leAt s.job.block 16 8)
    let n := leAt s.job.block 24 8 / 64
    let pos := match skip with
      | none => 0
      | some q => ((List.range n).find? fun i => q ≤ leAt (s.bytes (src + 64 * i) 8) 0 8).getD n
    actAll [
      modEcho fun x => { x with
        mode := m, full := F.echoCtrl_FULL.get c = 1, liveAfter := F.echoCtrl_LIVE_AFTER.get c = 1,
        base := ring.base + 4096, cap := (ring.len - 4096) / 64, tail := x.seq, waiting := [], late := [], given := [], supply := [], tries := 0,
        stepSeq := x.seq,
        replay, rmode := replay, recover := false, stopped := false, src, srcLen := if replay then n else 0, pos,
        endSeq := s.pair .echoReplayEndLo .echoReplayEndHi },
      setReg .echoRingMib (BitVec.ofNat 32 (if m = 1 then s.echo.hostLen * 64 / 2 ^ 20 else (ring.len - 4096) / 2 ^ 20)),
      setF .echoStatus F.echoStatus_REPLAY_ACTIVE (b2n replay),
      actOn replay (recFlag 10),
      setF .echoStatus F.echoStatus_STALLED 0,
      actGet (fun s => s.echo.tail) fun t => setPair .echoTailLo .echoTailHi t,
      setF .echoRestore F.echoRestore_REASON 0]

/-- The entries that open the log: JOB_START, the JOINs of all members in rank order, and the seeds (R293, R362). -/
def openLog : Act :=
  actGet id fun s =>
    actWhen (fun s => !s.echo.replay) (actAll [
      logEntry { typ := 1, agent := s.job.rank, aux := s.job.img.hdr.variant, len := 32, payload := s.job.img.hdr.logical },
      actOn (decide (1 < s.job.count)) (actEach (List.range s.job.count) fun r => ingress [{ entry := { typ := 13, agent := r, aux := 1 } }]),
      actEach ((List.range 16).filter fun n => (blockMask s.job.block).testBit n) fun n =>
        logEntry { typ := 2, agent := n, len := 16, payload := (blockSeed s.job.block n).toNat }])

/-- The envelope of the job's profile (R25, R27, R28, R29). -/
def startProfile : Act :=
  actGet (fun s => s.job.profile) fun p =>
    let l := profileLimits p
    actAll [
      setF .pwrEnvActive F.pwrEnvActive_PROFILE p,
      setF .pwrEnvActive F.pwrEnvActive_VCEIL l.1,
      setF .pwrEnvActive F.pwrEnvActive_CAP_W l.2,
      setF .pwrVset F.pwrVset_VSET l.1,
      actEach allDies fun d => actSeq
        (setF (.pgvStatus d) F.pgvStatus_PARKED (b2n (p = 4 && decide (4 ≤ d.toNat))))
        (actOn (p = 4 && decide (4 ≤ d.toNat)) (setF (.pgvBeatrate d) F.pgvBeatrate_MBEAT 0))]

/-- Every other rank has joined. -/
def allJoined (s : State) : Bool := (otherRanks s).all fun r => (s.peer r).joined

/-- Every check has passed: the job starts at beat 0 of every tile, or at the step of its saved context (R70, R123, R128, R130, R228,
R250, R258, R304, R317). -/
def startJob : Act :=
  actGet id fun s =>
    let img := s.job.img
    let ctx := wantedContext s
    actAll [
      fun s => [.regs (s.regs.filter fun p => !loadClears p.1)],
      fun _ => [.tiles (img.recs.map fun r => (BitVec.ofNat 11 r.coord, freshTile r))],
      fun _ => [.rows []],
      actEach allDies fun d => actSeq (clearSeeds d) (actEach ((List.range 16).filter fun n => (blockMask s.job.block).testBit n) fun n =>
        putSeed d (BitVec.ofNat 4 n) (blockSeed s.job.block n)),
      actEach img.syncs fun a => setReg (.syncCnt (BitVec.ofNat 13 a.index)) (BitVec.ofNat 32 a.init),
      modJob fun j => { j with
        phase := .running, step := 0, gen := 0, jobId := s.hif.jobCount + 1,
        weights := sha3 ((weightRegions img).flatMap fun r => digestBytes (digestOf s r)),
        chain := sha3 ((inputRegions img).flatMap fun r => digestBytes (digestOf s r)),
        chunks := chunkDigests s img, digInt := s.fget .echoCtrl F.echoCtrl_DIGEST_INTERVAL,
        hostCkpt := s.flag .hifPolicy F.hifPolicy_CKPT, hostLink := s.flag .hifPolicy F.hifPolicy_LINK
        hostDrbg := s.flag .hifPolicy F.hifPolicy_DRBG, alone := !allJoined s },
      cacheDigests (weightRegions img),
      modHif fun h => { h with jobCount := h.jobCount + 1, admMode := s.fget .admCtrl F.admCtrl_MODE },
      setReg .admNextTag 0, setF .admStatus F.admStatus_LAST_SEEN 0,
      setF (.imgStatus (BitVec.ofNat 2 s.job.slot)) F.imgStatus_STATE 4,
      startProfile,
      actOn s.job.standing (actSeq (setF .glbStatus F.glbStatus_STANDING 1) (setF .bootStatus F.bootStatus_PHASE 7)),
      startClass,
      setF .bxtMember F.bxtMember_COUNT s.job.count, setF .bxtMember F.bxtMember_RANK s.job.rank,
      modNet fun n => { n with
        chans := [], arrivals := [], outgoing := [], sets := [], ghosts := [], closing := [], reports := [], choice := none, recovering := false, waitJoin := false,
        barriers := (Config.imageBarriers img.hdr.digest).map fun b => { desc := b } },
      modFlt fun f => { f with good := none, writing := none, saving := none, pending := [], cur := [], mended := [], attemptGen := 0, seen := [],
                               mxPass := [], need := none, phase6 := false, rebuild := [], skipGens := [], badEcho := [], ended := false },
      setReg .fltCkptGen 0, setPair .fltCkptStepLo .fltCkptStepHi 0, setF .fltStatus F.fltStatus_ATTEMPT 0,
      feLoad,
      startEcho,
      actOpt ctx fun x => actSeq (restoreSnap x) (resumeClass x),
      actWhen (fun s => img.hdr.cls = 2 && (otherRanks s).any fun r => (s.peer r).nsv ≠ img.hdr.nsv) (recFlag 14),
      openLog,
      advance]

/-! ### Membership (R362-R364) -/

/-- The JOIN of this member: event code, image NSV, class, MODULE_COUNT, LOGICAL_DIGEST (R358,
R362; widths of the fields: notes/assumptions/11.md). -/
def joinPayload (s : State) : List Byte :=
  leBytes 8 1 ++ leBytes 2 s.job.img.hdr.nsv ++ leBytes 2 s.job.img.hdr.cls ++ leBytes 2 s.job.count ++ leBytes 32 s.job.img.hdr.logical

/-- Send JOIN to a rank that has completed HELLO. -/
def sendJoin (r : Nat) : Act :=
  actGet id fun s => actOn ((s.peer r).hello) (sendExpress r 6 (joinPayload s))

/-- A LEAVE goes to every other rank (R364). -/
def sendLeave : Act := actGet otherRanks fun rs => actEach rs fun r => sendExpress r 6 (leBytes 8 2)

/-! ### The end of a job -/

/-- A step digest of the flagged map entries (R291): their number, the folds, and the digest. -/
def stepDigest (s : State) : Nat × List Nat × Nat :=
  let es := s.job.img.ckpt.entries.filter fun e => e.flags % 2 = 1
  let fs := es.map fun e => (fold64 (sha3 (serialise s e))).toNat
  (es.length, fs, (fold64 (sha3 (fs.flatMap (leBytes 8)))).toNat)

/-- The payload of up to four folds. -/
def foldPayload (fs : List Nat) : Nat := ofLe ((fs.take 4).flatMap (leBytes 8))

/-- STEP_DIGEST and STEP_DIGEST_CONT entries (R292, R295); in replay the source's digest of the step is compared, and a difference
is information (R299). -/
def logDigest : Act :=
  actGet id fun s =>
    let d := stepDigest s
    actAll [
      logEntry { typ := 0x0E, agent := d.1, aux := d.2.2, len := 8 * min 4 d.1, payload := foldPayload d.2.1 },
      actEach ((List.range (ceilDiv d.1 4)).drop 1) fun i =>
        logEntry { typ := 0x0F, agent := 4 * i, len := 8 * min 4 (d.1 - 4 * i), payload := foldPayload (d.2.1.drop (4 * i)) },
      actWhen (fun s => s.echo.replay) (actOpt ((List.range s.echo.srcLen).findSome? fun i =>
          let bs := sourceBytes s i
          let e := parseEntry bs
          if e.2.typ = 0x0E ∧ leAt bs 8 6 = moduleStep s then some e else none) fun e =>
        actOn (e.2.aux ≠ d.2.2) (actSeq (setF .echoStatus F.echoStatus_DIGEST_MISMATCH 1) (setPair .echoSeqLo .echoSeqHi e.1)))]

/-- Requests in the pool complete with ABORTED (R341). -/
def abortPool : Act :=
  actGet (fun s => s.hif.pool) fun rs => actSeq (modHif fun h => { h with pool := [] })
    (actEach rs fun r => complete r.queue r.cid r.head 0 6 1)

/-- A PAUSE that waits completes with ABORTED. -/
def abortPause : Act := actGet (fun s => s.job.pauseQ) fun o => actOpt o fun q => finishCmd q 0 6 1

/-- A deferred self-test starts at the job boundary (R326). -/
def startDeferred : Act :=
  actWhen (fun s => s.flt.deferred ≠ 0 && decide (s.flt.testing = 0)) (actSeq
    (actGet (fun s => s.flt.deferred) fun n => startTests n 1)
    (modFlt fun f => { f with deferred := 0 }))

/-- The job has stopped: its streams are FREE, its seeds and key slots are cleared, its slot is VERIFIED again (R130, R279, R337, R341). -/
def clearJob : Act :=
  actGet (fun s => s.job.slot) fun j => actAll [
    abortPool,
    actEach allStreams freeStream,
    fun _ => [.rows []],
    actEach allDies clearSeeds,
    actWhen (fun s => slotState s j = 4) (setF (.imgStatus (BitVec.ofNat 2 j)) F.imgStatus_STATE 2),
    fun s => [.tiles (s.tiles.map fun p => (p.1, { p.2 with mode := (if p.2.mode = .retired then .retired else .idle), mid := false, ctl := none, waits := [], haltReq := false, freezeReq := false, keys := [] }))],
    modEcho fun x => { x with waiting := [], late := [], given := [], supply := [], replay := false, recover := false, stopped := false, cap := 0 },
    setF .echoStatus F.echoStatus_REPLAY_ACTIVE 0, setF .echoStatus F.echoStatus_STALLED 0,
    setReg .pwrEnvActive 0,
    actEach allDies fun d => setF (.pgvStatus d) F.pgvStatus_PARKED 0,
    actGet (fun s => s.flt.heldRemaps) fun rs => actEach rs fun p => remapNow (BitVec.ofNat 5 p.1) p.2,
    modFlt fun f => { f with pending := [], cur := [], mended := [], seen := [], heldRemaps := [], writing := none, saving := none, need := none, rebuild := [], phase6 := false, ended := false },
    setF .fltStatus F.fltStatus_STATE 0,
    actWhen (fun s => s.flag .glbStatus F.glbStatus_STANDING) (actSeq (setF .glbStatus F.glbStatus_STANDING 0) (setF .bootStatus F.bootStatus_PHASE 6)),
    setReg .bxtMember 0,
    modNet fun n => { n with
      chans := [], arrivals := [], outgoing := [], unacked := [], barriers := [], sets := [], ghosts := [], closing := [], reports := [], choice := none, recovering := false,
      waitJoin := false, peers := n.peers.map fun p => (p.1, { p.2 with joined := false, lost := false, left := false }) },
    modHif fun h => { h with transfers := [], linkPause := false },
    modJob fun j => { ({} : Job) with jobId := j.jobId },
    actEach allStacks fun k => actSeq (remapIdle k)
      (actWhen (fun s => s.flag (.hbmStatus k) F.hbmStatus_RETRAIN_PEND && stackState s k = 2) (startRetrain k)),
    startDeferred]

/-- JOB_END of a job that is loaded (R286, R288, R292, R364): the last record and step digest, then it stops. -/
def stopJob : Act :=
  actAll [
    actWhen (fun s => s.job.phase = .running && s.job.digInt ≠ 0) logDigest,
    writeRecords,
    sendLeave,
    abortPause,
    clearJob]

end Sys2Proof.Machine
end

