-- ==== Sys2Proof/Machine/JobCmd.lean ====
section
/-!
DEFINITION. The commands on jobs: JOB_LOAD, JOB_END, PAUSE, SUBMIT and POST (R250, R302, R337, R338, R341).
-/
namespace Sys2Proof.Machine

/-- A load starts: with no check failed, the members are asked to join (R250, R362). -/
def beginLoad (block : List Byte) (slot queue : Nat) (standing : Bool) : Act :=
  actSeq (actGet (fun s => wantedJob s block slot queue standing) fun j => modJob fun old => { j with jobId := old.jobId })
    (actGet loadStop fun o =>
      match o with
      | some r => refuseLoad queue standing r
      | none => actGet otherRanks fun rs => actAll [
          modNet fun n => { n with waitJoin := !rs.isEmpty, peers := n.peers.map fun p => (p.1, { p.2 with joined := false, left := false, lost := false }) },
          actEach rs sendJoin])

/-- JOB_LOAD: the job-load block is read and checked (R250, R337, R338); `unread` says that the read of the block, or of the saved
context that it names, fails (R345). -/
def execJobLoad (q : BitVec 6) (unread : Bool) (s : State) : Host.Outcome State Fault Refusal :=
  s.does (withCmd q.toNat 2 fun c => actGet id fun s =>
    let block := s.bytes (hostMem (leAt c.bytes 8 8)) 512
    if !onlyBytes c.bytes [(8, 8)] then finishCmd q.toNat 0 2 1
    else if s.job.phase = .loading ∧ s.job.queue = q.toNat then actNop
    else if s.job.phase ≠ .none then finishCmd q.toNat 0 4 1
    else if unread then finishCmd q.toNat 0 7 1
    else if !blockOk block then finishCmd q.toNat 0 2 1
    else beginLoad block (leAt block 0 1) q.toNat false)

/-- The load may complete: the module is in S0, every member has joined, and no self-test runs (R326, R362, R381).  A replay needs no other
member: with one missing, this member replays alone (R368, notes/assumptions/43.md). -/
def canComplete (s : State) : Bool :=
  s.job.phase == .loading && decide (s.fget .pwrState F.pwrState_CUR = 0) && decide (s.flt.testing = 0) && decide (s.flt.deferred = 0) &&
    (allJoined s || s.flag .echoCtrl F.echoCtrl_REPLAY)

/-- JOB_LOAD_COMPLETE: every check has passed, and every tile begins at beat 0 (R250); a check that has come to fail since refuses
the load. -/
def execJobLoadComplete (s : State) : Host.Outcome State Fault Refusal :=
  s.does (actWhen canComplete (actGet id fun s =>
    match loadStop s with
    | some r => refuseLoad s.job.queue s.job.standing r
    | none => actSeq startJob (actGet (fun s => s.job.jobId) fun n => finishCmd s.job.queue n 0 0)))

/-- JOB_END: the job stops and its stream contexts become FREE (R337). -/
def execJobEnd (q : BitVec 6) (s : State) : Host.Outcome State Fault Refusal :=
  s.does (withCmd q.toNat 3 fun c => actGet id fun s =>
    if !onlyBytes c.bytes [] then finishCmd q.toNat 0 2 1
    else if !jobLoaded s then finishCmd q.toNat 0 3 1
    else actSeq stopJob (finishCmd q.toNat (moduleStep s) 0 0))

/-- The highest step copy of a tile: no boundary above it has been passed by any tile (R128). -/
def topStep (s : State) : Nat := (s.tiles.filter fun p => p.2.hasRec).foldl (fun n p => max n p.2.step) s.job.step

/-- Every tile of the job is DONE. -/
def allDone (s : State) : Bool := s.tiles.all fun p => !p.2.hasRec || p.2.mode == .done

/-- A row of a step up to `k` is still to be drawn, or waits for its answer: no draw spans a step boundary (R174). -/
def rowsOpen (s : State) (k : Nat) : Bool := s.rows.any fun p => decide (0 < p.2.len) && decide (p.2.step ≤ k)

/-- A pause cannot take effect yet: a tile is halted by the debugger, a draw is open, or recovery replays (R174, R302). -/
def pauseBlocked (s : State) : Bool :=
  (s.tiles.any fun p => p.2.mode == .halted) || rowsOpen s (topStep s) || s.flt.phase6

/-- A pause takes effect now: the tiles hold and the saved context is written (R302). -/
def startSaving : Act :=
  actGet id fun s => actAll [
    modJob fun j => { j with phase := .saving, holds := moduleStep s :: j.holds },
    modFlt fun f => { f with saving := some (takeSnap s s.job.gen) }]

/-- A pause is asked for at a step boundary that no tile has passed (R302, notes/assumptions/28.md). -/
def askPause (target : Option Nat) (queue : Option Nat) : Act :=
  actGet id fun s =>
    let k := match target with
      | some t => max t (topStep s + 1)
      | none => topStep s + 1
    actAll [
      abortPause,
      modJob fun j => { j with pauseAt := some k, pauseQ := queue },
      actWhen (fun s => allDone s && s.job.phase == .running && !s.job.ckptBusy && !s.job.digestBusy && !pauseBlocked s) startSaving]

/-- PAUSE: the job will hold at the boundary of the target step and write its saved context (R302, R337). -/
def execPause (q : BitVec 6) (s : State) : Host.Outcome State Fault Refusal :=
  s.does (withCmd q.toNat 4 fun c => actGet id fun s =>
    let t := leAt c.bytes 8 6
    if !onlyBytes c.bytes [(8, 6)] || (t = 2 ^ 48 - 1 && decide (1 < s.job.count)) then finishCmd q.toNat 0 2 1
    else if !jobLoaded s then finishCmd q.toNat 0 3 1
    else if s.job.pauseQ = some q.toNat then actNop
    else askPause (if t = 2 ^ 48 - 1 then none else some t) (some q.toNat))

/-- SUBMIT: a request enters the admission pool (R341, R343); the queue's next command may start. -/
def execSubmit (q : BitVec 6) (s : State) : Host.Outcome State Fault Refusal :=
  s.does (withCmd q.toNat 5 fun c => actGet id fun s =>
    let tag := leAt c.bytes 4 4
    if !onlyBytes c.bytes [(4, 4), (8, 1), (16, 8), (24, 8)] || decide (1 < leAt c.bytes 8 1) then finishCmd q.toNat 0 2 1
    else if !jobLoaded s then finishCmd q.toNat 0 3 1
    else if 4096 ≤ s.hif.pool.length then finishCmd q.toNat 0 5 1
    else if s.hif.admMode = 1 ∧ (tag < (s.reg .admNextTag).toNat ∨ s.hif.pool.any fun r => r.tag = tag) then finishCmd q.toNat 0 8 1
    else actAll [
      modQ q.toNat fun p => { p with busy := none },
      modHif fun h => { h with pool := h.pool ++ [{
        queue := q.toNat, cid := c.cid, head := c.head, tag, last := leAt c.bytes 8 1 = 1, ctx := leAt c.bytes 16 8,
        prefixId := leAt c.bytes 24 8 }] },
      retryAdmits])

/-- The address of a POST lies 64-byte aligned within an INPUT region of the job, with its payload (R337). -/
def postOk (s : State) (a len : Nat) : Bool :=
  decide (a % 64 = 0) && s.job.img.regions.any fun r => r.kind = 3 && r.base ≤ a && a < r.base + r.len && a + len ≤ r.base + r.len

/-- POST: a payload goes to an INPUT region and an EXTERNAL counter counts, through the ingress (R293, R295, R337); the command
completes once both have happened. -/
def execPost (q : BitVec 6) (s : State) : Host.Outcome State Fault Refusal :=
  s.does (withCmd q.toNat 6 fun c => actGet id fun s =>
    let k := leAt c.bytes 4 2
    let len := leAt c.bytes 8 1
    let a := leAt c.bytes 16 8
    let data := (c.bytes.drop 32).take len
    if s.echo.waiting.any fun d => d.acts.contains (.finish q.toNat) then actNop
    else if !onlyBytes c.bytes [(4, 2), (6, 2), (8, 1), (16, 8), (32, 32)] || decide (32 < len) then finishCmd q.toNat 0 2 1
    else if !jobLoaded s then finishCmd q.toNat 0 3 1
    else if !(isExternal s (BitVec.ofNat 13 k) && decide (k < 8192) && decide (counterAgent s k = 1) && postOk s a len) then finishCmd q.toNat 0 2 1
    else ingress [
      { entry := { typ := 4, agent := q.toNat, len, payload := ofLe data }, acts := [.payload (hbm a) data] },
      { entry := { typ := 7, agent := k, aux := leAt c.bytes 6 2 }, acts := [.count k (leAt c.bytes 6 2), .finish q.toNat] }])

end Sys2Proof.Machine
end

