-- ==== Sys2Proof/Machine/StepCmd.lean ====
section
/-!
DEFINITION. Step boundaries, checkpoints, step digests and saved contexts (R128, R286, R288, R291, R292, R302, R303, R317, R320, R326).
-/
namespace Sys2Proof.Machine

/-! ### What follows a boundary -/

/-- With nothing left to write at the boundary, a suspension or a pause that is due takes effect, the pause once nothing that R302 lets it wait
for is pending; recovery runs to its end first (R302, R324); otherwise the tiles go on (R302, R317, R326). -/
def afterBoundary : Act :=
  actGet id fun s =>
    if s.job.phase ≠ .running || s.job.ckptBusy || s.job.digestBusy then actNop
    else if s.job.suspendAt = some s.job.step then actAll [
      modJob fun j => { j with phase := .suspended, suspendAt := none },
      startTests s.flt.deferred 5,
      modFlt fun f => { f with deferred := 0 }]
    else if !s.flt.phase6 && s.job.pauseAt.any fun k => k ≤ s.job.step then
      (if pauseBlocked s then modJob fun j => { j with holds := j.step :: j.holds } else startSaving)
    else modJob fun j => { j with holds := [] }

/-- A checkpoint generation is being written: the tiles hold until both copies are (R317). -/
def startCheckpoint : Act :=
  actGet id fun s => actAll [
    modJob fun j => { j with gen := j.gen + 1, ckptBusy := true, holds := s.job.step :: j.holds },
    modFlt fun f => { f with writing := some (takeSnap s (s.job.gen + 1)) }]

/-- Replay has reached the step of the failure: the job is live again (R320); `ms` is the time from freeze to resume. -/
def resumeRecovered (ms : Nat) : Act :=
  actWhen (fun s => s.flt.phase6 && decide (s.flt.failStep ≤ s.job.step)) (actAll [
    modFlt fun f => { f with phase6 := false, mended := [], seen := [] },
    modEcho fun x => { x with supply := [] },
    setF .fltStatus F.fltStatus_STATE 0,
    actGet (fun s => s.flt.fellBack) fun b => actSeq (setF .fltStatus F.fltStatus_OUTCOME (if b then 2 else 1))
      (actOn b (incF .fltCount F.fltCount_FALLBACK)),
    incF .fltCount F.fltCount_RECOVERED,
    setReg .fltLastMs (BitVec.ofNat 32 ms),
    signal 1])

/-- STEP_BOUNDARY: every tile with a record has executed the STEP_END that ends a step (R128): the step's records are written (R288),
and its digest (R292), checkpoint (R317), suspension (R326) or pause (R302) start.  A draw that is open in the step holds the boundary (R174).  A DIGEST_INTERVAL written since takes effect from
here on. -/
def execStepBoundary (ms : Nat) (s : State) : Host.Outcome State Fault Refusal :=
  s.does (actWhen (fun s => s.job.phase == .running && decide (s.job.step < moduleStep s) && !rowsOpen s s.job.step) (actGet id fun s =>
    let k := s.job.step + 1
    let digest := decide (s.job.digInt ≠ 0) && decide (k % s.job.digInt = 0)
    let i := s.job.img.ckpt.interval
    actAll [
      modJob fun j => { j with step := k },
      writeRecords,
      modEcho fun x => { x with stepSeq := x.seq },
      resumeRecovered ms,
      actOn digest (actSeq logDigest (modJob fun j => { j with digestBusy := true, holds := k :: j.holds })),
      modJob fun j => { j with digInt := s.fget .echoCtrl F.echoCtrl_DIGEST_INTERVAL },
      actOn (decide (i ≠ 0) && decide (k % i = 0) || s.job.suspendAt = some k) startCheckpoint,
      actWhen (fun s => s.echo.replay) advance,
      afterBoundary]))

/-- STEP_DIGEST_COMPLETE: the hash engines have read the flagged ranges, and the tiles go on (R292). -/
def execStepDigestComplete (s : State) : Host.Outcome State Fault Refusal :=
  s.does (actWhen (fun s => s.job.digestBusy) (actSeq (modJob fun j => { j with digestBusy := false }) afterBoundary))

/-! ### Checkpoints (R317) -/

/-- Write one copy of a generation into its slot. -/
def writeCopy (m : Nat) (x : Snap) (body : List Byte) : Act :=
  actGet (fun s => slotAddr s m (x.gen % 2)) fun a => actSeq
    (store a (copyHeader x body ++ body))
    (modFlt fun f => { f with badSectors := f.badSectors.filter fun b => !(decide (a ≤ b) && decide (b < a + 64 + body.length)) })

/-- Copies whose digests are equal make the generation the latest good checkpoint; different ones are SPLIT_COPY. -/
def judgeCopies (x : Snap) : Act :=
  actGet id fun s =>
    let d := fun m => s.bytes (slotAddr s m (x.gen % 2) + 32) 32
    if d 0 = d 1 then actAll [
      modFlt fun f => { f with good := some x },
      setReg .fltCkptGen (BitVec.ofNat 32 x.gen), setPair .fltCkptStepLo .fltCkptStepHi x.step,
      kick]
    else incF .fltCount F.fltCount_SPLIT

/-- CHECKPOINT_COMPLETE: both copies of the generation are written (R317).  With `split`, an error that no code detected changes the
first bytes of the MIRROR_B copy as they are written, to a free value. -/
def execCheckpointComplete (split : Bool) (s : State) : Host.Outcome State Fault Refusal :=
  s.does (actWhen (fun s => s.job.ckptBusy) (actGet (fun s => s.flt.writing) fun o => actOpt o fun x => actAll [
    actGet (fun s => snapBody s.job.img x) fun body => actSeq (writeCopy 0 x body)
      (if split then withFree fun w => writeCopy 1 x ((leBytes 64 w.toNat ++ body.drop 64).take body.length) else writeCopy 1 x body),
    judgeCopies x,
    modFlt fun f => { f with writing := none, copies := f.copies ++ [x] },
    modJob fun j => { j with ckptBusy := false },
    afterBoundary]))

/-! ### Saved contexts (R302, R303) -/

/-- A pause that waited at its boundary, or after the program's end, may now take effect (R302). -/
def pauseDue (s : State) : Bool :=
  s.job.phase == .running && !s.job.ckptBusy && !s.job.digestBusy && !pauseBlocked s &&
    s.job.pauseAt.any fun k => (decide (k ≤ s.job.step) && stepHeld s s.job.step) || allDone s

/-- SAVED_CONTEXT_WRITTEN: a pause that had to wait takes effect first (R302); the saved context lies in the slot that does not hold the latest generation (notes/assumptions/28.md); the
job stops, and its PAUSE completes with the step. -/
def execSavedContextWritten (s : State) : Host.Outcome State Fault Refusal :=
  s.does (actSeq (actWhen pauseDue startSaving) (actWhen (fun s => s.job.phase == .saving) (actGet id fun s => actOpt s.flt.saving fun x =>
    let body := snapBody s.job.img x
    actAll [
      store (slotAddr s 0 ((s.job.gen + 1) % 2)) (contextHeader x body ++ body),
      modFlt fun f => { f with saving := none, copies := f.copies ++ [x] },
      sendLeave,
      actGet (fun s => s.job.pauseQ) fun o => actSeq clearJob (actOpt o fun q => finishCmd q x.step 0 0)])))

end Sys2Proof.Machine
end

