-- ==== Sys2Proof/Machine/RecOps.lean ====
section
/-!
DEFINITION. The recovery sequence (R309, R315, R316, R318, R320-R324).
-/
namespace Sys2Proof.Machine

/-! ### Ends -/

/-- The job ends under R309 or R316-R322: it stays FROZEN with its state in place, and OUTCOME says why. -/
def endByFault (outcome : Nat) : Act :=
  actAll [
    modFlt fun f => { f with pending := [], cur := [], mended := [], seen := [], rebuild := [], need := none, phase6 := false, ended := true },
    setF .fltStatus F.fltStatus_OUTCOME outcome,
    setF .fltStatus F.fltStatus_STATE 1,
    modJob fun j => { j with phase := .frozen },
    freezeTiles,
    signal 1]

/-! ### Phase 2: diagnose (R309, R321) -/

/-- What a fault leads to. -/
inductive Treat where
  | recover
  | stop (outcome : Nat)
  | inspect
  /-- a member of the job is gone: recovery waits for it (R364) -/
  | peers
  deriving DecidableEq, Repr

/-- Faults of this kind within the last hour (R309). -/
def recentlySeen (s : State) (code loc now : Nat) : Bool :=
  s.flt.recent.any fun x => x.1 = code && x.2.1 = loc && decide (now < x.2.2 + 3600000)

/-- The place by which repeats within an hour count: the die of a DROOP_STUCK, the physical tile and port of a FLIT_FAIL (R309). -/
def repeatPlace (s : State) (f : FaultRec) : Nat :=
  if f.code = 0x8A then f.die
  else
    let t : TileId := BitVec.ofNat 11 f.loc
    let r := physRow s (dieOf t) (rowOf t).toNat
    (((dieOf t).toNat * 16 + r.toNat) * 17 + physCol s (dieOf t) r (colOf t).toNat) * 8 + f.port

/-- The fault recurs in replay at the step of the recovery's own faults (R321). -/
def recurs (s : State) (f : FaultRec) : Bool :=
  (f.code = 0x89 || f.code = 0x8D || f.code = 0x8A) && s.flt.phase6 && s.flt.seen.contains (f.code, moduleStep s)

/-- The treatment of a fault (R309, R314, R321): a second DROOP_STUCK of a die within the hour fails the die, whatever else holds. -/
def treatment (s : State) (f : FaultRec) (now : Nat) : Treat :=
  if f.code = 0 then .peers
  else if f.code = 0x93 || f.code = 0x94 then .inspect
  else if f.code = 0x8A && recentlySeen s 0x8A (repeatPlace s f) now then .stop 3
  else if recurs s f then .stop 5
  else if f.code = 0x88 && (f.bit = F.tileErr_NODE_MISMATCH.lo || f.bit = F.tileErr_SPM_GUARD.lo) then .stop 3
  else if f.code = 0x86 && s.boot.table.badStacks.contains f.loc then .stop 3
  else if f.code = 0x86 || f.code = 0x87 || f.code = 0x88 || f.code = 0x89 || f.code = 0x8A || f.code = 0x8D then .recover
  else .stop 3

/-! ### Phase 3: repair (R311, R315, R316) -/

/-- What happens outside while the MC repairs: whether the word that failed holds after its rewrite, whether a link comes up again,
whether replay will not rewrite the lost sector, and the time in ms. -/
structure RepairEnv where
  fixed : Bool
  linkUp : Bool
  lost : Bool
  now : Nat
  deriving DecidableEq, Repr

/-- A sector that cannot be corrected is rebuilt by the kind of region that holds it (R316).  FLT_LOST keeps the first one that is written as
zero (notes/assumptions/42.md). -/
def rebuildSector (a : Nat) (lost : Bool) : Act :=
  actGet id fun s =>
    let mapped := s.job.img.ckpt.entries.any fun e => e.kind = 1 && decide (e.start ≤ a) && decide (a < e.start + e.len)
    match s.job.img.regions.find? fun r => r.base ≤ a && a < r.base + r.len with
    | none => wipe (hbm a) (hbm (a + 64))
    | some r =>
      if r.kind ≤ 2 then actSeq (modFlt fun f => { f with rebuild := f.rebuild ++ [(a, 64)] }) (mcEvent 1 [a, a / 2 ^ 32, 64, 0])
      else if r.kind = 7 then modFlt fun f => { f with badSectors := hbm a :: f.badSectors }
      else if r.kind = 8 then
        let n := (a - (r.base + 4096)) / 64
        actOpt ((List.range (s.echo.seq - s.echo.tail)).find? fun i => (s.echo.tail + i) % max 1 s.echo.cap = n) fun i =>
          let q := s.echo.tail + i
          actSeq (modFlt fun f => { f with badEcho := q :: f.badEcho })
            (actOn (decide (echoDrain s ≤ q)) (actAll [
              setF .echoStatus F.echoStatus_LOST 1, recFlag 12, logEntry { typ := 0x11, aux := 1 }]))
      else if mapped then actNop
      else actSeq (wipe (hbm a) (hbm (a + 64))) (actWhen (fun s => lost && decide (s.pair .fltLostLo .fltLostHi = 0)) (setPair .fltLostLo .fltLostHi a))

/-- The mirror range of the CHECKPOINT region loses a sector. -/
def mirrorSector (a : Nat) : Act :=
  actGet id fun s =>
    let r := ckptRegion s
    let b := slotAddr s 1 0
    actOn (!s.job.hostCkpt && decide (b ≤ hbm a) && decide (hbm a < b + r.len)) (modFlt fun f => { f with badSectors := hbm a :: f.badSectors })

/-- Every sector of the stack that cannot be corrected is rebuilt, once its pseudo-channel has moved to a spare (R315, R316). -/
def rebuildStack (k : BitVec 5) (lost : Bool) : Act :=
  actGet (fun s => ueOf s k) fun us => actAll [
    remapUes k,
    actEach us fun a => actSeq (mirrorSector a) (rebuildSector a lost),
    modFlt fun f => { f with ueSectors := f.ueSectors.filter fun a => !us.contains a }]

/-- A link comes up at both of its ends. -/
def linkComesUp (d : DieId) (l : BitVec 2) : Act :=
  actSeq (setF (.d2dStat d l) F.d2dStat_UP 1) (actOpt (farEnd d l) fun p => setF (.d2dStat p.1 p.2) F.d2dStat_UP 1)

/-- Repair of one fault (R309, R311, R314, R315). -/
def repairFault (e : RepairEnv) (f : FaultRec) : Act :=
  let t : TileId := BitVec.ofNat 11 f.loc
  match f.code with
  | 0x86 => rebuildStack (BitVec.ofNat 5 f.loc) e.lost
  | 0x88 =>
    if f.bit = F.tileErr_SPM_UE.lo || f.bit = F.tileErr_LEDGER_UE.lo then actOn (!e.fixed) (columnShift t)
    else if f.bit = F.tileErr_FLIT_FAIL.lo then actOn f.again (columnShift t)
    else columnShift t
  | 0x87 =>
    let d : DieId := BitVec.ofNat 3 f.die
    let l : BitVec 2 := BitVec.ofNat 2 f.loc
    if e.linkUp then linkComesUp d l else actOn (farEnd d l).isSome (failDie f.die)
  | _ => actNop

/-! ### Phase 4: which copy (R318, R321, R322) -/

/-- A verified copy: generation, mirror, address, SEQ and digest. -/
structure Copy where
  gen : Nat
  mirror : Nat
  addr : Nat
  seq : Nat
  digest : Nat
  deriving DecidableEq, Repr

/-- The highest generation of this job whose copies are written: generations count from 1 at job load, and one whose write a fault has
interrupted is none (R317). -/
def topGen (s : State) : Nat := if s.flt.writing.isSome then s.job.gen - 1 else s.job.gen

/-- The copies of this job whose digests verify; those that an earlier job left in the slots have other generations (R317, R318). -/
def goodCopies (s : State) : List Copy :=
  ([(0, 0), (1, 0), (0, 1), (1, 1)] : List (Nat × Nat)).filterMap fun p =>
    let a := slotAddr s p.1 p.2
    let g := leAt (s.bytes a 64) 8 4
    if (1 ≤ g ∧ g ≤ topGen s) ∧ copyOk s a then
      some { gen := g, mirror := p.1, addr := a, seq := leAt (s.bytes a 64) 24 8, digest := ofBe (s.bytes (a + 32) 32) }
    else none

/-- What the selection finds. -/
inductive Pick where
  | nothing
  | take (c : Copy)
  /-- the copy needs entries from its SEQ on that the ring does not hold -/
  | need (c : Copy)
  deriving DecidableEq, Repr

/-- Entry `q` of the log can be read: the ring holds it, or the host has supplied it (R316, R322). -/
def entryHeld (s : State) (q : Nat) : Bool :=
  (decide (s.echo.tail ≤ q) && !s.flt.badEcho.contains q) || s.echo.supply.any fun r => decide (r.2.1 ≤ q) && decide (q < r.2.1 + r.2.2)

/-- Every entry from a SEQ on can be read. -/
def entriesHeld (s : State) (seq : Nat) : Bool := (List.range (s.echo.seq - seq)).all fun i => entryHeld s (seq + i)

/-- The selection of R318 over generations in falling order, with the number of SPLIT_COPY events on the way: the latest good generation waits for
entries that the host has, an other one is passed over (R322). -/
def pickFrom (s : State) (cs : List Copy) : List Nat → Nat × Pick
  | [] => (0, .nothing)
  | g :: gs =>
    let take := fun (c : Copy) =>
      if entriesHeld s c.seq then (0, Pick.take c)
      else if s.flt.good.any fun x => x.gen = g then (0, Pick.need c)
      else pickFrom s cs gs
    match cs.filter fun c => c.gen = g with
    | [] => pickFrom s cs gs
    | [c] => take c
    | c :: d :: _ =>
      if c.digest ≠ d.digest then let r := pickFrom s cs gs; (r.1 + 1, r.2)
      else take c

/-- Insert into a falling list without repeats. -/
def insertDown (n : Nat) : List Nat → List Nat
  | [] => [n]
  | m :: ms => if n = m then m :: ms else if m < n then n :: m :: ms else m :: insertDown n ms

/-- The selection, over generations that this recovery has not given up. -/
def pickCopy (s : State) : Nat × Pick :=
  let cs := goodCopies s
  pickFrom s cs ((cs.foldl (fun a c => insertDown c.gen a) []).filter fun g => !s.flt.skipGens.contains g)

/-! ### Phases 4-6: restore, reload, replay (R305, R320, R321) -/

/-- Echo in recovery: the RECOVERY entry, then the entries from the copy's SEQ on (R305); a job in replay goes back in its source.  Inputs of
the host that wait at the ingress keep waiting; the program's own transfers and messages happen again. -/
def replayFrom (x : Snap) : Act :=
  actGet id fun s =>
    actAll [
      (match x.srcPos with
        | some p => modEcho fun e => { e with replay := true, recover := false, stopped := false, pos := p }
        | none => modEcho fun e => { e with replay := true, recover := true, stopped := false, src := x.seq, srcLen := s.echo.seq - x.seq, pos := 0, endSeq := 0 }),
      modEcho fun e => { e with given := [], waiting := e.waiting.filter fun d =>
        d.entry.typ = 4 || d.entry.typ = 9 || d.entry.typ = 13 || (d.entry.typ = 7 && decide (counterAgent s d.entry.agent = 1)) },
      setF .echoStatus F.echoStatus_REPLAY_ACTIVE 1,
      logEntry { typ := 0x10, aux := x.seq, len := 6, payload := x.step }]

/-- Ledger slices are reloaded from their resident form (R187, R197). -/
def reloadSlices : Act :=
  actGet (fun s => s.job.img.fe) fun d => actOn (d.mode ≠ 0) (actGet (fun s => s.tiles) fun ts => actEach ts fun p =>
    reloadBlock p.1 (d.blockAt p.2.fe.rot))

/-- Restore a copy, reload, and start replay (R320): the job runs again from the copy's step. -/
def restoreCopy (c : Copy) (x : Snap) : Act :=
  actGet id fun s =>
    let again := c.gen = s.flt.attemptGen
    let n := if again then s.fget .fltStatus F.fltStatus_ATTEMPT + 1 else 1
    if 3 < n then endByFault 5
    else actAll [
      modFlt fun f => { f with
        attemptGen := c.gen, cur := [], need := none, skipGens := [], badEcho := [], phase6 := true
        fellBack := decide (some c.gen ≠ f.good.map Snap.gen) },
      setF .fltStatus F.fltStatus_ATTEMPT n,
      setF .fltStatus F.fltStatus_STATE 7,
      mcEvent 4 [x.step, x.step / 2 ^ 32, s.flt.failStep, s.flt.failStep / 2 ^ 32],
      restoreSnap x,
      modHif fun h => { h with ringNext := x.rings, transfers := x.transfers },
      modJob fun j => { j with phase := .running, gen := c.gen, ckptBusy := false, digestBusy := false },
      modFlt fun f => { f with writing := none },
      reloadSlices,
      replayFrom x,
      advance,
      actWhen (fun s => s.flt.failStep ≤ x.step) (withFree fun w => resumeRecovered (w.toNat % 2 ^ 32)),
      settle]

/-- Restore the copy that a selection names, where its layout can be read. -/
def takeCopy (c : Copy) : Act :=
  actGet (fun s => (readBody s.job.img s.flt.copies (s.bytes (c.addr + 64) (bodyLen s.job.img))).map fun x => { x with
      gen := c.gen, step := leAt (s.bytes c.addr 64) 12 6, seq := c.seq }) fun o =>
    match o with
    | some x => restoreCopy c x
    | none => endByFault 4

/-- Entries from a copy's SEQ on are asked from the host (R322). -/
def askEntries (c : Copy) : Act :=
  actAll [
    modFlt fun f => { f with need := some (c.gen, c.mirror, c.seq) },
    setF .fltStatus F.fltStatus_STATE 5,
    mcEvent 2 [c.seq, c.seq / 2 ^ 32]]

/-- Phase 4 on one module: select, and restore, ask for entries, or give up (R318, R322). -/
def recSelect : Act :=
  actGet pickCopy fun p => actSeq
    (actOn (p.1 ≠ 0) (incF .fltCount F.fltCount_SPLIT p.1))
    (match p.2 with
      | .nothing => endByFault 4
      | .take c => takeCopy c
      | .need c => askEntries c)

/-! ### Several modules (R323, R375) -/

/-- Send an ECHO_SYNC message (R358, R375). -/
def sendSync (dst sub : Nat) (body : List Byte) : Act := sendExpress dst 7 (leBytes 8 sub ++ body)

/-- The step and generation of the latest good checkpoint; 0 for none. -/
def goodStep (s : State) : Nat × Nat := ((s.flt.good.map Snap.step).getD 0, (s.flt.good.map Snap.gen).getD 0)

/-- The verified copy whose step is the chosen one. -/
def copyAtStep (s : State) (step : Nat) : Option Copy := (goodCopies s).find? fun c => leAt (s.bytes c.addr 64) 12 6 = step

/-- This member cannot restore the chosen step: the job ends on every member; its LEAVE, while they wait for RESUME, says so (R323;
notes/assumptions/44.md). -/
def endEverywhere (outcome : Nat) : Act := actSeq sendLeave (endByFault outcome)

/-- The copy of the chosen step is in place and its entries can be read (R322, R375). -/
def choiceReady (s : State) (step : Nat) : Bool := (copyAtStep s step).any fun c => entriesHeld s c.seq

/-- The chosen step is restored here; replay starts on RESUME (R375).  Entries that the ring does not hold are asked from the host first
(R322). -/
def restoreChosen (step : Nat) : Act :=
  actGet (fun s => copyAtStep s step) fun o =>
    match o with
    | none => endEverywhere 4
    | some c => actSeq (modNet fun n => { n with choice := some step }) (actIf (fun s => entriesHeld s c.seq)
        (setF .fltStatus F.fltStatus_STATE 6) (actWhen (fun s => s.flt.need.isNone) (askEntries c)))

/-- Rank 0 has every report: it chooses the newest step that every report holds (R323, R375). -/
def chooseStep : Act :=
  actGet id fun s =>
    let steps := (List.range s.job.count).map fun r => (tget s.net.reports (0, 0) r).1
    actOn ((List.range s.job.count).all fun r => (tfind s.net.reports r).isSome) (
      let step := steps.foldl min (steps.headD 0)
      actAll [
        actEach (otherRanks s) fun r => sendSync r 4 (leBytes 8 step),
        restoreChosen step])

/-- This member's report goes to rank 0 (R375). -/
def reportCkpt : Act :=
  actGet id fun s =>
    let g := goodStep s
    if s.job.rank = 0 then actSeq (modNet fun n => { n with reports := tset n.reports 0 g }) chooseStep
    else sendSync 0 3 (leBytes 8 g.1 ++ leBytes 4 g.2)

/-- Phase 4: on one module the selection, on several the joint choice. -/
def recPhase4 : Act :=
  actIf (fun s => 1 < s.job.count) (actSeq (setF .fltStatus F.fltStatus_STATE 5) reportCkpt) recSelect

/-! ### The sequence -/

/-- Phase 3 and what follows: every diagnosed fault is repaired, once; lost rows, dies and stacks end the job (R314), and a range that the
host has to rewrite makes recovery wait (R316). -/
def recRepair (e : RepairEnv) : Act :=
  actGet (fun s => (s.flt.cur, lossCount s)) fun p => actAll [
    setF .fltStatus F.fltStatus_STATE 4,
    modFlt fun f => { f with cur := [], mended := f.mended ++ p.1.map fun g => { g with again := false } },
    actEach p.1 (repairFault e),
    actGet id fun s =>
      if lossCount s ≠ p.2 || p.1.any (fun f => f.code = 0x87 && !e.linkUp) then endByFault 3
      else if s.flt.rebuild.isEmpty then recPhase4
      else actNop]

/-- A member that recovers with others tells them (R323, R375). -/
def tellMembers : Act :=
  actWhen (fun s => decide (1 < s.job.count) && !s.net.recovering) (actAll [
    modNet fun n => { n with recovering := true, reports := [], choice := none },
    actGet id fun s => actEach (otherRanks s) fun r => sendSync r 2 (leBytes 8 s.flt.failStep)])

/-- Diagnosis of one fault: it is recorded and classified; one that ends the job does so (R309, R314, R320, R321). -/
def diagnose (e : RepairEnv) (f : FaultRec) : Act :=
  actWhen (fun s => !s.flt.ended) (actGet id fun s =>
    let t := treatment s f e.now
    let twice := f.code = 0x8A || (f.code = 0x88 && f.bit = F.tileErr_FLIT_FAIL.lo)
    let again := twice && recentlySeen s f.code (repeatPlace s f) e.now
    actAll [
      actOn (f.code ≠ 0) (writeFltRec f.code 0 f.die f.loc),
      modFlt fun x => { x with
        failStep := if x.phase6 || !x.mended.isEmpty then max x.failStep (moduleStep s) else moduleStep s
        recent := if twice then (f.code, repeatPlace s f, e.now) :: x.recent else x.recent
        cur := if (t = .recover || t = .peers) && !x.mended.contains f then x.cur ++ [{ f with again }] else x.cur
        skipGens := [], need := none },
      (match t with
        | .stop n => actSeq (actOn (f.code = 0x8A && n = 3) (failDie f.die)) (endByFault n)
        | _ => actNop)])

/-- Phase 2: every fault that is pending is diagnosed (R309, R320, R321).  A replay that has stopped stays frozen for inspection; a member that is
gone keeps recovery here (R364); else repairs follow, with the host's approval where it wants to be asked. -/
def recDiagnose (e : RepairEnv) : Act :=
  actGet (fun s => s.flt.pending) fun fs => actOn (!fs.isEmpty) (actAll [
    setF .fltStatus F.fltStatus_STATE 2,
    actEach fs (diagnose e),
    actGet id fun s =>
      if s.flt.ended then actNop
      else if fs.any fun f => treatment s f e.now = .inspect then actSeq (modFlt fun x => { x with pending := [] }) (setF .fltStatus F.fltStatus_STATE 1)
      else actAll [
        modFlt fun x => { x with pending := [], phase6 := false, seen := (fs.map fun f => (f.code, moduleStep s)) ++ x.seen },
        actWhen (fun s => !s.flt.cur.any fun f => f.code = 0) (actSeq tellMembers
          (actIf (fun s => s.flag .fltCtrl F.fltCtrl_HOLD)
            (actSeq (setF .fltStatus F.fltStatus_STATE 3) (mcEvent 3 [(fs.headD { code := 0 }).code]))
            (recRepair e)))]])

/-- Every member that was gone has returned: recovery proceeds (R364). -/
def peersReturn (e : RepairEnv) : Act :=
  actWhen (fun s => s.flt.cur.any (fun f => f.code = 0) && (otherRanks s).all fun r => !(s.peer r).lost && !(s.peer r).left) (actAll [
    modNet fun n => { n with recovering := true, reports := [], choice := none },
    recRepair e])

end Sys2Proof.Machine
end

