-- ==== Sys2Proof/Machine/Recovery.lean ====
section
/-!
DEFINITION. The commands of recovery, self-test and the management controller (R309-R328).
-/
namespace Sys2Proof.Machine

/-- FAULT_RECOVERY: the MC diagnoses the pending fault and runs the phases that follow from it (R309, R320). -/
def execFaultRecovery (fixed linkUp lost : Bool) (now : Nat) (s : State) : Host.Outcome State Fault Refusal :=
  s.does (actWhen (fun s => jobLoaded s && !s.flt.mcAbsent && !s.flt.ended) (recDiagnose { fixed, linkUp, lost, now }))

/-- REBUILD_TIMEOUT: the host has not answered a REBUILD, and the job ends; or it has not supplied entries, and the next older
generation is tried (R316, R322), which on several modules is not this member's to choose (R323). -/
def execRebuildTimeout (s : State) : Host.Outcome State Fault Refusal :=
  s.does (actWhen (fun s => !s.flt.mcAbsent) (actGet id fun s =>
    if !s.flt.rebuild.isEmpty then endByFault 4
    else actOpt s.flt.need fun n => actSeq (modFlt fun f => { f with need := none, skipGens := n.1 :: f.skipGens })
      (if s.net.recovering then endEverywhere 4 else recSelect)))

/-- A recovery or a threshold remap waits for the host's approval, and the MC is there to see it (R320, R327). -/
def inHold (s : State) : Bool := s.fget .fltStatus F.fltStatus_STATE = 3 && !s.flt.mcAbsent

/-- The host approves (R315, R320). -/
def approve (e : RepairEnv) : Act :=
  actWhen inHold (actGet id fun s => actAll [
    setF .fltStatus F.fltStatus_STATE 0,
    modFlt fun f => { f with heldRemaps := [] },
    actEach s.flt.heldRemaps fun p => thresholdRemap (BitVec.ofNat 5 p.1) p.2,
    actOn (!s.flt.cur.isEmpty || !s.flt.mended.isEmpty) (recRepair e)])

/-- The host declines: the job ends (R320). -/
def decline : Act := actWhen inHold (endByFault 6)

/-- APPROVE: FLT_CTRL.APPROVE releases HOLD into phase 3 (R320, R328). -/
def execApprove (fixed linkUp lost : Bool) (now : Nat) (s : State) : Host.Outcome State Fault Refusal :=
  s.does (reachReg .fltCtrl (approve { fixed, linkUp, lost, now }))

/-- DECLINE: FLT_CTRL.DECLINE ends the job that is held (R320, R328). -/
def execDecline (s : State) : Host.Outcome State Fault Refusal := s.does (reachReg .fltCtrl decline)

/-! ### Self-test (R326) -/

/-- A request of FLT_SELFTEST: bit 0 BIST, 1 HBM retrain, 2 sensor recalibration. -/
def askSelftest (bit : Nat) (force : Bool) : Act :=
  actGet id fun s =>
    if s.job.phase = .none then startTests (s.flt.testing ||| 2 ^ bit) 1
    else actSeq
      (modFlt fun f => { f with deferred := f.deferred ||| 2 ^ bit })
      (if force then
        (if allDone s then actAll [modJob fun j => { j with suspendAt := some j.step }, startCheckpoint]
          else modJob fun j => { j with suspendAt := some (topStep s + 1) })
       else setF .fltSelftest F.fltSelftest_RESULT 4)

/-- BIST: the full self-test runs, is deferred, or suspends the job (R326). -/
def execBist (force : Bool) (s : State) : Host.Outcome State Fault Refusal := s.does (reachReg .fltSelftest (askSelftest 0 force))

/-- HBM_RETRAIN_REQUEST: a full retrain of the stacks, likewise (R242, R326). -/
def execHbmRetrainRequest (force : Bool) (s : State) : Host.Outcome State Fault Refusal := s.does (reachReg .fltSelftest (askSelftest 1 force))

/-- SENSOR_RECALIBRATION: the droop sensors are recalibrated, likewise (R326). -/
def execSensorRecalibration (force : Bool) (s : State) : Host.Outcome State Fault Refusal := s.does (reachReg .fltSelftest (askSelftest 2 force))

/-- Units that a self-test has failed are retired (R311, R314): logical tiles, spares by die and row, and stacks. -/
def retireFailed (tiles : List TileId) (spares badStacks : List Nat) : Act :=
  actAll [
    actEach tiles fun t => actSeq (columnShift t) (writeFltRec 0 2 (dieOf t).toNat t.toNat),
    actEach spares fun x => actGet (fun s => physCol s (BitVec.ofNat 3 (x / 16)) (BitVec.ofNat 4 x) 16) fun _ =>
      actGet (fun s => s.fget (.dieRowmap (BitVec.ofNat 3 (x / 16)) (BitVec.ofNat 4 x)) F.dieRowmap_UNMAPPED) fun u =>
        retirePhys (BitVec.ofNat 3 (x / 16)) (BitVec.ofNat 4 x) u,
    actEach badStacks fun k => actAll [
      actWhen (fun s => stackState s (BitVec.ofNat 5 k) = 4) (setF (.hbmErr (BitVec.ofNat 5 k)) F.hbmErr_RETRAIN_FAIL 1),
      failStack (BitVec.ofNat 5 k),
      writeFltRec 0 2 (k / 4) k]]

/-- SELFTEST_RESULT: the tests that were asked for end (R326).  A suspended job resumes from its checkpoint, unless the hardware has
lost a row, a die or a stack. -/
def execSelftestResult (ok : Bool) (tiles : List TileId) (spares badStacks : List Nat) (s : State) : Host.Outcome State Fault Refusal :=
  s.does (actWhen (fun s => s.flt.testing ≠ 0) (actGet id fun s => actAll [
    actOn (!ok) (retireFailed tiles spares badStacks),
    actOn (s.flt.testing.testBit 1) (actEach allStacks fun k =>
      actWhen (fun s => stackState s k = 4) (setF (.hbmStatus k) F.hbmStatus_STATE 2)),
    setF .fltSelftest F.fltSelftest_RESULT (if ok then 2 else 3),
    modFlt fun f => { f with testing := 0 },
    actWhen (fun s => s.job.phase == .suspended) (actIf (fun t => lossCount t ≠ lossCount s)
      (setF .fltStatus F.fltStatus_OUTCOME 3)
      (actGet (fun s => s.flt.copies.getLast?) fun o => actOpt o fun x => actSeq (restoreSnap x)
        (modJob fun j => { j with phase := .running, holds := [] })))]))

/-! ### The management controller (R327) -/

/-- The MC is reset: it is absent until it restarts; a second reset within 60 s stops it (R327). -/
def mcReset (now : Nat) : Act :=
  actWhen (fun s => !s.flt.mcAbsent) (actGet (fun s => s.flt.mcLastReset.any fun t => decide (now < t + 60000)) fun second => actAll [
    writeFltRec 0 4 8 0,
    incF .fltMc F.fltMc_RESETS,
    modFlt fun f => { f with mcAbsent := true, mcLastReset := some now },
    actOn second (actAll [
      setF .fltMc F.fltMc_STOPPED 1,
      alert,
      freezeTiles,
      modJob fun j => { j with phase := if j.phase = .none then .none else .frozen }])])

/-- MC_WATCHDOG_EXPIRY: the watchdog has not been kicked for 500 ms (R327). -/
def execMcWatchdogExpiry (now : Nat) (s : State) : Host.Outcome State Fault Refusal := s.does (mcReset now)

/-- MC_SRAM_UE: an error in the MC's SRAM: one wrong bit is corrected, two reset the MC, and where they lie in the copy of the
firmware it no longer passes its digest (R327, R328). -/
def execMcSramUe (e : SramError) (s : State) : Host.Outcome State Fault Refusal :=
  s.does (if e.double then actSeq (actWhen (fun s => e.copy && !s.flt.mcAbsent) (modFlt fun f => { f with copyBad := true })) (mcReset e.now)
    else setF .fltMc F.fltMc_SRAM_CE 1)

/-- GOVERNOR_FALLBACK: with the MC absent for 10 ms, each governor's budget is 150 W (R327). -/
def execGovernorFallback (s : State) : Host.Outcome State Fault Refusal :=
  s.does (actWhen (fun s => s.flt.mcAbsent) (modPwr fun p => { p with budget := (List.range 8).map fun d => (d, 150000) }))

end Sys2Proof.Machine
end

