-- ==== Sys2Proof/Machine/PwrOps.lean ====
section
/-!
DEFINITION. Power states: what each one loses, the Sump, requests and their handshake, wakes and the exit to S0, and module reset
(R381-R394, R398).
-/
namespace Sys2Proof.Machine

/-! ### Registers by block (R461, R462) -/

/-- The register's BAR0 offset lies in [lo, hi). -/
def Reg.within (r : Reg) (lo hi : Nat) : Bool := decide (lo ≤ r.addr) && decide (r.addr < hi)

/-- Registers of the die windows, those of the HBM controllers apart (R389). -/
def Reg.ofDie (r : Reg) : Bool :=
  r.within 0x1000000 0x3000000 && !(decide (0x340000 ≤ r.addr % 0x400000) && decide (r.addr % 0x400000 < 0x350000))

/-- Compute-die registers whose content goes with S2 (R381): all of the die windows but the links' state, which comes back with the
links, the state of tiles that are not in service, and the counters of the pace governors, which count from module reset (R34,
notes/assumptions/45.md). -/
def Reg.lostInDoze : Reg → Bool
  | .d2dStat _ _ => false
  | .utileStatus _ _ => false
  | .pgvDroopCount _ | .pgvHoldNsLo _ | .pgvHoldNsHi _ | .pgvHlateCount _ => false
  | r => r.ofDie

/-- Registers whose content goes with S3 (R381): ENT, ECHO, ADM, BXT and PTP, and the errors of the HBM controllers; the causes of an
entropy alarm stay until module reset (R426, R428). -/
def Reg.lostInRest : Reg → Bool
  | .entAlarm => false
  | .hbmErr _ | .hbmCeCount _ | .hbmErrAddrLo _ | .hbmErrAddrHi _ => true
  | r => r.within 0x40000 0x50000 || r.within 0x60000 0xD0000 || r.within 0x100000 0x110000

/-- Registers whose content goes with S4 (R381): HIF and FLT, and those of PWR outside the AON domain; the MC's working state brings
back GLB, BOOT and SEC (R390, notes/assumptions/45.md). -/
def Reg.lostInDeep (r : Reg) : Bool := r.within 0x20100 0x30000 || r.within 0x50000 0x60000 || r.within 0x140000 0x150000

/-- PWR registers of the AON domain (R399), and the causes of an entropy alarm, whose flag AON holds (R426). -/
def Reg.inAon : Reg → Bool
  | .entAlarm => true
  | r => r.within 0x20000 0x20050

/-- Registers whose content is fused, or follows the flash's retirement table (R313, R464). -/
def Reg.isFused : Reg → Bool
  | .glbId | .hbmSpare0 _ | .hbmSpare1 _ => true
  | _ => false

/-- Registers back at their reset values. -/
def resetRegs (p : Reg → Bool) : Act := fun s =>
  [.regs (s.regs.filter fun x => !p x.1), .latched (s.latched.filter fun x => !p x.1), .held (s.held.filter fun x => !p x.1)]

/-! ### The Sump (R390) -/

/-- Registers of the Sump list. -/
def Reg.inSump : Reg → Bool
  | .dieRowmap _ _ | .hbmSpare0 _ | .hbmSpare1 _ => true
  | .qCfg _ | .qSqbaseLo _ | .qSqbaseHi _ | .qCqbaseLo _ | .qCqbaseHi _ | .dmaCfg _ | .dmaBaseLo _ | .dmaBaseHi _ => true
  | .hifCtrl | .hifPolicy | .hifBar2BaseLo | .hifBar2BaseHi | .fltCtrl | .echoCtrl | .admCtrl | .bxtRejoin | .ptpRelMargin => true
  | .pwrHostCap | .pwrIdle | .pwrThermLim | .pgvCtrl _ | .bxtMgroup _ | .fltCount | .fltMc | .offCount | .ptpStatus => true
  | _ => false

/-- The digest that closes the list. -/
def sumpDigest (rs : Tab Reg U32) : Digest := sha3 (rs.flatMap fun p => leBytes 4 p.1.addr ++ leBytes 4 p.2.toNat)

/-- Entry to S2 writes the list; of PTP_STATUS it keeps the servo's offset. -/
def sumpWrite (entry now : Nat) : Act :=
  actGet (fun s => s.regs.filter fun p => p.1.inSump) fun rs =>
    let kept := rs.map fun p => if p.1 = .ptpStatus then (p.1, p.2 &&& 0xFFFF#32) else p
    modPwr fun w => { w with sump := { valid := true, entry, time := now, regs := kept, digest := sumpDigest kept } }

/-- A physical tile that the fuses or the retirement table names is bypassed (R35-R37, R313). -/
def bypass (d r col : Nat) : Act :=
  let reg := Reg.dieRowmap (BitVec.ofNat 3 d) (BitVec.ofNat 4 r)
  actGet id fun s =>
    if col = s.fget reg F.dieRowmap_UNMAPPED then setF reg F.dieRowmap_NOSPARE 1
    else if s.flag reg F.dieRowmap_NOSPARE then actNop
    else actAll [
      setF (.utileStatus (BitVec.ofNat 3 d) (BitVec.ofNat 4 r)) F.tileStatus_STATE 7,
      setF reg F.dieRowmap_UNMAPPED col, setF reg F.dieRowmap_SHIFTED 1, setF reg F.dieRowmap_NOSPARE 1]

/-- Row maps and spare maps as the fuses and the retirement table give them (R35, R39, R313, R390). -/
def rebuildMaps : Act :=
  actGet (fun s => s.boot) fun b => actAll [
    resetRegs fun r => match r with
      | .dieRowmap _ _ => true
      | .hbmSpare0 _ => true
      | .hbmSpare1 _ => true
      | _ => false,
    actEach (b.fusedTiles.reverse ++ b.table.tiles.reverse) fun x => bypass x.1 x.2.1 x.2.2,
    actEach allDies showRows,
    actEach ((List.range 32).map (BitVec.ofNat 5)) fun k => setF (.hbmStatus k) F.hbmStatus_SPARES_LEFT 2,
    actEach b.table.remaps.reverse fun x =>
      let k : BitVec 5 := BitVec.ofNat 5 x.1
      actSeq (moveChannel k x.2.1) (setF (.hbmErr k) F.hbmErr_REMAP 0)]

/-- Exit checks the digest and restores the list, or takes the listed registers at their reset values (R390). -/
def sumpRestore : Act :=
  actGet (fun s => s.pwr.sump) fun x =>
    if x.valid && decide (sumpDigest x.regs = x.digest) then actSeq (actEach x.regs fun p => setReg p.1 p.2)
      (modPwr fun w => { w with sump := {} })
    else actAll [
      setF .pwrFault F.pwrFault_SUMP_BAD 1,
      resetRegs Reg.inSump,
      rebuildMaps,
      actEach ((List.range 4).map (BitVec.ofNat 2)) fun j => setReg (.imgStatus j) 0,
      fun _ => [.slots []],
      modPwr fun w => { w with sump := {} }]

/-! ### What each state loses (R381, R389) -/

/-- Scratchpads, bundle memories and the state of the governors: a failed sensor that is not retired is found again (R23). -/
def loseDies : Act :=
  actAll [
    modPwr fun p => { p with badSensors := [], droop := [] },
    resetRegs Reg.lostInDoze,
    fun _ => [.tiles []], fun _ => [.rows []],
    wipe (spaceBase 16) dieSpaces]

/-- Every stack that has not failed takes a state (R242, R247). -/
def setStacks (v : Nat) : Act :=
  actEach ((List.range 32).map (BitVec.ofNat 5)) fun k => actWhen (fun s => stackState s k ≠ 5) (setF (.hbmStatus k) F.hbmStatus_STATE v)

/-- Ethernet ports go down (R356). -/
def portsDown : Act :=
  actEach ((List.range 16).map (BitVec.ofNat 4)) fun p => actAll [
    setF (.bxtPortStatus p) F.bxtPortStatus_UP 0, setF (.bxtPortStatus p) F.bxtPortStatus_LANES 0,
    setF (.bxtPortStatus p) F.bxtPortStatus_RATE 0]

/-- HBM contents: image slots, the Echo ring, checkpoints (R251, R305). -/
def loseHbm : Act :=
  actAll [
    wipe (spaceBase 0) (spaceBase 1),
    fun _ => [.slots []],
    actEach ((List.range 4).map (BitVec.ofNat 2)) fun j => actSeq (setReg (.imgStatus j) 0) (setReg (.imgWrdrop j) 0),
    modFlt fun f => { f with good := none },
    modHif fun h => { h with gens := [], digests := [] },
    setStacks 0,
    actEach ((List.range 32).map (BitVec.ofNat 5)) fun k => actSeq
      (setF (.hbmStatus k) F.hbmStatus_REFRESH_2X 0) (setF (.hbmStatus k) F.hbmStatus_RETRAIN_PEND 0)]

/-- ENT, ECHO, ADM, BXT and PTP (R381, R426): the alarm flag stays. -/
def loseAgents : Act :=
  actAll [
    actGet (fun s => s.ent.waiting ++ s.ent.mcQueue) fun rs => actEach rs fun r => drbgFail r.use,
    modEnt fun e => { ({} : Ent) with alarm := e.alarm },
    modEcho fun _ => {},
    modNet fun n => { ({} : Bexir) with cfg1600 := n.cfg1600, podId := n.podId, ppsSource := n.ppsSource },
    resetRegs Reg.lostInRest]

/-- HIF and FLT state and MC events; the link is in L2 or down (R381, R389). -/
def loseHost : Act :=
  actAll [
    modHif fun _ => {},
    modFlt fun f => { ({} : Flt) with copies := f.copies },
    resetRegs Reg.lostInDeep]

/-- One state down (R381, R389, R390). -/
def enterState (n now : Nat) : Act :=
  actAll [
    (match n with
      | 2 => actAll [sumpWrite 2 now, loseDies, portsDown, setF .ptpStatus F.ptpStatus_LOCK 0,
          actEach ((List.range 32).map (BitVec.ofNat 5)) fun k => actWhen (fun s => stackState s k = 2) (setF (.hbmStatus k) F.hbmStatus_STATE 3)]
      | 3 => actAll [loseHbm, loseAgents]
      | 4 => loseHost
      | 5 => modPwr fun w => { w with sump := {} }
      | _ => actNop),
    modPwr fun w => { w with sump := if w.sump.valid then { w.sump with entry := n, time := now } else w.sump },
    setF .pwrState F.pwrState_CUR n]

/-- Down through every intermediate state (R384). -/
def descend (target now : Nat) : Act :=
  actGet pstate fun c => actEach ((List.range (target + 1)).filter fun n => decide (c < n)) fun n => enterState n now

/-! ### Requests (R384-R388) -/

/-- Agent codes (R385). -/
def powerAgents : List Nat := [1, 2, 3, 4, 5, 6, 7, 8, 0x10, 0x11, 0x12, 0x13, 0x14, 0x15, 0x16]

/-- The reason for which an agent would refuse a target, 0 for none (R385). -/
def agentReason (s : State) (target a : Nat) : Nat :=
  match a with
  | 0x11 => 0
  | 0x12 => if s.net.waitJoin || s.net.unacked.any (fun f => f.typ = 6) || s.ent.waiting.any (fun r => match r.use with | .hello _ _ => true | _ => false) ||
      s.hif.events.any (fun e => e.typ = 5) then 3 else 0
  | 0x13 => if s.fget .entStatus F.entStatus_STATE = 1 && !s.ent.alarm then 4 else 0
  | 0x14 => if 3 ≤ s.sec.session ∧ 3 ≤ target then 2 else 0
  | 0x15 => if 3 ≤ target ∧ echoDrain s < s.pair .echoSeqLo .echoSeqHi then 6 else 0
  | 0x16 => if s.job.ckptBusy || s.job.phase == .saving || s.flt.writing.isSome then 5 else 0
  | _ => if s.job.phase = .none then 0 else 1

/-- An agent that answers DELAY of itself at first: ENT for the rest of its start-up (R385), the MC during a lifecycle transition
(R431). -/
def delaysFirst (s : State) (a : Nat) : Bool :=
  (a = 0x13 && agentReason s 0 a ≠ 0) || (a = 0x10 && s.sec.resetDue)

/-- An agent's answer when it is asked (R385). -/
def answerOf (s : State) (target a : Nat) : Answer :=
  match agentReason s target a with
  | 0 => .ack
  | r => .refuse r

/-- The refusals of a request: agent and reason. -/
def PwrReq.refusals (q : PwrReq) : List (Nat × Nat) :=
  powerAgents.filterMap fun a => match tget q.answers .silent a with
    | .refuse r => some (a, r)
    | _ => none

/-- Every agent has answered. -/
def PwrReq.answered (q : PwrReq) : Bool :=
  powerAgents.all fun a => match tget q.answers .silent a with
    | .delay => false
    | .silent => false
    | _ => true

/-- A refusal is recorded (R386). -/
def powerRefuse (rs : List (Nat × Nat)) (target : Nat) : Act :=
  let low := rs.foldl (fun (x : Nat × Nat) y => if y.1 < x.1 then y else x) (rs.headD (0, 0))
  actAll [
    modPwr fun w => { w with req := none, stopAt := none },
    setF .pwrRefuse F.pwrRefuse_REASON low.2, setF .pwrRefuse F.pwrRefuse_AGENT low.1, setF .pwrRefuse F.pwrRefuse_TARGET target,
    incF .pwrRefuse F.pwrRefuse_COUNT,
    setReg .pwrRefuseAgents (BitVec.ofNat 32 (rs.foldl (fun n x => n ||| 2 ^ x.1) 0 &&& 0x7F01FE)),
    setF .pwrState F.pwrState_BUSY 0,
    signal 4]

/-- A refusal that FORCE changes (R387). -/
def forcible (r : Nat) : Bool := r = 1 || r = 3 || r = 5 || r = 6

/-- What FORCE does about the refusals (R387). -/
def forceAll (q : PwrReq) : Act :=
  let has := fun (r : Nat) => q.refusals.any fun x => x.2 = r
  actAll [
    modPwr fun w => { w with req := some { q with forced := true } },
    actOn (has 1) (actGet id fun s =>
      match s.job.phase with
      | .none => actNop
      | .loading => refuseLoad s.job.queue s.job.standing (.status 6)
      | .frozen => stopJob
      | _ => actSeq (askPause none none)
          (actOn (decide (3 ≤ q.target) && !s.job.hostCkpt) (modPwr fun w => { w with stopAt := some 2 }))),
    actOn (has 3) (actAll [
      modHif fun h => { h with events := h.events.filter fun e => e.typ ≠ 5 },
      setF .mbxStatus F.mbxStatus_EVT_LOST 1,
      actGet (fun s => !s.hif.events.isEmpty) fun b => setF .mbxStatus F.mbxStatus_EVT (b2n b)]),
    actOn (has 6) (actSeq
      (actGet (fun s => s.pair .echoSeqLo .echoSeqHi) fun n => setPair .echoDrainLo .echoDrainHi n)
      (setF .echoStatus F.echoStatus_LOST 1))]

/-- With every answer in, a request is refused, forced, or waits for its commit (R386, R387). -/
def judge : Act :=
  actGet (fun s => s.pwr.req) fun o => actOpt o fun q =>
    if !q.answered || q.refusals.isEmpty || q.forced then actNop
    else if q.force && q.refusals.all fun x => forcible x.2 then forceAll q
    else powerRefuse q.refusals q.target

/-- What happens at the handshake that the state does not say: agents that answer DELAY of their own accord, and agents that stay
silent, as bits by agent code (R385). -/
structure Handshake where
  delays : Nat
  silent : Nat
  deriving DecidableEq, Repr

/-- A request for a deeper state (R384, R385). -/
def powerRequest (target : Nat) (force : Bool) (h : Handshake) : Act :=
  actGet id fun s =>
    if s.flag .pwrState F.pwrState_BUSY || decide (target ≤ pstate s) || decide (5 < target) then setF .pwrRefuse F.pwrRefuse_DROPPED 1
    else actAll [
      setF .pwrState F.pwrState_BUSY 1, setF .pwrState F.pwrState_TARGET target,
      modPwr fun w => { w with
        stopAt := none
        req := some { target, force, answers := powerAgents.map fun a => (a,
          if h.silent.testBit a then .silent
          else if delaysFirst s a || h.delays.testBit a then .delay
          else answerOf s target a) } },
      judge]

/-- An agent gives its answer to the request in progress. -/
def giveAnswer (a : Nat) (x : Answer) : Act :=
  actSeq (modPwr fun w => { w with req := w.req.map fun q => { q with answers := tset q.answers a x } }) judge

/-- The request may commit: every agent has answered ACK, or a forced refusal has been dealt with (R386, R387). -/
def canCommit (s : State) : Bool :=
  match s.pwr.req with
  | none => false
  | some q => q.answered && (q.refusals.isEmpty ||
      (q.forced && q.refusals.all fun x => (x.2 ≠ 1 && x.2 ≠ 5) || agentReason s q.target x.1 = 0))

/-! ### Debug sessions (R437, R440) -/

/-- A tile leaves a debug halt (R440). -/
def Tile.unhalt (τ : Tile) : Tile := { τ with mode := if τ.mode = .halted then .run else τ.mode, haltReq := false, stepsLeft := 0 }

/-- A debug session closes: halted tiles run again, TAINT stays (R437, R440, R441). -/
def closeSession : Act :=
  actAll [
    fun s => [.tiles (s.tiles.map fun p => (p.1, p.2.unhalt))],
    modSec fun x => { x with session := 0, source := 0 },
    setF .secDbgStatus F.secDbgStatus_LEVEL 0, setF .secDbgStatus F.secDbgStatus_SRC 0]

/-- The commit: through the intermediate states to the target, or to S2 where a forced pause has left its context in HBM (R386-R388,
R390). -/
def commit (now : Nat) : Act :=
  actGet (fun s => (s.pwr.req, s.pwr.stopAt)) fun p => actOpt p.1 fun q =>
    let stop := match p.2 with
      | some n => min n q.target
      | none => q.target
    actAll [
      actOn (decide (3 ≤ stop)) closeSession,
      setPair .ptpTimeLo .ptpTimeHi now,
      modPwr fun w => { w with ptpAtEntry := now, req := none, stopAt := none },
      descend stop now,
      (if stop < q.target then actSeq (setF .pwrRefuse F.pwrRefuse_CTX_HBM 1) (powerRefuse [(0x16, 5)] q.target)
        else setF .pwrState F.pwrState_BUSY 0)]

/-! ### Wakes (R392, R393) -/

/-- The wake source acts in this state (R392). -/
def wakeActs (src st : Nat) : Bool :=
  match src with
  | 1 => decide (1 ≤ st) && decide (st ≤ 3)
  | 2 => decide (1 ≤ st) && decide (st ≤ 2)
  | 3 => st = 3
  | 4 => st = 4
  | 7 => st = 1
  | _ => decide (1 ≤ st) && decide (st ≤ 5)

/-- The source's counter (R393). -/
def countWake (src : Nat) : Act :=
  let r := Reg.pwrWakeCnt (BitVec.ofNat 2 (src / 2))
  if src % 2 = 1 then incF r F.pwrWakeCnt_ODD else incF r F.pwrWakeCnt_EVEN

/-- AON ticks of 32.768 kHz in a time of ns. -/
def aonTick (ns : Nat) : Nat := ns * 32768 / 10 ^ 9

/-- A wake starts the exit to S0; `now` is PTP time in ns, or in S3 and deeper the AON ticks since entry (R393, R398). -/
def startExit (src now : Nat) : Act :=
  actGet id fun s =>
    let st := pstate s
    let est := decide (3 ≤ st)
    let ns := if est then s.pwr.ptpAtEntry + now * 10 ^ 9 / 32768 else now
    actAll [
      setF .pwrWakeSrc F.pwrWakeSrc_EST (b2n est), setF .pwrWakeSrc F.pwrWakeSrc_FROM st, setF .pwrWakeSrc F.pwrWakeSrc_SOURCE src,
      setPair .pwrWakeTimeLo .pwrWakeTimeHi ns,
      countWake src,
      modPins fun p => { p with thermtripN := true },
      setF .pwrState F.pwrState_BUSY 1, setF .pwrState F.pwrState_TARGET 0,
      modPwr fun w => { w with exiting := true, retries := 0, lastWake := aonTick ns }]

/-- A wake after a trip, before every sensor is below its warning, is refused with reason 8 and logged as R386 says; a request in
progress goes on (R398). -/
def wakeRefuse : Act :=
  actAll [
    setF .pwrRefuse F.pwrRefuse_REASON 8, setF .pwrRefuse F.pwrRefuse_AGENT 0, setF .pwrRefuse F.pwrRefuse_TARGET 0,
    incF .pwrRefuse F.pwrRefuse_COUNT,
    setReg .pwrRefuseAgents 0,
    signal 4]

/-- A wake source (R386, R392, R393, R398).  One that comes before a commit abandons the request; within the AON tick of the wake in
progress, both sources count and the lower code is recorded; after a trip, the wake is refused until every sensor is below its
warning. -/
def wakeFrom (src now : Nat) : Act :=
  actGet id fun s =>
    let st := pstate s
    if s.pwr.exiting then
      actOn (wakeActs src st && decide (aonTick (if 3 ≤ st then s.pwr.ptpAtEntry + now * 10 ^ 9 / 32768 else now) = s.pwr.lastWake)) (actSeq
        (countWake src)
        (actWhen (fun s => decide (src < s.fget .pwrWakeSrc F.pwrWakeSrc_SOURCE)) (setF .pwrWakeSrc F.pwrWakeSrc_SOURCE src)))
    else if wakeActs src st && !s.pins.thermtripN && !s.pwr.hot.isEmpty then wakeRefuse
    else match s.pwr.req with
      | some q => actOn (wakeActs src st || wakeActs src q.target) (actAll [
          modPwr fun w => { w with req := none, stopAt := none },
          setF .pwrRefuse F.pwrRefuse_WOKEN 1, setF .pwrState F.pwrState_BUSY 0,
          actOn (wakeActs src st) (startExit src now)])
      | none => actOn (wakeActs src st) (startExit src now)

/-! ### Module reset (R383, R411, R426) -/

/-- A member of a loaded job announces the reset that it is about to take (R364). -/
def announceReset : Act := actWhen (fun s => jobLoaded s && decide (pstate s < 2)) sendLeave

/-- The supplies are up, PERST_N is high and REF25 runs: bring-up starts at the ROM phase (R408, R451); with REF25 absent the module
holds in reset (R454). -/
def startBoot : Act :=
  actWhen (fun s => s.pins.inputUp && s.pins.perstN) (actIf (fun s => s.pins.ref25)
    (actSeq (modBoot fun b => { b with started := true }) (setF .bootStatus F.bootStatus_PHASE 0))
    (actSeq alert (setF .pwrFault F.pwrFault_WHAT 0x0201)))

/-- Transitions that a lifecycle word shows: ones from bit 0 up (R429). -/
def lcCount (w : U32) : Nat := ((List.range 13).find? fun t => !w.getLsbD t).getD 13

/-- A lifecycle pattern of R429 as a state; any other pattern has none. -/
def lcDecode (w : U32) : Option Nat :=
  if w.getLsbD 31 then some 4
  else
    let t := lcCount w
    if t ≤ 12 ∧ w.toNat = 2 ^ t - 1 then some (if t = 0 then 0 else [3, 1, 2].getD (t % 3) 0) else none

/-- The lifecycle word shown in SEC_LC: state, T and the provisioning index (R429, R445). -/
def showLc (st : Nat) (w : U32) : Act :=
  let t := min 12 (lcCount w)
  actAll [
    setF .secLc F.secLc_STATE st, setF .secLc F.secLc_TCOUNT t,
    setF .secLc F.secLc_INDEX (if t = 0 then 0 else (t - 1) / 3)]

/-- The identity and owner-key entries in use, those of index k in PROV and FIELD (R429). -/
def identOf (s : State) : Option IdentEntry :=
  if s.fget .secLc F.secLc_STATE = 1 ∨ s.fget .secLc F.secLc_STATE = 2 then tfind s.otp.ident (s.fget .secLc F.secLc_INDEX) else none
def ownerOf (s : State) : Option OwnerEntry :=
  if s.fget .secLc F.secLc_STATE = 1 ∨ s.fget .secLc F.secLc_STATE = 2 then tfind s.otp.owner (s.fget .secLc F.secLc_INDEX) else none

/-- The key-generation seed of an identity entry (R433). -/
def IdentEntry.seed (o : Otp) (e : IdentEntry) : BitVec 256 := e.wrapped ^^^ Config.wrapMask o.deviceKey
/-- The identity public key (R433). -/
def IdentEntry.public (o : Otp) (e : IdentEntry) : List Byte := Config.mldsaPublic (e.seed o)
/-- The digests of the entries verify (R433). -/
def IdentEntry.ok (o : Otp) (e : IdentEntry) : Bool := decide (sha3 (e.public o) = e.digest)
def OwnerEntry.ok (e : OwnerEntry) : Bool := decide (sha3 e.key = e.digest)

/-- IDENT_BAD and the device identity (R433, R445): an entry in use is missing or fails its digest. -/
def showIdent : Act :=
  actGet id fun s =>
    let use := decide (s.fget .secLc F.secLc_STATE = 1) || decide (s.fget .secLc F.secLc_STATE = 2)
    let good := match identOf s, ownerOf s with
      | some e, some o => e.ok s.otp && o.ok
      | _, _ => false
    let d : Digest := if use && good then ((identOf s).map IdentEntry.digest).getD 0 else 0
    actSeq (setF .secLc F.secLc_IDENT_BAD (b2n (use && !good)))
      (actEach (List.range 8) fun i => setReg (.secId (BitVec.ofNat 3 i)) (d.extractLsb' (224 - 32 * i) 32))

/-- The vote on the lifecycle field (R319): the word that two copies share, where it is defined. -/
def lcVote (o : Otp) : Option U32 :=
  let c := fun i => tget o.lc 0 i
  if (c 0 = c 1 ∨ c 0 = c 2) ∧ (lcDecode (c 0)).isSome then some (c 0)
  else if c 1 = c 2 ∧ (lcDecode (c 1)).isSome then some (c 1)
  else none

/-- The vote on the revocation bit of each key slot (R319): a bit is 1 in two copies at least. -/
def revokedVote (o : Otp) : BitVec 4 :=
  let c := fun i => tget o.revoked 0 i
  (c 0 &&& c 1) ||| (c 0 &&& c 2) ||| (c 1 &&& c 2)

/-- The votes of power-up, and what SEC_LC, SEC_KEYSLOT and FLT_OTP show of them (R319, R328, R429, R442). -/
def otpVote : Act :=
  actGet (fun s => s.otp) fun o =>
    let lc := fun i => tget o.lc 0 i
    let rv := fun i => tget o.revoked 0 i
    let w := lcVote o
    actAll [
      showLc ((w.bind lcDecode).getD 4) (w.getD 0),
      showIdent,
      setF .secKeyslot F.secKeyslot_REVOKED (revokedVote o).toNat,
      setReg .fltOtp 0,
      setF .fltOtp F.fltOtp_LC_ALLDIFF (b2n (decide (lc 0 ≠ lc 1) && decide (lc 0 ≠ lc 2) && decide (lc 1 ≠ lc 2))),
      setF .fltOtp F.fltOtp_DISAGREE (b2n (decide (lc 0 ≠ lc 1) || decide (lc 0 ≠ lc 2) || decide (rv 0 ≠ rv 1) || decide (rv 0 ≠ rv 2)))]

/-- Module reset: registers at their reset values, all volatile state gone, sessions closed, the entropy block restarted; flash, OTP
and what the fuses give stay (R130, R307, R383, R390, R426, R437).  After S5, AON stays too. -/
def moduleReset (keepAon : Bool) : Act :=
  actGet id fun s => actAll [
    resetRegs fun r => !(r.isFused || (keepAon && r.inAon)),
    fun _ => [.latched [], .held []],
    wipe (spaceBase 0) (spaceBase 1), wipe (spaceBase 2) (spaceBase 3), wipe (spaceBase 16) dieSpaces,
    fun _ => [.tiles [], .rows [], .slots []],
    modJob fun _ => {}, modEcho fun _ => {},
    modFlt fun f => { ({} : Flt) with copies := f.copies },
    modHif fun h => { ({} : Hif) with linkUp := h.linkUp, bar2Size := h.bar2Size },
    modNet fun n => { ({} : Bexir) with sent := n.sent },
    modPwr fun w => { ({} : Power) with retiredSensors := w.retiredSensors, hot := if keepAon then w.hot else [] },
    modBoot fun b => { ({} : Boot) with fusedTiles := b.fusedTiles, fusedRows := b.fusedRows, table := b.table },
    modEnt fun e => { ({} : Ent) with alarm := keepAon && e.alarm },
    modSec fun _ => {},
    setF .glbStatus F.glbStatus_GRADE_EFF (s.fget .glbId F.glbId_GRADE),
    setReg .secLc (s.reg .secLc), showIdent,
    setReg .fltOtp (s.reg .fltOtp),
    setF .secKeyslot F.secKeyslot_REVOKED (s.fget .secKeyslot F.secKeyslot_REVOKED),
    entStart]

/-! ### The exit to S0 (R381, R382, R390) -/

/-- The exit ends: the Sump list is restored, the entropy block restarts and the stacks train after S3 or deeper, and S5 leads to the
bring-up sequence from reset values. -/
def endExit : Act :=
  actWhen (fun s => s.pwr.exiting) (actGet pstate fun st => actAll [
    (if st = 5 then actSeq (moduleReset true) startBoot
      else actAll [
        actOn (2 ≤ st) sumpRestore,
        actOn (st = 2) (actEach ((List.range 32).map (BitVec.ofNat 5)) fun k =>
          actWhen (fun s => stackState s k = 3) (setF (.hbmStatus k) F.hbmStatus_STATE 2)),
        actOn (3 ≤ st) (actSeq entStart (setStacks 1))]),
    setF .pwrState F.pwrState_CUR 0, setF .pwrState F.pwrState_BUSY 0,
    modPwr fun w => { w with exiting := false, retries := 0 }])

end Sys2Proof.Machine
end

