-- ==== Sys2Proof/Machine/Queue.lean ====
section
/-!
DEFINITION. Doorbells and queue pairs (R171-R173, R333-R341, R345, R389, R410).
-/
namespace Sys2Proof.Machine

/-- Bring-up is complete (R409). -/
def isReady (s : State) : Bool := s.flag .glbStatus F.glbStatus_READY

/-! ### Doorbells (R333) -/

/-- Entries of a pair's queues: 2^SQSZ and 2^CQSZ (R352). -/
def sqSize (s : State) (q : BitVec 6) : Nat := 2 ^ s.fget (.qCfg q) F.qCfg_SQSZ
def cqSize (s : State) (q : BitVec 6) : Nat := 2 ^ s.fget (.qCfg q) F.qCfg_CQSZ

/-- An SQ tail value arrives. -/
def ringTail (q : BitVec 6) (v : U32) : Act :=
  actWhen (fun s => qOn s q.toNat) (actIf (fun s => decide (v.toNat < sqSize s q))
    (modQ q.toNat fun p => { p with tail := v.toNat }) (setF .hifErr F.hifErr_DB_RANGE 1))

/-- A CQ head value arrives. -/
def ringHead (q : BitVec 6) (v : U32) : Act :=
  actWhen (fun s => qOn s q.toNat) (actIf (fun s => decide (v.toNat < cqSize s q))
    (modQ q.toNat fun p => { p with cqHead := v.toNat }) (setF .hifErr F.hifErr_DB_RANGE 1))

/-- A Sieve answer arrives: index in [19:0] (R171, R333); an offset beyond those of the 384 streams is none of a doorbell. -/
def ringAnswer (n : BitVec 9) (v : U32) : Act :=
  let i := v.toNat % 2 ^ 20
  actOn (decide (n.toNat < 384)) (actIf (fun s => s.fget (.svcCtrl n) F.svcCtrl_STATE = 2)
    (ingress [{ entry := { typ := 9, agent := n.toNat, aux := i }, acts := [.answer n.toNat i] }])
    (setF .hifErr F.hifErr_ANSWER_DROP 1))

/-- A doorbell by kind: 0 SQ tail, 1 CQ head, 2 Sieve answer. -/
def ring (kind n : Nat) (v : U32) : Act :=
  match kind with
  | 0 => ringTail (BitVec.ofNat 6 n) v
  | 1 => ringHead (BitVec.ofNat 6 n) v
  | _ => ringAnswer (BitVec.ofNat 9 n) v

/-- A BAR4 write arrives (R389, R392, R410): dropped in S3 and deeper, a wake source in S1 and S2, held until READY. -/
def doorbell (kind n : Nat) (v : U32) (now : Nat) : Act :=
  actWhen (fun s => decide (pstate s < 3)) (actSeq (wakeFrom 2 now)
    (actIf isReady (ring kind n v) (modHif fun h => { h with heldBells := h.heldBells ++ [(kind, n, v)] })))

/-- READY has risen: the doorbells that were held take effect in order (R410). -/
def releaseBells : Act :=
  actGet (fun s => s.hif.heldBells) fun bs => actSeq (modHif fun h => { h with heldBells := [] }) (actEach bs fun b => ring b.1 b.2.1 b.2.2)

/-- SQ_TAIL_DOORBELL: new entries are announced (R333); `now` stamps a wake. -/
def execSqTailDoorbell (q : BitVec 6) (v : U32) (now : U64) (s : State) : Host.Outcome State Fault Refusal :=
  s.does (doorbell 0 q.toNat v now.toNat)

/-- CQ_HEAD_DOORBELL: completion slots are free again (R333). -/
def execCqHeadDoorbell (q : BitVec 6) (v : U32) (now : U64) (s : State) : Host.Outcome State Fault Refusal :=
  s.does (doorbell 1 q.toNat v now.toNat)

/-- SIEVE_ANSWER: the host answers a draw in HOST_WAIT; any other is dropped (R171, R333). -/
def execSieveAnswer (n : BitVec 9) (v : U32) (now : U64) (s : State) : Host.Outcome State Fault Refusal :=
  s.does (doorbell 2 n.toNat v now.toNat)

/-! ### Fetch (R334, R336, R337) -/

/-- A request of the module has failed for good: DMA_FAIL and its event, and the job freezes (R345, R349). -/
def dmaFail (loc : Nat) : Act :=
  actAll [setF .hifErr F.hifErr_DMA_FAIL 1, mcEvent 7 [loc], raiseFault { code := 0x8E, loc }]

/-- OPC of R337. -/
def knownOpc (c : Cmd) : Bool := decide (1 ≤ c.opc) && decide (c.opc ≤ 6)

/-- SQ_FETCH: the queue's next entry is read and its command starts, one command of a queue at a time (R334, R336, R410); an
unassigned OPC completes at once (R337).  `fails` says that the read has failed for good (R345). -/
def execSqFetch (q : BitVec 6) (fails : Bool) (s : State) : Host.Outcome State Fault Refusal :=
  s.does (actWhen (fun s => qOn s q.toNat && isReady s && s.hif.linkUp && decide (pstate s < 4) && (s.qp q.toNat).busy.isNone &&
      decide ((s.qp q.toNat).tail ≠ (s.qp q.toNat).head))
    (if fails then dmaFail q.toNat else actGet id fun s =>
      let p := s.qp q.toNat
      let head := (p.head + 1) % sqSize s q
      let c : Cmd := { queue := q.toNat, bytes := s.bytes (hostMem (s.pair (.qSqbaseLo q) (.qSqbaseHi q) + 64 * p.head)) 64, head }
      actSeq (modQ q.toNat fun p => { p with head, busy := some c })
        (actOn (!knownOpc c) (finishCmd q.toNat 0 1 1))))

/-! ### Completions (R336, R339) -/

/-- The 16 bytes of a completion (R339). -/
def Completion.bytes (c : Completion) (phase : Bool) : List Byte :=
  leBytes 8 c.result0 ++ leBytes 2 c.head ++ leBytes 2 c.queue ++ leBytes 2 c.cid ++ leBytes 1 c.code ++ leBytes 1 (b2n phase + 2 * c.typ)

/-- The CQ has a free slot: one entry stays empty (R336, notes/assumptions/29.md). -/
def cqRoom (s : State) (q : BitVec 6) : Bool := decide (((s.qp q.toNat).cqTail + 1) % cqSize s q ≠ (s.qp q.toNat).cqHead)

/-- The oldest completion of a pair goes to its CQ, and its vector is signalled (R336, R339, R340). -/
def postOne (q : BitVec 6) : Act :=
  actGet id fun s =>
    let p := s.qp q.toNat
    actOpt p.ready.head? fun c => actOn (qOn s q.toNat && cqRoom s q) (
      let next := (p.cqTail + 1) % cqSize s q
      actAll [
        store (hostMem (s.pair (.qCqbaseLo q) (.qCqbaseHi q) + 16 * p.cqTail)) (c.bytes p.phase),
        modQ q.toNat fun p => { p with ready := p.ready.drop 1, cqTail := next, phase := if next = 0 then !p.phase else p.phase },
        signalVec (s.fget (.qCfg q) F.qCfg_VEC)])

/-- CQ_POST: a finished command's completion is written (R336). -/
def execCqPost (q : BitVec 6) (s : State) : Host.Outcome State Fault Refusal :=
  s.does (actWhen (fun s => s.hif.linkUp) (postOne q))

/-! ### Setting a pair up and down (R335) -/

/-- Commands that a pair has fetched complete with ABORTED, requests in the pool with them; what they had started is given up
(R335, R341). -/
def abortFetched (q : Nat) : Act :=
  actAll [
    actWhen (fun s => s.job.phase == .loading && s.job.queue = q && !s.job.standing) (refuseLoad q false (.status 6)),
    actEach (List.range 4) fun j => actWhen (fun s => (s.slot j).loading && (s.slot j).queue = q) (actSeq
      (modSlot j fun x => { x with loading := false }) (setReg (.imgStatus (BitVec.ofNat 2 j)) 0)),
    actWhen (fun s => s.job.pauseQ = some q) (modJob fun j => { j with pauseAt := none, pauseQ := none }),
    modEcho fun x => { x with waiting := x.waiting.map fun d => { d with acts := d.acts.filter fun a => a ≠ .finish q } },
    finishCmd q 0 6 1,
    actGet (fun s => s.hif.pool.filter fun r => r.queue = q) fun rs => actSeq
      (modHif fun h => { h with pool := h.pool.filter fun r => r.queue ≠ q })
      (actEach rs fun r => complete r.queue r.cid r.head 0 6 1)]

/-- The pair goes down: what has completed is posted while its CQ has room, and nothing after it (R335). -/
def disablePair (q : BitVec 6) : Act :=
  actWhen (fun s => qOn s q.toNat) (actAll [
    abortFetched q.toNat,
    actWhen (fun s => s.hif.linkUp) (actGet (fun s => (s.qp q.toNat).ready) fun cs => actEach cs fun _ => postOne q),
    setF (.qCfg q) F.qCfg_EN 0,
    modQ q.toNat fun _ => {}])

/-- The bases are 4 KiB aligned and the sizes assigned (R335, R352). -/
def queueOk (s : State) (q : BitVec 6) : Bool :=
  decide (s.pair (.qSqbaseLo q) (.qSqbaseHi q) % 4096 = 0) && decide (s.pair (.qCqbaseLo q) (.qCqbaseHi q) % 4096 = 0) &&
    decide (4 ≤ s.fget (.qCfg q) F.qCfg_SQSZ) && decide (4 ≤ s.fget (.qCfg q) F.qCfg_CQSZ)

/-- A write of HIF_Q_CFG (R335). -/
def writeQCfg (q : BitVec 6) (v : U32) : Act :=
  actGet (fun s => qOn s q.toNat) fun was =>
    if F.qCfg_EN.get v = 1 then actAll [
        setReg (.qCfg q) v,
        actIf (fun s => queueOk s q) (actOn (!was) (modQ q.toNat fun _ => {}))
          (actSeq (disablePair q) (setF .hifErr F.hifErr_Q_CFG 1))]
    else actSeq (disablePair q) (setReg (.qCfg q) v)

/-- QUEUE_ENABLE: HIF_Q_CFG is written with EN = 1 (R335). -/
def execQueueEnable (q : BitVec 6) (v : U32) (s : State) : Host.Outcome State Fault Refusal :=
  s.does (reachReg (.qCfg q) (writeQCfg q (F.qCfg_EN.put v 1)))

/-- QUEUE_DISABLE: HIF_Q_CFG is written with EN = 0 (R335). -/
def execQueueDisable (q : BitVec 6) (v : U32) (s : State) : Host.Outcome State Fault Refusal :=
  s.does (reachReg (.qCfg q) (writeQCfg q (F.qCfg_EN.put v 0)))

end Sys2Proof.Machine
end

