-- ==== Sys2Proof/Machine/BootOps.lean ====
section
/-!
DEFINITION. Boot: the flash header, firmware verification, configuration records, the phases of bring-up, RECOVERY and the
standing program (R147, R313, R400-R414, R432).
-/
namespace Sys2Proof.Machine

/-! ### Firmware (R402, R403) -/

/-- The checks on a firmware image that `rd` reads, in their order; 0 where all pass.  `len` is the length that FW_COMMIT names, and
`unread` says that a read from the flash has not completed. -/
def firmwareErr (rd : Nat → Nat → List Byte) (keys : Tab Nat Digest) (revoked : Nat) (len : Option Nat) (unread : Bool) : Nat :=
  let h := rd 0 4096
  let n := leAt h 12 4
  let slot := leAt h 16 1
  let key := (h.drop 80).take 1312
  if !(decide (h.take 8 = ascii "CKS8MCFW") && decide (0x10000 ≤ n) && decide (n ≤ 0x400000) && len.all (· = n + 4096)) then 1
  else if 3 < slot ∨ revoked.testBit slot then 2
  else if tfind keys slot ≠ some (sha3 key) then 3
  else if !Config.mldsaVerify key (sha3 (h.take 1392)) ((h.drop 1392).take 2420) then 4
  else if ofBe ((h.drop 48).take 32) ≠ (sha3 (rd 4096 n)).toNat then 5
  else if unread then 6 else 0

/-- Eight registers hold a digest, byte 4i in [31:24] of register i. -/
def setDigest (r : BitVec 3 → Reg) (d : Digest) : Act :=
  actEach (List.range 8) fun i => setReg (r (BitVec.ofNat 3 i)) (d.extractLsb' (224 - 32 * i) 32)

/-- A verified image runs: its version, header digest and key slot show (R403, R416, R445). -/
def runFirmware (h : List Byte) : Act :=
  actAll [
    setReg .bootFwVer (BitVec.ofNat 32 (leAt h 8 4)),
    setDigest .bootFwDigest (sha3 h),
    setF .secKeyslot F.secKeyslot_RUNNING (leAt h 16 1)]

/-- RECOVERY: the ROM runs the MC; dies, HBM and Ethernet are off (R412). -/
def enterRecovery : Act :=
  actAll [
    setF .bootStatus F.bootStatus_PHASE 0xF,
    setF .glbStatus F.glbStatus_RECOVERY 1, setF .glbStatus F.glbStatus_READY 0,
    setReg .bootFwVer 0,
    loseDies, loseHbm, portsDown,
    signal 0]

/-! ### Configuration records (R404-R407) -/

/-- A record as it lies in the flash: type, SEQ, its head and body, and whether it is accepted before its fields are checked. -/
structure FlashRec where
  typ : Nat
  seq : Nat
  bytes : List Byte
  body : List Byte
  accepted : Bool
  deriving DecidableEq, Repr

/-- The records of the region, packed on 64 bytes, up to a MAGIC of all ones or what is no record (R404, R405). -/
def scanRecords (rd : Nat → Nat → List Byte) (lc : Nat) (owner : List Byte) (top : Nat) : Nat → Nat → List FlashRec
  | 0, _ => []
  | n + 1, at_ =>
    let h := rd at_ 64
    let len := leAt h 8 4
    let signed := leAt h 6 2 % 2 = 1
    if top < at_ + 64 ∨ h.take 4 ≠ ascii "CKCR" ∨ 4096 < len then []
    else
      let whole := rd at_ (64 + len)
      let sigOk := Config.mldsaVerify owner (sha3 whole) (rd (at_ + 64 + len) 2420)
      let ok := (lc = 1 ∨ lc = 2) ∧ (if signed then sigOk else decide (lc = 1))
      { typ := leAt h 4 2, seq := leAt h 12 4, bytes := whole, body := whole.drop 64, accepted := decide ok } ::
        scanRecords rd lc owner top n (at_ + ceilDiv (64 + len + (if signed then 2420 else 0)) 64 * 64)

/-- What the firmware selects for one type: the record that applies, whether one was rejected, and whether the type takes its
defaults for it (R406). -/
def selectRecord (rs : List FlashRec) (typ : Nat) : Option FlashRec × Bool × Bool :=
  let mine := rs.filter fun r => r.typ = typ
  let good := mine.filter fun r => r.accepted && (Config.recordBody typ r.body).isSome
  let top := good.foldl (fun n r => max n r.seq) 0
  let best := good.filter fun r => r.seq = top
  let rej := decide (good.length < mine.length)
  match best with
  | [] => (none, rej, !mine.isEmpty)
  | r :: more => if more.any fun x => x.bytes ≠ r.bytes then (none, rej, true) else (some r, rej, false)

/-- What a record sets (R407). -/
def applyRecord : RecBody → Act
  | .link cfg mask vlan pe pp addr v4 => actSeq (modNet fun n => { n with cfg1600 := cfg = 1 })
      (modBoot fun b => { b with cfg := { b.cfg with portMask := mask, vlan, pcpExpress := pe, pcpPreempt := pp, addr, v4 } })
  | .envelope profiles cap idle lim => actAll [
      modBoot fun b => { b with cfg := { b.cfg with profiles } },
      setReg .pwrHostCap cap, setReg .pwrIdle idle, setReg .pwrThermLim lim]
  | .ptp domain p2p udp pps margin => actAll [
      modBoot fun b => { b with cfg := { b.cfg with ptpDomain := domain, ptpP2p := p2p, ptpUdp := udp } },
      modNet fun n => { n with ppsSource := pps },
      setReg .ptpRelMargin margin]
  | .bexir port mcast pod => actAll [
      setF .bxtCfg F.bxtCfg_UDP_PORT port,
      modBoot fun b => { b with cfg := { b.cfg with mcast } },
      modNet fun n => { n with podId := pod }]
  | .standing r => modBoot fun b => { b with cfg := { b.cfg with standing := some r } }
  | .policy hif hold em ef am sig => actAll [
      setF .hifPolicy F.hifPolicy_LINK (b2n (hif.testBit 0)), setF .hifPolicy F.hifPolicy_CKPT (b2n (hif.testBit 1)),
      setF .hifPolicy F.hifPolicy_PWR (b2n (hif.testBit 2)), setF .hifPolicy F.hifPolicy_DRBG (b2n (hif.testBit 3)),
      setF .fltCtrl F.fltCtrl_HOLD (b2n hold),
      setF .echoCtrl F.echoCtrl_MODE em, setF .echoCtrl F.echoCtrl_FULL (b2n ef),
      setF .admCtrl F.admCtrl_MODE am,
      modBoot fun b => { b with cfg := { b.cfg with imgSig := sig } }]

/-- What a type sets where no record of it applies (R407). -/
def defaultBody (field : Bool) : Nat → Option RecBody
  | 1 => some (.link 0 0xFFFF none 7 3 none false)
  | 2 => some (.envelope 0xFFFF (Reg.reset .pwrHostCap) (Reg.reset .pwrIdle) (Reg.reset .pwrThermLim))
  | 3 => some (.ptp 0 false false false (Reg.reset .ptpRelMargin))
  | 4 => some (.bexir 0xBE58 0xFF02000000000000000000000000BE58 0)
  | 6 => some (.policy 0 false 0 false 0 field)
  | _ => none

/-- The owner's key in force: that of owner-key entry k in PROV and FIELD (R429, R434). -/
def ownerKey (s : State) : List Byte :=
  if s.fget .secLc F.secLc_STATE = 1 ∨ s.fget .secLc F.secLc_STATE = 2 then
    ((tfind s.otp.owner (s.fget .secLc F.secLc_INDEX)).map OwnerEntry.key).getD []
  else []

/-- The records of the flash. -/
def flashRecords (s : State) : List FlashRec :=
  let r := flashRegion s 3
  scanRecords (fun o n => s.bytes (flash o) n) (s.fget .secLc F.secLc_STATE) (ownerKey s) (r.1 + r.2) 16384 r.1

/-- Read, verify and apply the records; a type without one takes its defaults (R405-R407). -/
def applyRecords : Act :=
  actGet id fun s =>
    let rs := flashRecords s
    let sel := (List.range 6).map fun i => (i, selectRecord rs (i + 1))
    let mask := fun (p : Option FlashRec × Bool × Bool → Bool) => sel.foldl (fun n x => n + b2n (p x.2) * 2 ^ x.1) 0
    let applied := sel.filterMap fun x => x.2.1
    let field := s.fget .secLc F.secLc_STATE = 2
    actAll [
      modBoot fun b => { b with cfg := { ({} : CfgRec) with imgSig := field } },
      setF .bootCfg F.bootCfg_APPLIED (mask fun x => x.1.isSome),
      setF .bootCfg F.bootCfg_REJ (mask fun x => x.2.1),
      setF .bootCfg F.bootCfg_DEFAULT (mask fun x => x.2.2),
      setDigest .bootCfgDigest (sha3 (applied.flatMap FlashRec.bytes)),
      actEach sel fun x => actOpt (match x.2.1 with
        | some r => Config.recordBody r.typ r.body
        | none => defaultBody field (x.1 + 1)) applyRecord]

/-- Configuration records and standing program are erased (R432). -/
def eraseOwner : Act :=
  actGet id fun s =>
    let a := flashRegion s 3
    let b := flashRegion s 4
    actSeq (store (flash a.1) (List.replicate a.2 0xFF)) (store (flash b.1) (List.replicate b.2 0xFF))

/-! ### The standing program (R414) -/

/-- The highest address of usable HBM in a stack that is READY. -/
def hbmTop (s : State) : Nat :=
  match (List.range 32).reverse.find? fun k => stackState s (BitVec.ofNat 5 k) = 2 with
  | some k => k * 2 ^ 36 + usableTop s
  | none => 0

/-- The standing job is loaded, where none is and READY has risen. -/
def standingJob : Act :=
  actGet (fun s => s.boot.cfg.standing) fun o => actOpt o fun r =>
    actWhen (fun s => s.job.phase = .none) (beginLoad r.block 0 64 true)

/-- After READY: the image goes to the top of usable HBM and into slot 0 by the checks of LOAD_IMAGE, and under START AUTO its job
loads. -/
def standingStart : Act :=
  actGet id fun s => actOpt s.boot.cfg.standing fun r =>
    let a := (hbmTop s - r.length) / 4096 * 4096
    actAll [
      store (hbm a) (s.bytes (flash ((flashRegion s 4).1 + r.offset)) r.length),
      bumpGens a r.length,
      startLoad 0 a 64 0 0,
      actGet (fun s => slotVerdict s 0) fun v => actSeq (slotOutcome 0 v) (match v.refusal with
        | some e => setF .bootStatus F.bootStatus_STAND_ERR e.code
        | none => if r.start = 0 then standingJob else modBoot fun b => { b with standHost := true })]

/-! ### The phases (R408, R409) -/

/-- A unit was marked failed at boot (R409). -/
def bootFailed (die loc : Nat) : Act := actSeq (setF .glbStatus F.glbStatus_DEGRADED 1) (writeFltRec 0 3 die loc)

/-- FW_VERIFY ends (R403): the firmware starts, or the module is in RECOVERY. -/
def endVerify (unread : Bool) : Act :=
  actGet id fun s =>
    let r := flashRegion s 2
    let e := firmwareErr (fun o n => s.bytes (flash (r.1 + o)) n) s.otp.keys (s.fget .secKeyslot F.secKeyslot_REVOKED) none unread
    actAll [
      setF .bootStatus F.bootStatus_HDR_DEFAULT (b2n (headerRegions (flashHeader s)).isNone),
      setF .bootStatus F.bootStatus_FW_ERR e,
      (if e = 0 then actAll [
          runFirmware (s.bytes (flash r.1) 4096),
          setF .hifPolicy F.hifPolicy_FW 0,
          setF .bootStatus F.bootStatus_PHASE 2]
        else enterRecovery)]

/-- The module is DEAD: the MC brings up no compute die, no HBM and no Ethernet, so the sequence stays in DIES (R405). -/
def isDead (s : State) : Bool := s.fget .secLc F.secLc_STATE = 4

/-- CONFIG ends (R405, R406, R313, R432). -/
def endConfig : Act :=
  actAll [
    actWhen (fun s => s.fget .secLc F.secLc_STATE = 3) eraseOwner,
    applyRecords,
    actGet flashTable fun o => actSeq (actOn o.isNone (setF .fltStatus F.fltStatus_RTAB_BAD 1)) (modBoot fun b => { b with table := o.getD {} }),
    setF .bootStatus F.bootStatus_PHASE 3]

/-- The CRC-32C of chunk `i` of the table memory, 48 lines of the coefficient section (R147, R149). -/
def tableCrc (i : Nat) : U32 := crc32c ((tblBytes.drop (48 * 64 * i)).take (48 * 64))

/-- DIES ends: the retirement table and the row maps are in force, and tiles that have not come up or fail the tests of R147 are
retired (R313, R314, R409), those of `tbl` because the digest of their table memory differs (R151); the tables' chunk CRCs are kept, and the
stacks begin to train. -/
def endDies (bad tbl : List TileId) : Act :=
  actAll [
    actEach tbl fun t => setF (.cgsFault (dieOf t)) F.cgsFault_TBL_MISMATCH 1,
    modBoot fun b => { b with tblCrc := (List.range 48).map tableCrc },
    actWhen (fun s => !s.boot.table.rows.isEmpty) (setF .glbStatus F.glbStatus_GRADE_EFF 1),
    rebuildMaps,
    actEach (bad ++ tbl.filter fun t => !bad.contains t) fun t => actSeq (columnShift t) (bootFailed (dieOf t).toNat t.toNat),
    actGet (fun s => s.boot.table.badStacks) fun ks => actEach ks fun k => setF (.hbmStatus (BitVec.ofNat 5 k)) F.hbmStatus_STATE 5,
    setStacks 1,
    setF .bootStatus F.bootStatus_PHASE 4]

/-- HBM ends: the stacks are READY, those that have not come up FAILED (R242, R409). -/
def endHbm (bad : List Nat) : Act :=
  actAll [
    actEach bad fun k => actSeq (failStack (BitVec.ofNat 5 k)) (bootFailed (k / 4) k),
    setStacks 2,
    setF .bootStatus F.bootStatus_PHASE 5]

/-- The die-to-die links: west, east but of CD3 and CD7, vertical (R224, R248). -/
def dieLinks : List (DieId × BitVec 2) :=
  allDies.flatMap fun d => ((if d.toNat % 4 = 3 then [0, 2] else [0, 1, 2]) : List (BitVec 2)).map fun l => (d, l)

/-- D2D ends: links are up but for those that have not come up, and READY rises (R227, R409, R410). -/
def endLinks (bad : List (DieId × BitVec 2)) : Act :=
  actAll [
    actEach (dieLinks.filter fun x => !bad.contains x) fun x => setF (.d2dStat x.1 x.2) F.d2dStat_UP 1,
    actEach bad fun x => actSeq (linkDown x.1 x.2) (bootFailed x.1.toNat x.2.toNat),
    setF .bootStatus F.bootStatus_PHASE 6,
    setF .glbStatus F.glbStatus_READY 1,
    releaseBells,
    standingStart]

end Sys2Proof.Machine
end

