-- ==== Sys2Proof/Machine/BootCmd.lean ====
section
/-!
DEFINITION. The commands of bring-up (R147, R403-R416).
-/
namespace Sys2Proof.Machine

/-- The sequence is running; in DEAD it goes no further than DIES (R405). -/
def bringingUp (s : State) : Bool := s.boot.started && !inRecovery s && !isReady s && !(isDead s && decide (3 ≤ bootPhase s))

/-- BOOT_PHASE_END: the phase in progress ends and the next one begins; `unread` says that a flash read of FW_VERIFY has not completed,
`bad` names the tiles whose CG core fails its known answers in DIES, and `tbl` those whose table memory fails its digest (R147, R403, R408). -/
def execBootPhaseEnd (unread : Bool) (tests : TileTests) (s : State) : Host.Outcome State Fault Refusal :=
  s.does (actWhen bringingUp (actGet bootPhase fun p =>
    match p with
    | 0 => setF .bootStatus F.bootStatus_PHASE 1
    | 1 => endVerify unread
    | 2 => endConfig
    | 3 => endDies tests.bad tests.tbl
    | 4 => endHbm []
    | 5 => endLinks []
    | _ => actNop))

/-- PHASE_BOUND_EXPIRY: units that have not come up are marked failed, and the sequence moves on (R409). -/
def execPhaseBoundExpiry (tiles : List TileId) (badStacks : List (BitVec 5)) (links : List (DieId × BitVec 2)) (s : State) :
    Host.Outcome State Fault Refusal :=
  s.does (actWhen bringingUp (actGet bootPhase fun p =>
    match p with
    | 3 => endDies tiles []
    | 4 => endHbm (badStacks.map BitVec.toNat)
    | 5 => endLinks (links.filter fun x => dieLinks.contains x)
    | _ => actNop))

/-- A write of BOOT_CTRL.START loads the START HOST standing job (R414). -/
def startStanding : Act :=
  actWhen (fun s => s.boot.standHost && isReady s && decide (s.job.phase = .none))
    (actSeq (modBoot fun b => { b with standHost := false }) standingJob)

/-- START (R414, R416). -/
def execStart (s : State) : Host.Outcome State Fault Refusal := s.does (reachReg .bootCtrl startStanding)

/-- A write of BOOT_CTRL.ENTER_RECOVERY (R412): dropped with a job loaded. -/
def askRecovery : Act :=
  actIf (fun s => decide (s.job.phase = .none)) (actWhen (fun s => !inRecovery s) enterRecovery)
    (setF .bootStatus F.bootStatus_ENTER_DROP 1)

/-- ENTER_RECOVERY (R412, R416). -/
def execEnterRecovery (s : State) : Host.Outcome State Fault Refusal := s.does (reachReg .bootCtrl askRecovery)

end Sys2Proof.Machine
end

