-- ==== Sys2Proof/Machine/EchoLog.lean ====
section
/-!
DEFINITION. The commands on the Echo log's registers and on the host ring (R292, R296, R297, R306, R348).
-/
namespace Sys2Proof.Machine

/-- ECHO_DELIVERY_RESUME: held deliveries proceed where room has appeared (R296). -/
def execEchoDeliveryResume (s : State) : Host.Outcome State Fault Refusal := s.does pump

/-- ECHO_DRAIN takes a SEQ: entries below it may be overwritten (R296). -/
def writeDrain (v : Nat) : Act := actSeq (setPair .echoDrainLo .echoDrainHi v) pump

/-- ECHO_DRAIN_WRITE: the host reports how far it has read (R296). -/
def execEchoDrainWrite (v : U64) (s : State) : Host.Outcome State Fault Refusal := s.does (reachReg .echoDrainLo (writeDrain v.toNat))

/-- ECHO_CTRL_WRITE: DIGEST_INTERVAL acts from the next step boundary, the other fields from the next job load (R292, R297). -/
def execEchoCtrlWrite (v : U32) (s : State) : Host.Outcome State Fault Refusal := s.does (reachReg .echoCtrl (setReg .echoCtrl v))

/-- ECHO_HOST_FAIL: a posted write to the host ring fails, a fault (R297). -/
def execEchoHostFail (s : State) : Host.Outcome State Fault Refusal :=
  s.does (actWhen (fun s => s.job.phase != .none && decide (s.echo.mode = 1))
    (actSeq (setF .echoStatus F.echoStatus_HOST_FAIL 1) (raiseFault { code := 0x90 })))

/-- ECHO_TAIL_WRITEBACK: the module writes the next SEQ to the tail address of the host ring (R348). -/
def execEchoTailWriteback (s : State) : Host.Outcome State Fault Refusal :=
  s.does writeTail

end Sys2Proof.Machine
end

