-- ==== Sys2Proof/Machine/Dma.lean ====
section
/-!
DEFINITION. DMA rings and transfers (R288, R290, R340, R344-R347).
-/
namespace Sys2Proof.Machine

/-- Operations that wait for a descriptor of a ring take one where one is posted (R344). -/
def retryDma (g : BitVec 5) : Act :=
  actSeq
    (actGet (fun s => s.tiles) fun ts => actEach ts fun p => actEach p.2.waits fun w =>
      match w with
      | .dma kind d => actOn (ringOf d = g) (actGet (fun s => nextDescriptor s g) fun o => actOpt o fun bs =>
          actSeq (dropWait p.1 w) (startDma p.1 kind d bs))
      | _ => actNop)
    settle

/-- A write of HIF_DMA_TAIL (R344). -/
def writeDmaTail (g : BitVec 5) (v : U32) : Act := actSeq (setReg (.dmaTail g) v) (retryDma g)

/-- A write of HIF_DMA_CFG: a ring that is enabled starts at its first descriptor (R344, notes/assumptions/29.md). -/
def writeDmaCfg (g : BitVec 5) (v : U32) : Act :=
  actGet (fun s => s.flag (.dmaCfg g) F.dmaCfg_EN) fun was => actAll [
    setReg (.dmaCfg g) v,
    actOn (!was) (modHif fun h => { h with ringNext := tset h.ringNext g.toNat 0 }),
    retryDma g]

/-- DMA_TAIL_WRITE: descriptors are posted (R344). -/
def execDmaTailWrite (g : BitVec 5) (v : U32) (s : State) : Host.Outcome State Fault Refusal := s.does (reachReg (.dmaTail g) (writeDmaTail g v))

/-- The words of host memory after HOST_SCATTER_ADD: each is its sum with the region's element, RNE (R346). -/
def scatterSums (old new : List Byte) : List Byte :=
  (List.range (old.length / 4)).flatMap fun i =>
    leBytes 4 (addR (BitVec.ofNat 32 (leAt old (4 * i) 4)) (BitVec.ofNat 32 (leAt new (4 * i) 4))).toNat

/-- A transfer that has ended counts on its handle's counter through the ingress, and its ring's vector is signalled (R340, R344). -/
def transferCounts (x : Transfer) : List Delivery :=
  match x.counter with
  | some c => [countDelivery c]
  | none => []

/-- A transfer's data moves (R288, R290, R344, R346). -/
def landTransfer (x : Transfer) : Act :=
  actGet id fun s =>
    let here := s.bytes (hbm x.addr) x.len
    let there := s.bytes (hostMem x.host) x.len
    match x.kind with
    | 0 => actAll [
        bumpGens x.addr x.len,
        noteWrite x.region,
        ingressOwn ({ entry := { typ := 5, agent := x.ring, aux := x.host, len := x.len, payload := digestNum there },
                      acts := [.payload (hbm x.addr) there] } :: transferCounts x)]
    | 1 => actAll [
        store (hostMem x.host) here,
        actOn (x.prov ≠ 0) (store (hostMem x.prov) (provRecord s x.stream ++ provAnnex s x.stream)),
        ingressOwn (transferCounts x)]
    | _ => actSeq (store (hostMem x.host) (scatterSums there here)) (ingressOwn (transferCounts x))

/-- DMA_COMPLETE: the transfer at place `place` of those in flight is complete (R344). -/
def execDmaComplete (place : Nat) (s : State) : Host.Outcome State Fault Refusal :=
  s.does (actWhen (fun s => s.hif.linkUp) (actGet (fun s => s.hif.transfers[place]?) fun o => actOpt o fun x => actAll [
    modHif fun h => { h with transfers := h.transfers.eraseIdx place },
    landTransfer x,
    actGet (fun s => s.fget (.dmaCfg (BitVec.ofNat 5 x.ring)) F.dmaCfg_VEC) signalVec]))

/-- Replay reads its next entry from host memory: from a source there, or from entries that the host has supplied (R298, R322). -/
def sourceInHost (s : State) : Bool :=
  let x := s.echo
  x.replay && !x.stopped && decide (x.pos < x.srcLen) && (if x.recover
    then x.supply.any fun r => decide (r.2.1 ≤ x.src + x.pos) && decide (x.src + x.pos < r.2.1 + r.2.2)
    else decide (hostMem 0 ≤ x.src) && decide (x.src < spaceBase 2))

/-- DMA_REQUEST_TIMEOUT: a request of the transfer at `place`, or behind the transfers one of replay's source, is not answered within
HIF_CTRL.CTO; it is reissued up to three times (R345, notes/assumptions/6.md). -/
def execDmaRequestTimeout (place : Nat) (s : State) : Host.Outcome State Fault Refusal :=
  s.does (actGet (fun s => s.hif.transfers[place]?) fun o => match o with
    | some x =>
      if x.tries < 3 then modHif fun h => { h with transfers := h.transfers.set place { x with tries := x.tries + 1 } }
      else actSeq (modHif fun h => { h with transfers := h.transfers.eraseIdx place }) (dmaFail x.ring)
    | none => actWhen (fun s => decide (place = s.hif.transfers.length) && sourceInHost s) (actIf (fun s => s.echo.tries < 3)
        (modEcho fun x => { x with tries := x.tries + 1 }) (actSeq (modEcho fun x => { x with tries := 0 }) (dmaFail 0xFF))))

end Sys2Proof.Machine
end

