-- ==== Sys2Proof/Machine/Link.lean ====
section
/-!
DEFINITION. The PCI Express link and function, and the BAR2 window (R187, R251, R316, R331, R332, R350, R389, R410).
-/
namespace Sys2Proof.Machine

/-! ### Link and function events (R350) -/

/-- Commands of every queue that the module has fetched, and requests in the pool, end with ABORTED (R339). -/
def abortAll : Act := actEach (List.range 64) abortFetched

/-- What a job does without its host: it pauses at the next boundary, or freezes where its Echo log or its checkpoints are placed in
the host (R350). -/
def jobLosesHost : Act :=
  actGet id fun s =>
    if s.job.phase = .none ∨ s.job.phase = .loading ∨ s.flt.ended then actNop
    else if s.echo.mode = 1 ∨ s.job.hostCkpt then endByFault 3
    else actSeq (modHif fun h => { h with linkPause := true }) (askPause none none)

/-- Outstanding requests of the module are discarded (R350). -/
def discardRequests : Act := modHif fun h => { h with transfers := [] }

/-- The link goes down (R350). -/
def linkLoss : Act :=
  actAll [
    setF .hifStatus F.hifStatus_LINK_LOST 1,
    setF .hifStatus F.hifStatus_WIDTH 0, setF .hifStatus F.hifStatus_RATE 0,
    discardRequests,
    mcEvent 6 [],
    abortAll,
    modHif fun h => { h with linkUp := false },
    jobLosesHost]

/-- LINK_DOWN: the link goes down, surprise removal included (R350). -/
def execLinkDown (s : State) : Host.Outcome State Fault Refusal := s.does (actWhen (fun s => s.hif.linkUp) linkLoss)

/-- LINK_LOSS_PAUSE_TIMEOUT: the boundary has not been reached within 1 s; the job freezes with JOB_ENDED, its latest good checkpoint
in place (R350). -/
def execLinkLossPauseTimeout (s : State) : Host.Outcome State Fault Refusal :=
  s.does (actWhen (fun s => s.hif.linkPause) (actSeq (modHif fun h => { h with linkPause := false })
    (actWhen (fun s => s.job.phase == .running || s.job.phase == .frozen) (actSeq
      (modJob fun j => { j with pauseAt := none })
      (endByFault 3)))))

/-- Configuration space and BARs at their reset values, queues and rings disabled (R350). -/
def functionReset : Act :=
  actAll [
    modHif fun h => { h with bar2Size := 0x10000000, queues := [], ringNext := [] },
    modPwr fun w => { w with d3hot := false },
    actEach ((List.range 64).map (BitVec.ofNat 6)) fun q => setF (.qCfg q) F.qCfg_EN 0,
    actEach ((List.range 32).map (BitVec.ofNat 5)) fun g => setF (.dmaCfg g) F.dmaCfg_EN 0]

/-- LINK_RETURN: the link trains, for the first time or again, to a width and a rate (R350, R352, R410). -/
def execLinkReturn (width rate : Nat) (s : State) : Host.Outcome State Fault Refusal :=
  s.does (actWhen (fun s => !s.hif.linkUp && s.pins.perstN) (actAll [
    functionReset,
    modHif fun h => { h with linkUp := true },
    setF .hifStatus F.hifStatus_WIDTH width, setF .hifStatus F.hifStatus_RATE rate]))

/-- FLR: pending commands complete with ABORTED, then as link down without LINK_LOST, and the function is reset (R350). -/
def execFlr (s : State) : Host.Outcome State Fault Refusal :=
  s.does (actWhen (fun s => s.hif.linkUp) (actAll [
    actEach ((List.range 64).map (BitVec.ofNat 6)) disablePair,
    discardRequests,
    jobLosesHost,
    functionReset]))

/-- CONFIG_REQUEST: a configuration request `ms` after the deassertion of PERST_N: before 100 ms it is answered with Request Retry
Status, from then on normally (R410).  A request that sets the size of BAR2 to 2^`resize` bytes names it; 0 names none (R331). -/
def execConfigRequest (ms resize : Nat) (s : State) : Host.Outcome State Fault Refusal :=
  s.does (actWhen (fun s => s.hif.linkUp) (actSeq
    (modOut fun o => { o with configRetry := decide (ms < 100) })
    (actOn (decide (100 ≤ ms) && decide (28 ≤ resize) && decide (resize ≤ 41)) (actSeq
      (modHif fun h => { h with bar2Size := 2 ^ resize })
      (actGet (fun s => s.pair .hifBar2BaseLo .hifBar2BaseHi) fun b =>
        setPair .hifBar2BaseLo .hifBar2BaseHi (b / 2 ^ resize * 2 ^ resize % 2 ^ 41))))))

/-! ### BAR2 (R332) -/

/-- Two ranges share a byte. -/
def meets (a n b m : Nat) : Bool := decide (a < b + m) && decide (b < a + n)

/-- BAR2 answers: HBM has come up and is not off (R389, R410, R412). -/
def bar2On (s : State) : Bool := decide (pstate s < 3) && decide (5 ≤ bootPhase s) && !inRecovery s

/-- Bytes of the image of a slot: those that its header names, where schedule load has not ended yet (R251, R252). -/
def slotBytes (s : State) (j : BitVec 2) : Nat :=
  let x := s.slot j.toNat
  if x.loading then (readHeader fun o n => s.bytes (hbm (x.addr + o)) n).imageLen else x.len

/-- The slots that are not EMPTY and whose image bytes a range meets (R251). -/
def slotsMet (s : State) (a n : Nat) : List (BitVec 2) :=
  ((List.range 4).map (BitVec.ofNat 2)).filter fun j => slotState s j.toNat ≠ 0 && meets a n (s.slot j.toNat).addr (slotBytes s j)

/-- The job runs from the slot. -/
def slotInUse (s : State) (j : BitVec 2) : Bool := jobLoaded s && s.job.slot = j.toNat

/-- A slot whose image the host has written is EMPTY; a LOAD_IMAGE that was under way in it ends with ABORTED (R251, notes/assumptions/29.md). -/
def emptySlot (j : BitVec 2) : Act :=
  actGet (fun s => s.slot j.toNat) fun x => actAll [
    setReg (.imgStatus j) 0,
    modSlot j.toNat fun _ => {},
    actWhen (fun s => x.loading && (s.qp x.queue).busy.any fun c => c.opc = 1 && c.cid = x.cid) (finishCmd x.queue 0 6 1)]

/-- Bytes arrive through BAR2 at an HBM address (R187, R251, R290, R332). -/
def bar2Store (a : Nat) (bs : List Byte) : Act :=
  actGet id fun s =>
    let n := bs.length
    let js := slotsMet s a n
    let put := actSeq (store (hbm a) bs) (bumpGens a n)
    if s.flt.rebuild.any fun r => decide (r.1 ≤ a) && decide (a + n ≤ r.1 + r.2) then put
    else if js.any (slotInUse s) then actEach (js.filter (slotInUse s)) fun j => incReg (.imgWrdrop j)
    else if jobLoaded s ∧ s.job.img.regions.any fun r => meets a n r.base r.len && decide (r.kind ≠ 0) && decide (r.kind ≠ 2)
      then incReg .hifBar2Wrdrop
    else actSeq put (actEach js emptySlot)

/-- An access of the BAR2 window: none reaches the module with the link down; one while HBM is off answers under R236 and is logged, with the low
bits of its offset (R236, R332, R389, notes/assumptions/60.md). -/
def inBar2 (off n : Nat) (write : Bool) (k : Nat → Act) : Act :=
  actWhen (fun s => s.hif.linkUp && decide (off + n ≤ s.hif.bar2Size) && decide (0 < n) && decide (pstate s < 4))
    (actIf bar2On (actGet (fun s => s.pair .hifBar2BaseLo .hifBar2BaseHi + off) k) (offAccess (off % 2 ^ 26) write false))

/-- BAR2_WRITE: the bytes of a write at an offset of the window (R332). -/
def execBar2Write (off : Nat) (bytes : List Byte) (s : State) : Host.Outcome State Fault Refusal :=
  s.does (inBar2 off bytes.length true fun a =>
    actIf (fun s => rangeInHbm s a bytes.length) (bar2Store a bytes) (setF .hifErr F.hifErr_HOLE 1))

/-- A read of a word of the BAR2 window: HBM bytes, 0 from a hole (R332).  The table has no row for it; reads of this kind answer so. -/
def bar2Read (off : Nat) : Act :=
  inBar2 off 4 false fun a => actGet (fun s => if rangeInHbm s a 4 then BitVec.ofNat 32 (leAt (s.bytes (hbm a) 4) 0 4) else 0) fun v =>
    modOut fun o => { o with read := v }

/-- A read of a word of BAR4, which completes normally (R330): 0 where no doorbell lies (R10), and of a doorbell, which the manual gives no
reading, a free value.  The table has no row for it. -/
def bar4Read (off : Nat) : Act :=
  actWhen (fun s => s.hif.linkUp && decide (pstate s < 4)) (
    if off < 0x200 ∨ (0x1000 ≤ off ∧ off < 0x1600) then withFree fun w => modOut fun o => { o with read := w.extractLsb' 0 32 }
    else modOut fun o => { o with read := 0 })

end Sys2Proof.Machine
end

