-- ==== Sys2Proof/Machine/SecOps.lean ====
section
/-!
DEFINITION. Attestation evidence and the module's identity (R359, R427, R443, R444).
-/
namespace Sys2Proof.Machine

/-- Evidence can be made: an identity is in use, and both entries verify (R443, R444). -/
def hasIdentity (s : State) : Bool := (identOf s).isSome && !s.flag .secLc F.secLc_IDENT_BAD

/-- Bytes of eight registers that hold a digest or a nonce, byte 4i in [31:24] of register i (R445). -/
def regBytes (s : State) (r : BitVec 3 → Reg) : List Byte := (List.range 8).flatMap fun i => beBytes 4 (s.reg (r (BitVec.ofNat 3 i))).toNat

/-- The device identity: the digest of the identity public key (R443). -/
def deviceId (s : State) : List Byte := ((identOf s).map fun e => digestBytes e.digest).getD (List.replicate 32 0)

/-- Numbers as bits of a mask. -/
def maskOf (xs : List Nat) : Nat := (xs.foldl (fun (n : Nat) x => n ||| 2 ^ x) 0)

/-- Bytes 0 to 1,567 of the evidence (R443). -/
def evidenceBody (s : State) (nonce : List Byte) : List Byte :=
  let t := s.boot.table
  let sec := s.reg .secDbgStatus
  ascii "CKEV" ++ leBytes 2 1 ++ leBytes 1 (s.fget .secLc F.secLc_STATE) ++
    leBytes 1 (F.secDbgStatus_LEVEL.get sec + 8 * F.secDbgStatus_TAINT.get sec + 16 * F.secDbgStatus_MAX.get sec) ++
    leBytes 2 (if s.job.phase = .none ∨ s.job.phase = .loading then 0 else s.job.img.hdr.nsv) ++
    leBytes 2 (s.fget .imgNsv F.imgNsv_MIN) ++ leBytes 2 (s.fget .imgNsv F.imgNsv_MAX) ++
    leBytes 1 (s.fget .secKeyslot F.secKeyslot_RUNNING) ++
    leBytes 1 (s.fget .secKeyslot F.secKeyslot_REVOKED + 16 * s.fget .secLc F.secLc_INDEX + 64 * s.fget .hifPolicy F.hifPolicy_FW) ++
    deviceId s ++ regBytes s .bootFwDigest ++ regBytes s .bootCfgDigest ++ nonce ++ leBytes 16 s.otp.serial.toNat ++
    leBytes 2 t.tiles.length ++ leBytes 1 t.rows.length ++ leBytes 1 (maskOf t.dies) ++ leBytes 4 (maskOf t.badStacks) ++
    leBytes 2 t.remaps.length ++ leBytes 1 (s.fget .glbStatus F.glbStatus_GRADE_EFF) ++ leBytes 1 (s.fget .glbStatus F.glbStatus_DEGRADED) ++
    leBytes 4 (s.reg .bootFwVer).toNat ++ ((ownerOf s).map fun o => digestBytes o.digest).getD (List.replicate 32 0) ++
    List.replicate 48 0 ++ ((identOf s).map (IdentEntry.public s.otp)).getD []

/-- The evidence over a nonce, signed with 256 random bits (R443). -/
def evidence (s : State) (nonce : List Byte) (rnd : BitVec 256) : List Byte :=
  let body := evidenceBody s nonce
  body ++ Config.mldsaSign (((identOf s).map (IdentEntry.seed s.otp)).getD 0) (sha3 body) rnd

/-- A partner's evidence is in order: its format, the identity of its key, and its signature (R361, R443). -/
def evidenceOk (e : List Byte) : Bool :=
  let key := (e.drop 256).take 1312
  decide (e.length = 3988) && decide (e.take 4 = ascii "CKEV") && decide (leAt e 4 2 = 1) &&
    decide ((e.drop 16).take 32 = digestBytes (sha3 key)) && Config.mldsaVerify key (sha3 (e.take 1568)) (e.drop 1568)

end Sys2Proof.Machine
end

