-- ==== Sys2Proof/Machine/Net.lean ====
section
/-!
DEFINITION. The commands of Bexir: ports, LLDP, HELLO, messages, barriers and membership (R354-R373).
-/
namespace Sys2Proof.Machine

/-! ### Ports (R354, R356, R359) -/

/-- The Ethernet side runs: S0 or S1, and CONFIG has ended (R389, R408). -/
def ethOn (s : State) : Bool := decide (pstate s < 2) && decide (3 ≤ bootPhase s) && !inRecovery s && !isDead s

/-- Send an LLDPDU with the Corkor TLV (R359). -/
def sendLldp (p : BitVec 4) : Act :=
  actGet id fun s => modNet fun n => { n with lldp := n.lldp ++ [{
    ident := leAt (deviceId s) 0 16, verMin := s.fget .bxtCfg F.bxtCfg_VER_MIN, verMax := s.fget .bxtCfg F.bxtCfg_VER_MAX,
    nsvMin := s.fget .imgNsv F.imgNsv_MIN, nsvMax := s.fget .imgNsv F.imgNsv_MAX, port := p.toNat, cfg := b2n n.cfg1600,
    addr := ownAddr s, pod := n.podId }] }

/-- A port carries traffic on so many lanes (R356, R378). -/
def portRuns (p : BitVec 4) (lanes : Nat) : Act :=
  let r := Reg.bxtPortStatus p
  actAll [
    setF r F.bxtPortStatus_UP 1, setF r F.bxtPortStatus_LANES lanes,
    setF r F.bxtPortStatus_RATE (match lanes with | 8 => 3 | 4 => 2 | _ => 1)]

/-! ### Retransmission (R356, R367, R372) -/

/-- A frame goes out again, with RETX (R367). -/
def resendFrame (f : Frame) : Act :=
  actGet (fun s => (portFor s f.dst, rosterAddr s f.dst)) fun o => actOpt o.1 fun p => actSeq
    (putFrame p o.2 { f with flags := f.flags ||| 2 }) (incReg (.bxtPortRetx (BitVec.ofNat 4 p)))

/-- The fragments of a channel that a rank has not acknowledged, from the oldest on (R367). -/
def resendChannel (r ch : Nat) : Act :=
  actGet id fun s =>
    actEach (s.net.outgoing.filter fun o => o.channel = ch) fun o => actOpt (tfind o.last r) fun last =>
      let bs := regionBytes s o.region
      let n := fragCount bs.length
      let first := last + 1 - n
      actEach ((List.range n).filter fun i => decide ((s.chan r ch).acked ≤ first + i)) fun i =>
        resendFrame (jobFrame s r (if ch.testBit 15 then 3 else 2) (4 * b2n (i + 1 = n)) ch (first + i) (fragment o.region bs i))

/-- Express messages that a rank has not acknowledged (R372). -/
def resendExpress (r : Nat) : Act := actGet (fun s => s.net.unacked.filter fun f => f.dst = r) fun fs => actEach fs resendFrame

/-- Every unacknowledged frame goes out again on the ports that remain (R356). -/
def resendAll : Act :=
  actGet id fun s => actEach (otherRanks s) fun r => actSeq (resendExpress r)
    (actEach ((s.net.outgoing.map Outgoing.channel).eraseDups) fun ch => resendChannel r ch)

/-- A port goes down, and its peers move (R356). -/
def portLost (p : BitVec 4) : Act :=
  let r := Reg.bxtPortStatus p
  actAll [
    setF r F.bxtPortStatus_UP 0, setF r F.bxtPortStatus_LANES 0, setF r F.bxtPortStatus_RATE 0,
    modNet fun n => { n with ptp := { n.ptp with best := n.ptp.best.filter fun m => m.2.2 ≠ p.toNat } },
    resendAll]

/-- PORT_LINK_UP: training ends; `failed` names lanes that have not come up, and the port runs on all lanes or on a whole half; with no half
whole it goes down.  Its partner is judged anew (R354, R356, R359). -/
def execPortLinkUp (p : BitVec 4) (failed : Nat) (s : State) : Host.Outcome State Fault Refusal :=
  s.does (actWhen (fun s => ethOn s && portInUse s p) (actGet (fun s => if s.net.cfg1600 then 8 else 4) fun n =>
    let bad := failed % 2 ^ n
    let up := fun (lanes : Nat) => actAll [
      modNet fun x => { x with miscabled := x.miscabled.filter (· ≠ p.toNat) },
      portRuns p lanes,
      sendLldp p]
    actSeq (setF (.bxtPortStatus p) F.bxtPortStatus_LANE_FAIL bad)
      (if bad = 0 then up n
        else if bad % 2 ^ (n / 2) = 0 ∨ bad / 2 ^ (n / 2) = 0 then up (n / 2)
        else portLost p)))

/-- PORT_DOWNRATE: a lane fails; the port drops to the half that holds no failed lane, or goes down (R356, R378). -/
def execPortDownrate (p : BitVec 4) (lane : Nat) (s : State) : Host.Outcome State Fault Refusal :=
  s.does (actWhen (fun s => s.flag (.bxtPortStatus p) F.bxtPortStatus_UP) (actGet (fun s => if s.net.cfg1600 then 8 else 4) fun n =>
    actSeq (modReg (.bxtPortStatus p) fun w => if lane < n then setBit w lane else w)
      (actGet (fun s => s.fget (.bxtPortStatus p) F.bxtPortStatus_LANE_FAIL) fun bad =>
        if bad = 0 then actNop
        else if bad % 2 ^ (n / 2) = 0 ∨ bad / 2 ^ (n / 2) = 0 then portRuns p (n / 2)
        else portLost p)))

/-- RETRANSMIT_TIMEOUT: the oldest unacknowledged fragment of a channel, or express message, has waited its interval (R367, R372). -/
def execRetransmitTimeout (rank channel : Nat) (express : Bool) (s : State) : Host.Outcome State Fault Refusal :=
  s.does (actWhen (fun s => s.job.phase != .none) (if express then resendExpress rank else resendChannel rank channel))

/-! ### LLDP (R359) -/

/-- LLDP_TRANSMIT: every second each port in use sends its LLDPDU (R359). -/
def execLldpTransmit (p : BitVec 4) (s : State) : Host.Outcome State Fault Refusal :=
  s.does (actWhen (fun s => s.flag (.bxtPortStatus p) F.bxtPortStatus_UP) (sendLldp p))

/-- The link partner of a port belongs to the pod, or no check applies to it (R359). -/
def rightCable (p : BitVec 4) : Act := modNet fun n => { n with miscabled := n.miscabled.filter (· ≠ p.toNat) }

/-- LLDP: an LLDPDU arrives, with the Corkor TLV or from a switch without one, to which no check applies; `preempt` says that it verifies frame preemption (R355,
R359, R370). -/
def execLldp (p : BitVec 4) (tlv : Option Tlv) (preempt : Bool) (s : State) : Host.Outcome State Fault Refusal :=
  s.does (actWhen (fun s => s.flag (.bxtPortStatus p) F.bxtPortStatus_UP) (actSeq
    (setF (.bxtPortStatus p) F.bxtPortStatus_PREEMPT (b2n preempt))
    (match tlv with
      | none => actSeq (setF (.bxtPortStatus p) F.bxtPortStatus_CORKOR 0) (rightCable p)
      | some x => actAll [
          setF (.bxtPortStatus p) F.bxtPortStatus_CORKOR 1,
          actEach (List.range 4) fun i => setReg (.bxtPartnerId p (BitVec.ofNat 2 i)) (BitVec.ofNat 32 (x.ident / 2 ^ (32 * i))),
          actIf (fun s => decide (x.pod ≠ s.net.podId))
            (actWhen (fun s => !s.net.miscabled.contains p.toNat) (actSeq
              (modNet fun n => { n with miscabled := p.toNat :: n.miscabled }) (memberEvent 0xFFFF 6)))
            (rightCable p)])))

/-! ### HELLO (R360, R361) -/

/-- A module that has answered has not completed HELLO yet, or none has answered (R360). -/
def seeksPeers (s : State) : Bool := s.net.peers.isEmpty || s.net.peers.any fun p => !p.2.hello || p.2.lost || p.2.left

/-- HELLO_TRANSMIT: in hardware mode the module announces itself until HELLO is exchanged with every module that answers; nonce and evidence wait
for the DRBG (R360, R427). -/
def execHelloTransmit (s : State) : Host.Outcome State Fault Refusal :=
  s.does (actWhen (fun s => ethOn s && !hostLink s && hasIdentity s && seeksPeers s) (drbgAsk 512 (.hello none 0)))

/-- A HELLO payload (R361; it names no pod: notes/assumptions/20.md; widths: notes/assumptions/11.md). -/
def helloPayload (s : State) (nonce : Nat) (ev : List Byte) : List Byte :=
  leBytes 1 (s.fget .bxtCfg F.bxtCfg_VER_MIN) ++ leBytes 1 (s.fget .bxtCfg F.bxtCfg_VER_MAX) ++
    leBytes 2 (s.fget .imgNsv F.imgNsv_MIN) ++ leBytes 2 (s.fget .imgNsv F.imgNsv_MAX) ++ leBytes 32 nonce ++ ev

/-- The DRBG has served a HELLO: it leaves, on the port of its partner or on every port (R356, R360, R361). -/
def sendHello (dst : Option Nat) (partner : Nat) (nonce : Nat) (rnd : BitVec 256) : Act :=
  actGet id fun s => actOn (hasIdentity s) (
    let f : Frame := {
      ver := (dst.map fun r => (s.peer r).ver).getD (s.fget .bxtCfg F.bxtCfg_VER_MAX), typ := 1
      src := if s.job.phase = .none then 0xFFFF else s.job.rank, payload := helloPayload s nonce (evidence s (leBytes 32 partner) rnd) }
    match dst with
    | none => actSeq (modNet fun n => { n with helloNonce := nonce })
        (actEach (portsUp s) fun p => putFrame p s.boot.cfg.mcast f)
    | some r => actSeq (modPeer r fun x => { x with sentNonce := nonce }) (sendFrame r f))

/-- Insert by identity. -/
def insertPeer (p : Peer) : List Peer → List Peer
  | [] => [p]
  | q :: qs => if p.ident < q.ident then p :: q :: qs else q :: insertPeer p qs

/-- Hardware mode: the roster holds this module and those that have answered, by identity (R360); peers take their ranks from it. -/
def rebuildRoster : Act :=
  actGet id fun s =>
    let me : Peer := { ident := leAt (deviceId s) 0 16, addr := ownAddr s }
    let all := (s.net.peers.map Prod.snd).foldl (fun acc p => insertPeer p acc) [me]
    actSeq
      (modNet fun n => { n with peers := (all.zipIdx.filter fun p => p.1.addr ≠ me.addr).map fun p => (p.2, p.1) })
      (actEach all.zipIdx fun p => actEach (List.range 4) fun w =>
        setReg (.bxtRoster (BitVec.ofNat 14 (4 * p.2 + w))) (BitVec.ofNat 32 (p.1.addr / 2 ^ (32 * w))))

/-- The rank of the module with this address: its place in the roster; in hardware mode a module that is new takes one (R360). -/
def rankAt (s : State) (a : Nat) : Option Nat :=
  if hostLink s then (List.range 4096).find? fun r => rosterAddr s r = a
  else (s.net.peers.find? fun p => p.2.addr = a).map Prod.fst

/-- A module without a rank may take one: in hardware mode, while no job is loaded (R360, R379). -/
def mayMeet (s : State) (a : Nat) : Bool := !hostLink s && (rankAt s a).isNone && decide (s.job.phase = .none)

/-- In hardware mode a module that answers for the first time, with a version and evidence in order, joins the roster (R360). -/
def meetPeer (a ident : Nat) : Act :=
  actWhen (fun s => mayMeet s a) (actSeq
    (modNet fun n => { n with peers := n.peers ++ [(4096 + n.peers.length, { ident, addr := a })] })
    rebuildRoster)

/-- The exchange with a peer is complete: it returns where it was gone, and a job that is loading asks it to join (R361-R364). -/
def helloDone (r : Nat) (e : RepairEnv) : Act :=
  actGet (fun s => (s.peer r).lost || (s.peer r).left) fun gone => actAll [
    modPeer r fun p => { p with hello := true, lost := false, left := false },
    actOn gone (memberEvent r 5),
    actWhen (fun s => s.job.phase == .loading && s.net.waitJoin) (sendJoin r),
    actOn gone (peersReturn e)]

/-- What an access from outside means for a repair. -/
def Access.repair (a : Access) : RepairEnv := { fixed := a.fixed, linkUp := a.linkUp, lost := a.lost, now := a.now / 10 ^ 6 }

/-- The pair's version out of a HELLO payload, where there is one (R361). -/
def pairVersion (s : State) (payload : List Byte) : Option Nat :=
  let v := min (leAt payload 1 1) (s.fget .bxtCfg F.bxtCfg_VER_MAX)
  if v < max (leAt payload 0 1) (s.fget .bxtCfg F.bxtCfg_VER_MIN) then none else some v

/-- A HELLO that is in order: the module records its partner, answers where the exchange was open or the evidence is not over the nonce that it
sent last, and completes the exchange where it is (R361). -/
def takeHello (f : Frame) (v r : Nat) (e : RepairEnv) : Act :=
  actGet id fun s =>
    let nonce := leAt f.payload 6 32
    let ev := f.payload.drop 38
    let p := s.peer r
    let signed := leAt ev 112 32
    let mine := decide (signed ≠ 0) && (decide (signed = p.sentNonce) || decide (signed = s.net.helloNonce))
    actAll [
      modPeer r fun p => { p with ver := v, lastNonce := nonce, ident := leAt ev 16 16, addr := f.addr },
      actOn (!mine || !p.hello || p.lost || p.left) (actOn (hasIdentity s) (drbgAsk 512 (.hello (some r) nonce))),
      actOn (mine && (!p.hello || p.lost || p.left)) (helloDone r e)]

/-- HELLO: versions are agreed and the evidence is verified, or the partner is refused; `chain` says whether its identity chains to
Corkor's root (R361, R444).  A module that is in no roster and may not enter it is not heard.  A datagram that is dropped wakes nothing (R357). -/
def execHello (f : Frame) (chain : Bool) (a : Access) (s : State) : Host.Outcome State Fault Refusal :=
  s.does (actWhen (fun s => ethOn s && heard s f && decide (f.typ = 1)) (
    if f.crc ≠ f.sum ∨ f.tag ≠ 0 then dropFrame f
    else actSeq (wakeFrom 7 a.now) (actWhen (fun s => (rankAt s f.addr).isSome || mayMeet s f.addr) (
      actGet (fun s => if evidenceOk (f.payload.drop 38) && chain then pairVersion s f.payload else none) fun o => match o with
        | none => actGet (fun s => rankAt s f.addr) fun q => actSeq
            (actOpt q fun r => modPeer r fun p => { p with hello := false }) (memberEvent (q.getD 0xFFFF) 4)
        | some v => actSeq (meetPeer f.addr (leAt f.payload 54 16))
            (actGet (fun s => rankAt s f.addr) fun q => actOpt q fun r => takeHello f v r a.repair)))))

/-! ### Data and barriers (R365-R373) -/

/-- DATA: a fragment or an acknowledgment of a unicast channel (R365, R367). -/
def execData (f : Frame) (s : State) : Host.Outcome State Fault Refusal := s.does (actWhen ethOn (withFrame f 2 (takeData f)))

/-- MCAST: a fragment of a multicast channel (R369). -/
def execMcast (f : Frame) (s : State) : Host.Outcome State Fault Refusal := s.does (actWhen ethOn (withFrame f 3 (takeData f)))

/-- An express message: an acknowledgment ends its retransmission, any other is acknowledged and taken (R372). -/
def withExpress (f : Frame) (typ : Nat) (a : Act) : Act :=
  actWhen ethOn (withFrame f typ (if ackOnly f then dropUnacked f else actSeq (ackExpress f) a))

/-- BARRIER: a member has met the barrier; `now` is PTP time (R372). -/
def execBarrier (f : Frame) (now : U64) (s : State) : Host.Outcome State Fault Refusal :=
  s.does (actSeq (setPair .ptpTimeLo .ptpTimeHi now.toNat)
    (withExpress f 4 (holdBarrier (leAt f.payload 0 4) (leAt f.payload 4 4) f.src)))

/-- RELEASE: the root has set the release time (R372, R373). -/
def execRelease (f : Frame) (now : U64) (s : State) : Host.Outcome State Fault Refusal :=
  s.does (actSeq (setPair .ptpTimeLo .ptpTimeHi now.toNat)
    (withExpress f 5 (takeRelease (leAt f.payload 0 4) (leAt f.payload 4 4) (leAt f.payload 8 8))))

/-- RELEASE_TIME_REACHED: PTP time reaches the release time of a barrier, and its counter advances (R372). -/
def execReleaseTimeReached (bid : Nat) (s : State) : Host.Outcome State Fault Refusal :=
  s.does (actGet (fun s => s.net.barriers.find? fun b => b.desc.id = bid) fun o => actOpt o fun b => actOpt b.releases.head? fun p =>
    actSeq (setPair .ptpTimeLo .ptpTimeHi p.2) (applyRelease bid p.1))

/-! ### Membership (R362-R364) -/

/-- Two modules claim one rank: the sender has this module's rank, or not the address of its own (R362). -/
def rankClash (s : State) (f : Frame) : Bool := decide (f.src = s.job.rank) || decide ((s.peer f.src).addr ≠ f.addr)

/-- A JOIN (R362): it is refused, or the rank has joined. -/
def takeJoin (f : Frame) : Act :=
  actGet id fun s =>
    let nsv := leAt f.payload 8 2
    let h := s.job.img.hdr
    let refuse := fun (c : Nat) => refuseLoad s.job.queue s.job.standing (.code c)
    let joined := actSeq (modPeer f.src fun p => { p with joined := true, nsv, left := false })
      (actOn (!(s.peer f.src).joined) (memberEvent f.src 1))
    if s.job.phase ≠ .loading then joined
    else if rankClash s f then refuse 0x71
    else if nsv ≠ h.nsv ∧ h.cls ≠ 2 then refuse 0x76
    else if leAt f.payload 12 2 ≠ s.job.count ∨ leAt f.payload 14 32 ≠ h.logical then refuse 0x71
    else joined

/-- The job is about to end here too: it saves its context or is to pause, or its program has ended (R363). -/
def orderlyEnd (s : State) : Bool := s.job.phase == .saving || s.job.pauseAt.isSome || allDone s

/-- A LEAVE: while the members choose a checkpoint together, it is that of a member that cannot restore, and the job ends (R323); from a job that
ends here too it is no fault; else the survivors recover (R364; notes/assumptions/44.md). -/
def takeLeave (r : Nat) : Act :=
  actWhen (fun s => !(s.peer r).left) (actIf (fun s => s.net.recovering || orderlyEnd s)
    (actAll [
      modPeer r fun p => { p with left := true, joined := false },
      memberEvent r 2,
      actWhen (fun s => s.net.recovering && !s.flt.ended) (endByFault 4)])
    (memberGone r 2))

/-- What a MEMBER message does (R362-R364). -/
def takeMember (f : Frame) : Act :=
  match leAt f.payload 0 1 with
  | 1 => takeJoin f
  | 2 => takeLeave f.src
  | _ => actNop

/-- A message for the MC waits while it is absent (R327). -/
def forMc (f : Frame) (a : Act) : Act :=
  actIf (fun s => s.flt.mcAbsent) (modNet fun n => { n with mcFrames := n.mcFrames ++ [f] }) a

/-- MEMBER: a JOIN or a LEAVE arrives, and wakes the module (R362-R364, R392). -/
def execMember (f : Frame) (now : U64) (s : State) : Host.Outcome State Fault Refusal :=
  s.does (withExpress f 6 (actSeq (wakeFrom 7 now.toNat) (forMc f (takeMember f))))

/-- JOIN_TIMEOUT: not every rank has joined within 10 s (R362). -/
def execJoinTimeout (s : State) : Host.Outcome State Fault Refusal :=
  s.does (actWhen (fun s => s.job.phase == .loading && s.net.waitJoin && !s.flt.mcAbsent && !allJoined s)
    (actGet id fun s => refuseLoad s.job.queue s.job.standing (.code 0x71)))

/-- Frames to a rank await acknowledgment. -/
def awaitsAck (s : State) (r : Nat) : Bool :=
  s.net.unacked.any (fun f => f.dst = r) || s.net.outgoing.any fun o => match tfind o.last r with
    | some l => decide ((s.chan r o.channel).acked ≤ l)
    | none => false

/-- MEMBER_LOST_TIMEOUT: no frame from a member for 50 ms while frames to it await acknowledgment (R363, R367). -/
def execMemberLostTimeout (rank : Nat) (s : State) : Host.Outcome State Fault Refusal :=
  s.does (actWhen (fun s => s.job.phase != .none && awaitsAck s rank && !(s.peer rank).lost)
    (actIf (fun s => s.flt.mcAbsent) (modNet fun n => { n with mcLost := if n.mcLost.contains rank then n.mcLost else n.mcLost ++ [rank] })
      (memberGone rank 3)))

/-- REJOIN_TIMEOUT: a member has not returned within BXT_REJOIN seconds, and the job ends with RECOVER_NONE (R364). -/
def execRejoinTimeout (rank : Nat) (s : State) : Host.Outcome State Fault Refusal :=
  s.does (actWhen (fun s => !s.flt.mcAbsent && s.flt.cur.any (fun f => f.code = 0 && f.loc = rank) && ((s.peer rank).lost || (s.peer rank).left))
    (endByFault 4))

end Sys2Proof.Machine
end

