-- ==== Sys2Proof/Machine/NetSync.lean ====
section
/-!
DEFINITION. ECHO_SYNC messages, the PTP time base and pulses per second (R134, R323, R364, R371, R374, R375).
-/
namespace Sys2Proof.Machine

/-! ### ECHO_SYNC (R375) -/

/-- Subtype of an ECHO_SYNC message. -/
def syncSub (f : Frame) : Nat := leAt f.payload 0 1

/-- An ECHO_SYNC message of a subtype, from rank 0 where `fromRoot` (R375). -/
def withSync (f : Frame) (sub : Nat) (fromRoot : Bool) (a : Act) : Act :=
  actOn (decide (syncSub f = sub) && (!fromRoot || decide (f.src = 0))) (withExpress f 7 (forMc f a))

/-- Rank 0's seed is logged and written where a FRESH_SEED waits for it; one that comes early waits for the operation (R134, R375). -/
def takeSeed (n : Nat) (v : U128) : Act :=
  actIf (fun s => bitOf (s.reg (.cgsPending 0)) n)
    (ingress [{ entry := { typ := 3, agent := n, len := 16, payload := v.toNat }, acts := [.fresh n v] }])
    (actWhen (fun s => decide (seedEntry s 0 (BitVec.ofNat 4 n) ≠ v) && !s.job.fresh.contains (n, v))
      (modJob fun j => { j with fresh := j.fresh ++ [(n, v)] }))

/-- The seed of a SEED message. -/
def syncSeed (f : Frame) : Act := takeSeed (leAt f.payload 8 1 % 16) (BitVec.ofNat 128 (leAt f.payload 16 16))

/-- ECHO_SYNC_SEED (R134, R375). -/
def execEchoSyncSeed (f : Frame) (s : State) : Host.Outcome State Fault Refusal := s.does (withSync f 1 true (syncSeed f))

/-- This member joins a recovery that another one has begun: it freezes and reports (R323, R375). -/
def joinRecovery (failStep : Nat) : Act :=
  actWhen (fun s => jobLoaded s && !s.net.recovering && !s.flt.ended) (actAll [
    modNet fun n => { n with recovering := true, reports := [], choice := none },
    modFlt fun x => { x with failStep := max failStep (if x.phase6 then x.failStep else 0), phase6 := false, skipGens := [], need := none },
    modJob fun j => { j with phase := .frozen },
    freezeTiles,
    setF .fltStatus F.fltStatus_STATE 5,
    reportCkpt])

/-- ECHO_SYNC_RECOVER: a member has faulted (R323, R375). -/
def execEchoSyncRecover (f : Frame) (s : State) : Host.Outcome State Fault Refusal :=
  s.does (withSync f 2 false (joinRecovery (leAt f.payload 8 8)))

/-- A member's latest good checkpoint reaches rank 0; with every report it chooses (R323, R375). -/
def takeReport (f : Frame) : Act :=
  actWhen (fun s => s.job.rank = 0 && s.net.recovering && s.net.choice.isNone) (actSeq
    (modNet fun n => { n with reports := tset n.reports f.src (leAt f.payload 8 8, leAt f.payload 16 4) })
    chooseStep)

/-- CKPT_REPORT (R323, R375). -/
def execCkptReport (f : Frame) (s : State) : Host.Outcome State Fault Refusal := s.does (withSync f 3 false (takeReport f))

/-- Replay starts from the chosen step (R320, R375). -/
def resumeJoint : Act :=
  actGet (fun s => if s.net.recovering then s.net.choice else none) fun o => actOpt o fun step => actSeq
    (modNet fun n => { n with recovering := false, choice := none, reports := [] })
    (actGet (fun s => copyAtStep s step) fun c => match c with
      | some c => takeCopy c
      | none => endEverywhere 4)

/-- Every member has restored, rank 0 itself included: rank 0 sends RESUME and starts its own replay (R375). -/
def tryResume : Act :=
  actWhen (fun s => s.job.rank = 0 && !s.flt.mcAbsent && s.net.recovering && s.net.choice.any (choiceReady s) &&
      !s.net.unacked.any fun g => g.typ = 7 && leAt g.payload 0 1 = 4) (actSeq
    (actGet (fun s => (otherRanks s, s.flt.failStep)) fun p => actEach p.1 fun r => sendSync r 5 (leBytes 8 p.2))
    resumeJoint)

/-- CKPT_CHOICE: the step to restore.  The message is acknowledged once the copy is in place and its entries can be read, and sent again until
then; with the last acknowledgment, rank 0 sends RESUME (R323, R375, notes/assumptions/44.md). -/
def execCkptChoice (f : Frame) (s : State) : Host.Outcome State Fault Refusal :=
  s.does (actWhen ethOn (
    if ackOnly f then actSeq (withFrame f 7 (dropUnacked f)) tryResume
    else actOn (decide (syncSub f = 4) && decide (f.src = 0)) (withFrame f 7 (actSeq
      (actWhen (fun s => !s.flt.mcAbsent && s.net.recovering && s.net.choice.isNone) (restoreChosen (leAt f.payload 8 8)))
      (actWhen (fun s => !s.net.recovering || s.net.choice.any (choiceReady s)) (ackExpress f))))))

/-- ECHO_SYNC_RESUME: every member has restored, and replay starts (R375). -/
def execEchoSyncResume (f : Frame) (s : State) : Host.Outcome State Fault Refusal := s.does (withSync f 5 true resumeJoint)

/-! ### The MC returns (R327) -/

/-- A message that has waited for the MC takes effect. -/
def caughtUp (f : Frame) : Act :=
  if f.typ = 6 then takeMember f
  else match syncSub f with
    | 1 => syncSeed f
    | 2 => joinRecovery (leAt f.payload 8 8)
    | 3 => takeReport f
    | 5 => resumeJoint
    | _ => actNop

/-- Messages and losses of members that have waited for the MC take effect, in order (R327). -/
def memberCatchUp : Act :=
  actGet (fun s => (s.net.mcFrames, s.net.mcLost)) fun w => actAll [
    modNet fun n => { n with mcFrames := [], mcLost := [] },
    actEach w.1 caughtUp,
    actEach w.2 fun r => actWhen (fun s => jobLoaded s && !(s.peer r).lost) (memberGone r 3),
    tryResume]

/-! ### PTP and PPS (R371, R374, R380; notes/assumptions/66.md) -/

/-- A 16-bit signed number, saturating. -/
def sat16 (v : Int) : Nat := (BitVec.ofInt 16 (max (-32768) (min 32767 v))).toNat

def modPtp (f : Ptp → Ptp) : Act := modNet fun n => { n with ptp := f n.ptp }

/-- A PTP message leaves on a port, in the express class (R370, R371). -/
def sendPtp (port : Nat) (b : PtpBody) : Act :=
  actGet id fun s => modPtp fun x => { x with sent := x.sent ++ [{
    port, via := { domain := s.boot.cfg.ptpDomain, udp := s.boot.cfg.ptpUdp, tagged := classTag s true }, body := b }] }

/-- The offset from the master at a time: LOCK rises once it has stayed within 2 ns for 1 s, and falls where it exceeds 10 ns (R371, R380). -/
def takeOffset (off : Int) (now : Nat) : Act :=
  actGet (fun s => if off.natAbs ≤ 2 then some (s.net.ptp.since.getD now) else none) fun since => actAll [
    setF .ptpStatus F.ptpStatus_OFFSET (sat16 off),
    modPtp fun x => { x with since },
    (if off.natAbs > 10 then setF .ptpStatus F.ptpStatus_LOCK 0
      else actOn (since.any fun t => decide (t + 10 ^ 9 ≤ now)) (setF .ptpStatus F.ptpStatus_LOCK 1))]

/-- Master `a` is better than `b`: the lower data set, then the fewer steps (R371). -/
def betterMaster (a b : Nat × Nat) : Bool := decide (a.1 < b.1) || (decide (a.1 = b.1) && decide (a.2 < b.2))

/-- This module is grandmaster: PPS_IN is its time source, and no master that it has heard of is better (R371). -/
def isMaster (s : State) : Bool :=
  s.net.ppsSource && s.net.ptp.best.all fun m => betterMaster (Config.ptpDataset s.otp.serial, 0) (m.1, m.2.1)

/-- PTP_STATUS.GM follows the best master clock algorithm. -/
def showMaster : Act := actGet isMaster fun b => setF .ptpStatus F.ptpStatus_GM (b2n b)

/-- A Sync that left at `t1` has arrived at `t2`: the offset is what remains beside the path delay, and the delay is measured anew (R371). -/
def takeSync (port : Nat) (t1 t2 now : Nat) : Act :=
  actGet (fun s => (s.net.ptp.delay, s.boot.cfg.ptpP2p)) fun p => actAll [
    modPtp fun x => { x with syncRx := none, last := some ((t1 : Int), (t2 : Int)), reqTx := some now },
    takeOffset ((t2 : Int) - t1 - p.1) now,
    sendPtp port (if p.2 then .pdelayReq else .delayReq)]

/-- What a PTP message does; those of a master count where it is the best one (R371). -/
def takePtp (m : PtpMsg) (now : Nat) : Act :=
  actGet id fun s =>
    let x := s.net.ptp
    let master := !isMaster s && x.best.any fun b => b.2.2 = m.port
    match m.body with
    | .announce data steps =>
      actSeq (actOn (x.best.all fun b => b.2.2 = m.port || betterMaster (data, steps) (b.1, b.2.1))
        (modPtp fun y => { y with best := some (data, steps, m.port) })) showMaster
    | .sync (some t1) => actOn master (takeSync m.port t1 now now)
    | .sync none => actOn master (modPtp fun y => { y with syncRx := some now })
    | .followUp t1 => actOn master (actOpt x.syncRx fun t2 => takeSync m.port t1 t2 now)
    | .delayReq => actOn (isMaster s) (sendPtp m.port (.delayResp now))
    | .delayResp t4 => actOn (master && !s.boot.cfg.ptpP2p) (actOpt x.reqTx fun t3 => actOpt x.last fun l =>
        modPtp fun y => { y with reqTx := none, delay := (l.2 - l.1 + ((t4 : Int) - t3)) / 2 })
    | .pdelayReq => actOn s.boot.cfg.ptpP2p (actSeq (sendPtp m.port (.pdelayResp now)) (sendPtp m.port (.pdelayFollowUp now)))
    | .pdelayResp t2 => actOn s.boot.cfg.ptpP2p (modPtp fun y => { y with peerRx := some (t2, now) })
    | .pdelayFollowUp t3 => actOn s.boot.cfg.ptpP2p (actOpt x.reqTx fun t1 => actOpt x.peerRx fun r =>
        modPtp fun y => { y with reqTx := none, peerRx := none, delay := ((r.2 : Int) - t1 - ((t3 : Int) - r.1)) / 2 })

/-- PTP_MESSAGE: a message of the domain and transport of the configuration is timestamped at its port, and takes effect (R371). -/
def execPtpMessage (port : Nat) (via : PtpVia) (body : PtpBody) (now : U64) (s : State) : Host.Outcome State Fault Refusal :=
  s.does (actWhen (fun s => ethOn s && (portsUp s).contains port && decide (via.domain = s.boot.cfg.ptpDomain) && (via.udp == s.boot.cfg.ptpUdp))
    (actSeq (setPair .ptpTimeLo .ptpTimeHi now.toNat) (takePtp { port, via, body } now.toNat)))

/-- PPS_IN_EDGE: the edge is timestamped; in S2 and deeper PPS_IN is ignored (R374, R455). -/
def execPpsInEdge (now : U64) (s : State) : Host.Outcome State Fault Refusal :=
  s.does (actWhen (fun s => decide (pstate s < 2)) (setPair .ptpPpsInLo .ptpPpsInHi now.toNat))

/-- A grandmaster announces itself and its time on every port, once a second (R371). -/
def masterBeat (now : Nat) : Act :=
  actWhen isMaster (actAll [
    takeOffset 0 now,
    actGet id fun s => actEach (portsUp s) fun p => actAll [
      sendPtp p (.announce (Config.ptpDataset s.otp.serial) 0), sendPtp p (.sync none), sendPtp p (.followUp now)]])

/-- PPS_OUT_EDGE: PTP time reaches a whole second, and PPS_OUT rises; in S2 and deeper it stays low (R374, R455). -/
def execPpsOutEdge (sec : Nat) (s : State) : Host.Outcome State Fault Refusal :=
  s.does (actWhen (fun s => decide (pstate s < 2)) (actAll [
    setPair .ptpTimeLo .ptpTimeHi (sec * 10 ^ 9),
    modNet fun n => { n with ppsOut := n.ppsOut + 1 },
    actWhen ethOn (actSeq showMaster (masterBeat (sec * 10 ^ 9)))]))

end Sys2Proof.Machine
end

