-- ==== Sys2Proof/Machine/Mailbox.lean ====
section
/-!
DEFINITION. The management controller's mailbox: its commands, its events, and the MC's restart (R316, R322, R327, R348, R349, R412,
R413, R423).
-/
namespace Sys2Proof.Machine

/-! ### Operands (R348, notes/assumptions/30.md) -/

/-- The bytes of HIF_MBX_DATA. -/
def mbxBytes (s : State) : List Byte := (List.range 64).flatMap fun i => leBytes 4 (s.reg (.mbxData (BitVec.ofNat 6 i))).toNat

/-- Operand `i`: consecutive u64 values, little-endian; data follow the operands. -/
def mbxArg (s : State) (i : Nat) : Nat := leAt (mbxBytes s) (8 * i) 8

/-! ### The commands -/

/-- 0x01: the host ring for Echo keeping (R348). -/
def mbxEchoRing : Act :=
  actGet id fun s =>
    let base := mbxArg s 0
    let n := mbxArg s 1
    if base % 4096 = 0 ∧ (List.range 17).any (fun i => n = 2 ^ (10 + i))
    then actSeq (modEcho fun x => { x with hostBase := base, hostLen := n, hostTail := mbxArg s 2 }) (mbxDone 0)
    else mbxDone 1

/-- 0x02: the host buffers for checkpoint copies (R348). -/
def mbxCkptHost : Act :=
  actGet id fun s => actSeq (modHif fun h => { h with ckptHost := some (mbxArg s 0, mbxArg s 1, mbxArg s 2) }) (mbxDone 0)

/-- 0x03: a firmware chunk, in RECOVERY only (R412, R413). -/
def mbxFwPush : Act :=
  actGet id fun s =>
    let off := mbxArg s 0
    let n := mbxArg s 1
    if inRecovery s ∧ n ≤ 224 ∧ off + n ≤ 0x401000
    then actSeq (store (staging off) (((mbxBytes s).drop 16).take n)) (mbxDone 0)
    else mbxDone 1

/-- 0x04: the staged image is verified; it goes to the flash, or runs from SRAM (R412, R413). -/
def mbxFwCommit : Act :=
  actGet id fun s =>
    let e := firmwareErr (fun o n => s.bytes (staging o) n) s.otp.keys (s.fget .secKeyslot F.secKeyslot_REVOKED) (some (mbxArg s 0)) false
    if !inRecovery s then mbxDone 1
    else actSeq (setF .bootStatus F.bootStatus_FW_ERR e) (
      if e ≠ 0 then actSeq (wipe (spaceBase 2) (spaceBase 3)) (mbxDone 0)
      else if s.flag .bootCtrl F.bootCtrl_FW_WRITE then modBoot fun b => { b with commit := some (mbxArg s 0) }
      else actAll [
        mbxDone 0,
        runFirmware (s.bytes (staging 0) 4096),
        setF .hifPolicy F.hifPolicy_FW 1,
        setF .glbStatus F.glbStatus_RECOVERY 0,
        setF .bootStatus F.bootStatus_PHASE 2])

/-- A rewritten 2 MiB chunk agrees with its digest from job load (R289, R316). -/
def chunkOk (s : State) (a : Nat) : Bool :=
  s.job.chunks.all fun c => !(decide (c.1 ≤ a) && decide (a < c.1 + c.2.1)) || decide (sha3 (s.bytes (hbm c.1) c.2.1) = c.2.2)

/-- 0x05: the host has rewritten a range; with every chunk right, recovery goes on (R316). -/
def mbxRebuildDone : Act :=
  actGet id fun s =>
    let a := mbxArg s 0
    let n := mbxArg s 1
    let mine := fun (r : Nat × Nat) => decide (a ≤ r.1) && decide (r.1 + r.2 ≤ a + n)
    actAll [
      modFlt fun f => { f with rebuild := f.rebuild.filter fun r => !(mine r && chunkOk s r.1) },
      actEach (s.flt.rebuild.filter fun r => mine r && !chunkOk s r.1) fun r => mcEvent 1 [r.1, r.1 / 2 ^ 32, r.2, r.2 / 2 ^ 32],
      mbxDone 0,
      actWhen (fun t => !s.flt.rebuild.isEmpty && t.flt.rebuild.isEmpty) recPhase4]

/-- Each supplied entry continues the SEQ series (R322). -/
def supplyOk (s : State) (a first n : Nat) : Bool :=
  (List.range n).all fun i => leAt (s.bytes (hostMem (a + 64 * i)) 8) 0 8 = first + i

/-- A waiting copy whose entries can all be read now is restored: at once, or where the members choose together once they all can (R322, R323). -/
def supplied (gen mirror seq : Nat) : Act :=
  actWhen (fun s => entriesHeld s seq) (actSeq (modFlt fun f => { f with need := none })
    (actIf (fun s => s.net.recovering) (actSeq (setF .fltStatus F.fltStatus_STATE 6) tryResume)
      (actGet (fun s => (goodCopies s).find? fun c => c.gen = gen && c.mirror = mirror) fun o => actOpt o takeCopy)))

/-- 0x06: entries for replay: each has to continue the SEQ series; with all of them the waiting copy is restored, and until then the module
waits (R322). -/
def mbxEchoSupply : Act :=
  actGet id fun s =>
    let a := mbxArg s 0
    let first := mbxArg s 1
    let n := mbxArg s 2
    actIf (fun s => supplyOk s a first n)
      (actSeq (mbxDone 0) (actOpt s.flt.need fun w => actSeq
        (modEcho fun x => { x with supply := (a, first, n) :: x.supply })
        (supplied w.1 w.2.1 w.2.2)))
      (mbxDone 1)

/-- 0x07: additional input for the DRBG (R423), where HIF_POLICY.DRBG allows it, as sampled by a loaded job (R351): it reseeds at once, or when a conditioned output is there. -/
def mbxDrbgInput : Act :=
  actGet id fun s =>
    let n := mbxArg s 0
    if n = 0 ∨ 64 < n then mbxDone 1
    else if !(if jobLoaded s then s.job.hostDrbg else s.flag .hifPolicy F.hifPolicy_DRBG) then actSeq (incF .entHostInput F.entHostInput_IGNORED) (mbxDone 0)
    else if s.ent.alarm then mbxDone 0x81
    else actSeq (modEnt fun e => { e with hostInput := some (((mbxBytes s).drop 8).take n) }) poolGrew

/-- The MC runs a command; in RECOVERY it accepts FW_PUSH and FW_COMMIT only (R348, R412). -/
def mbxRun (cmd : Nat) : Act :=
  actGet inRecovery fun rec =>
    if rec && decide (cmd ≠ 3) && decide (cmd ≠ 4) then mbxDone 1
    else match cmd with
      | 1 => mbxEchoRing
      | 2 => mbxCkptHost
      | 3 => mbxFwPush
      | 4 => mbxFwCommit
      | 5 => mbxRebuildDone
      | 6 => mbxEchoSupply
      | 7 => mbxDrbgInput
      | _ => mbxDone 1

/-- HIF_MBX_CMD is written with GO (R348): dropped while BUSY; while the MC is absent the command waits (R327). -/
def mailbox (cmd len : Nat) : Act :=
  actIf (fun s => s.flag .mbxStatus F.mbxStatus_BUSY) (setF .mbxStatus F.mbxStatus_OVERRUN 1) (actAll [
    setF .mbxCmd F.mbxCmd_CMD cmd, setF .mbxCmd F.mbxCmd_LEN len,
    setF .mbxStatus F.mbxStatus_BUSY 1,
    actIf (fun s => s.flt.mcAbsent) (modHif fun h => { h with mbxPending := some cmd }) (mbxRun cmd)])

/-- ECHO_RING (R348). -/
def execEchoRing (len : Nat) (s : State) : Host.Outcome State Fault Refusal := s.does (reachReg .mbxCmd (mailbox 1 len))
/-- CKPT_HOST (R348). -/
def execCkptHost (len : Nat) (s : State) : Host.Outcome State Fault Refusal := s.does (reachReg .mbxCmd (mailbox 2 len))
/-- FW_PUSH (R413). -/
def execFwPush (len : Nat) (s : State) : Host.Outcome State Fault Refusal := s.does (reachReg .mbxCmd (mailbox 3 len))
/-- FW_COMMIT (R413). -/
def execFwCommit (len : Nat) (s : State) : Host.Outcome State Fault Refusal := s.does (reachReg .mbxCmd (mailbox 4 len))

/-- FLASH_PROGRAM_COMPLETE: the firmware region has been programmed and read back (R413): right, and the sequence restarts; or wrong,
and RECOVERY goes on. -/
def execFlashProgramComplete (ok : Bool) (s : State) : Host.Outcome State Fault Refusal :=
  s.does (actGet (fun s => s.boot.commit) fun o => actOpt o fun n => actSeq
    (modBoot fun b => { b with commit := none, restartDue := ok })
    (actGet (fun s => (flashRegion s 2).1) fun a =>
      if ok then actSeq (actGet (fun s => s.bytes (staging 0) n) fun bs => store (flash a) bs) (mbxDone 0)
      else actAll [
        store (flash a) (List.replicate 4096 0xFF),
        setF .bootStatus F.bootStatus_FW_ERR 6,
        mbxDone 0]))

/-- FW_RESTART: the sequence restarts at PHASE 0x1 without retraining the link (R413). -/
def execFwRestart (s : State) : Host.Outcome State Fault Refusal :=
  s.does (actWhen (fun s => s.boot.restartDue) (actAll [
    modBoot fun b => { b with restartDue := false, started := true },
    setF .hifPolicy F.hifPolicy_FW 0,
    setF .glbStatus F.glbStatus_RECOVERY 0,
    setF .bootStatus F.bootStatus_PHASE 1]))

/-- REBUILD_DONE (R316, R348). -/
def execRebuildDone (len : Nat) (s : State) : Host.Outcome State Fault Refusal := s.does (reachReg .mbxCmd (mailbox 5 len))
/-- ECHO_SUPPLY (R322, R348). -/
def execEchoSupply (len : Nat) (s : State) : Host.Outcome State Fault Refusal := s.does (reachReg .mbxCmd (mailbox 6 len))
/-- DRBG_INPUT (R348, R423). -/
def execDrbgInput (len : Nat) (s : State) : Host.Outcome State Fault Refusal := s.does (reachReg .mbxCmd (mailbox 7 len))
/-- UNKNOWN_COMMAND: any other code (R348). -/
def execUnknownCommand (cmd : Nat) (s : State) : Host.Outcome State Fault Refusal := s.does (reachReg .mbxCmd (mailbox cmd 0))

/-! ### Events (R349) -/

/-- The oldest event goes to the window; with none, the window reads 0 (notes/assumptions/30.md). -/
def popEvent : Act :=
  actGet (fun s => s.hif.events) fun es =>
    let ws := match es with
      | [] => []
      | e :: _ => e.typ :: e.words
    actAll [
      actEach (List.range 8) fun i => setReg (.mbxEvt (BitVec.ofNat 3 i)) (BitVec.ofNat 32 (ws.getD i 0)),
      modHif fun h => { h with events := h.events.drop 1 },
      setF .mbxStatus F.mbxStatus_EVT (b2n (1 < es.length))]

/-- MBX_EVT_POP: a read of HIF_MBX_EVT0 (R349). -/
def execMbxEvtPop (s : State) : Host.Outcome State Fault Refusal :=
  s.does (reach (Reg.mbxEvt 0).addr false (actSeq popEvent (actGet (fun s => s.reg (.mbxEvt 0)) fun v => modOut fun o => { o with read := v })))

/-! ### The MC returns (R327) -/

/-- Recovery starts again at phase 2 with the faults that it has met; what is repaired stays so (R324, notes/assumptions/58.md). -/
def recRestart : Act :=
  actGet (fun s => s.flt.mended ++ (s.flt.cur.map fun f => { f with again := false }) ++ s.flt.pending) fun fs => actSeq
    (modFlt fun f => { f with pending := fs.eraseDups, cur := [], need := none })
    (actWhen (fun s => s.flt.phase6) (actAll [
      modFlt fun f => { f with phase6 := false },
      modJob fun j => { j with phase := .frozen },
      freezeTiles,
      setF .fltStatus F.fltStatus_STATE 1]))

/-- The MC's SRAM copy of the firmware has failed its digest: the image in the flash is verified and runs, or the module is in RECOVERY with its
job gone (R327, R403). -/
def restartFromFlash : Act :=
  actGet id fun s =>
    let a := (flashRegion s 2).1
    let e := firmwareErr (fun o n => s.bytes (flash (a + o)) n) s.otp.keys (s.fget .secKeyslot F.secKeyslot_REVOKED) none false
    actSeq (setF .bootStatus F.bootStatus_FW_ERR e)
      (if e = 0 then actAll [runFirmware (s.bytes (flash a) 4096), setF .hifPolicy F.hifPolicy_FW 0, modFlt fun f => { f with copyBad := false }]
        else actSeq (actWhen jobLoaded clearJob) enterRecovery)

/-- MC_RESTART: the MC runs again, from its SRAM's copy of the firmware where that passes its digest, else from the flash, and takes up what has
waited: faults, a recovery, FRESH_SEEDs, membership and mailbox commands (R324, R327). -/
def execMcRestart (s : State) : Host.Outcome State Fault Refusal :=
  s.does (actWhen (fun s => s.flt.mcAbsent && !s.flag .fltMc F.fltMc_STOPPED) (actAll [
    actWhen (fun s => s.flt.copyBad) restartFromFlash,
    modFlt fun f => { f with mcAbsent := false },
    recRestart,
    actGet (fun s => s.flt.notes) fun fs => actSeq (modFlt fun f => { f with notes := [] }) (actEach fs idleFault),
    passRequests,
    memberCatchUp,
    actGet (fun s => s.hif.mbxPending) fun o => actSeq (modHif fun h => { h with mbxPending := none }) (actOpt o mbxRun)]))

end Sys2Proof.Machine
end

