-- ==== Sys2Proof/Machine/Entropy.lean ====
section
/-!
DEFINITION. The commands of the entropy source and the DRBG (R417-R427).
-/
namespace Sys2Proof.Machine

/-- The noise sources run: ENT is powered and not in alarm (R425, R426). -/
def entOn (s : State) : Bool :=
  decide (pstate s < 3) && !s.ent.alarm && decide (s.fget .entStatus F.entStatus_STATE ≠ 0) && decide (s.fget .entStatus F.entStatus_STATE ≠ 4)

/-- The causes of an alarm that raw bits of a source give (R418, R428). -/
def healthCauses (s : State) (src : Nat) (bits : List Bool) : List Fld :=
  let x := tget s.ent.src {} src
  let causes := (if (rctRun src x bits).2 then [rctFld src] else []) ++ (if aptFails src bits then [aptFld src] else [])
  if causes.isEmpty then [] else if x.passed then causes else causes ++ [F.entAlarm_STARTUP]

/-- HEALTH_TEST_FAIL: among the raw bits of a source since its last full buffer, a test reaches its cutoff (R418, R426). -/
def execHealthTestFail (src : Nat) (bits : List Bool) (s : State) : Host.Outcome State Fault Refusal :=
  s.does (actWhen (fun s => entOn s && decide (src < 3)) (actGet (fun s => healthCauses s src bits) fun cs => actOn (!cs.isEmpty) (entAlarm cs)))

/-- CONDITIONED_OUTPUT: a source has delivered 1,024 raw bits.  The first ones pass or fail the start-up test and are discarded; later
ones fill the buffer, which the conditioner takes in its rotation (R418, R419, R425). -/
def execConditionedOutput (src : Nat) (bits : BitVec 1024) (s : State) : Host.Outcome State Fault Refusal :=
  s.does (actWhen (fun s => entOn s && decide (src < 3)) (actGet (fun s => (healthCauses s src (bufBits bits), tget s.ent.src {} src)) fun p =>
    let x := (rctRun src p.2 (bufBits bits)).1
    if !p.1.isEmpty then entAlarm p.1
    else if !x.passed then modEnt fun e => { e with src := tset e.src src { x with passed := true } }
    else actSeq (modEnt fun e => conditionLoop 6 { e with src := tset e.src src { x with full := x.full.orElse fun _ => some bits } }) poolGrew))

/-- KAT_COMPLETE: the known-answer tests end: those of start-up once every source has passed, or a commanded run, after which the DRBG
is instantiated anew; a failure raises the alarm (R424, R425). -/
def execKatComplete (condOk drbgOk : Bool) (s : State) : Host.Outcome State Fault Refusal :=
  s.does (actWhen (fun s => entOn s && (decide (s.fget .entStatus F.entStatus_STATE = 2) ||
      (decide (s.fget .entStatus F.entStatus_STATE = 1) && !s.ent.katPassed && (List.range 3).all fun i => (tget s.ent.src {} i).passed)))
    (if condOk && drbgOk then actAll [
        modEnt fun e => { e with katPassed := true },
        setF .entStatus F.entStatus_SEEDED 0,
        tryInstantiate]
      else entAlarm ((if condOk then [] else [F.entAlarm_KAT_COND]) ++ (if drbgOk then [] else [F.entAlarm_KAT_DRBG]))))

/-- A write of ENT_CTRL.KAT (R424): dropped outside RUN. -/
def askKat : Act :=
  actWhen (fun s => decide (s.fget .entStatus F.entStatus_STATE = 3)) (actSeq
    (modEnt fun e => { e with katPassed := false }) (setF .entStatus F.entStatus_STATE 2))

/-- KAT (R424). -/
def execKat (s : State) : Host.Outcome State Fault Refusal := s.does (reachReg .entCtrl askKat)

/-- A write of ENT_CTRL.RESEED (R422, R424): dropped outside RUN. -/
def askReseed : Act :=
  actWhen (fun s => decide (s.fget .entStatus F.entStatus_STATE = 3)) (modEnt fun e => { e with reseedDue := true })

/-- RESEED (R422). -/
def execReseed (s : State) : Host.Outcome State Fault Refusal := s.does (reachReg .entCtrl askReseed)

/-- Output blocks as the bytes of a value, first byte lowest (notes/assumptions/11.md). -/
def drbgValue (bs : List U128) : Nat := ofLe (bs.flatMap fun b => beBytes 16 b.toNat)

/-- What a consumer does with its output (R133, R361, R443). -/
def serveUse (use : DrbgUse) (bs : List U128) : Act :=
  match use with
  | .fresh n => modJob fun j => { j with fresh := j.fresh ++ [(n, BitVec.ofNat 128 (drbgValue bs))] }
  | .hello dst partner => sendHello dst partner (drbgValue (bs.take 2)) (bs.getD 2 0 ++ bs.getD 3 0)
  | .attest => modSec fun x => { x with attRnd := some (bs.getD 0 0 ++ bs.getD 1 0) }

/-- DRBG_GENERATE: the oldest waiting request is served (R421, R422). -/
def execDrbgGenerate (s : State) : Host.Outcome State Fault Refusal :=
  s.does (actGet (fun s => s.ent.waiting.head?) fun o => actOpt o fun r =>
    drbgGen (ceilDiv r.bits 128) (fun bs => actAll [
      modEnt fun e => { e with waiting := e.waiting.drop 1 },
      passRequests,
      serveUse r.use bs]) actNop)

end Sys2Proof.Machine
end

