-- ==== Sys2Proof/Machine/Secure.lean ====
section
/-!
DEFINITION. The commands of lifecycle, tokens, debug, key slots and attestation (R429-R445).
-/
namespace Sys2Proof.Machine

/-! ### Tokens (R434, R435) -/

/-- Lifecycle state (R429). -/
def lcState (s : State) : Nat := s.fget .secLc F.secLc_STATE

/-- The bytes of SEC_TOKEN_BUF. -/
def tokenBytes (s : State) (n : Nat) : List Byte :=
  ((List.range ((n + 3) / 4)).flatMap fun i => leBytes 4 (s.reg (.secTokenBuf (BitVec.ofNat 10 i))).toNat).take n

/-- The challenge as it reads (R435). -/
def challengeNow (s : State) : List Byte := if s.ent.alarm then List.replicate 32 0 else regBytes s .secChallenge

/-- MAGIC and the field rules of a token's head (R434). -/
def tokenFormat (h : List Byte) : Bool :=
  let typ := leAt h 4 1
  let arg := leAt h 6 1
  decide (h.take 4 = ascii "CKTK") && decide (1 ≤ typ) && decide (typ ≤ 6) && decide (leAt h 5 1 ≤ 1) &&
    (if typ = 1 then decide (2 ≤ arg) && decide (arg ≤ 4) else if typ = 6 then decide (arg ≤ 3) else decide (arg = 0)) &&
    decide (leAt h 7 1 = 0) && decide (leAt h 56 4 = if typ = 2 then 1312 else 0) && decide (leAt h 60 4 = 0)

/-- The result of a token's checks, in their order (R435, R445); the length of what its signature covers is that of head and payload. -/
def tokenResult (s : State) : Nat :=
  let h := tokenBytes s 64
  let n := 64 + leAt h 56 4
  let bs := tokenBytes s (n + 2420)
  if !tokenFormat h then 1
  else if leAt h 8 16 ≠ s.otp.serial.toNat then 2
  else if (challengeNow s).all (· = 0) ∨ (h.drop 24).take 32 ≠ challengeNow s then 3
  else if leAt h 5 1 = 1 ∧ (ownerOf s).isNone then 5
  else
    let key := if leAt h 5 1 = 1 then ((ownerOf s).map OwnerEntry.key).getD [] else s.otp.corkorKey
    if Config.mldsaVerify key (sha3 (bs.take n)) (bs.drop n) then 0 else 4

/-- A write of SEC_TOKEN_CTRL.GO: a token that passes replaces the one its signer had (R435). -/
def tokenGo : Act :=
  actGet (fun s => (tokenResult s, tokenBytes s (64 + 1312))) fun p => actSeq
    (setF .secTokenStatus F.secTokenStatus_RESULT p.1)
    (actOn (decide (p.1 = 0)) (
      let t : Token := { typ := leAt p.2 4 1, signer := leAt p.2 5 1, arg := leAt p.2 6 1, payload := (p.2.drop 64).take (leAt p.2 56 4) }
      actAll [
        modSec fun x => if t.signer = 1 then { x with ownerTok := some t } else { x with corkorTok := some t },
        actGet (fun s => s.sec) fun x => setF .secTokenStatus F.secTokenStatus_ACCEPTED (b2n x.corkorTok.isSome + 2 * b2n x.ownerTok.isSome)]))

/-- TOKEN_VERIFY (R435). -/
def execTokenVerify (s : State) : Host.Outcome State Fault Refusal := s.does (reachReg .secTokenCtrl tokenGo)

/-- NEW_CHALLENGE: SEC_TOKEN_CTRL.NEW draws a new challenge, and accepted tokens are discarded (R435). -/
def execNewChallenge (s : State) : Host.Outcome State Fault Refusal := s.does (reachReg .secTokenCtrl newChallenge)

/-- An accepted token has this type. -/
def hasTok (t : Option Token) (typ : Nat) : Bool := t.any fun x => x.typ = typ

/-! ### Transitions (R429-R433) -/

/-- The targets of a state (R430). -/
def lcPath (st target : Nat) : Bool :=
  match st with
  | 0 => target = 1 || target = 4
  | 1 => target = 2 || target = 4
  | 2 => target = 3 || target = 4
  | 3 => target = 1 || target = 4
  | _ => false

/-- The tokens that a transition requires are accepted (R430). -/
def lcTokens (s : State) (target : Nat) : Bool :=
  let st := lcState s
  match target with
  | 1 => hasTok s.sec.corkorTok 2
  | 2 => hasTok s.sec.ownerTok 3
  | 3 => hasTok s.sec.ownerTok 4 && hasTok s.sec.corkorTok 4
  | _ => hasTok s.sec.corkorTok 5 && ((st ≠ 1 && st ≠ 2) || hasTok s.sec.ownerTok 5)

/-- Transitions taken so far (R429). -/
def lcT (s : State) : Nat := s.fget .secLc F.secLc_TCOUNT

/-- The provisioning index that a PROVISION would use (R429). -/
def nextIndex (s : State) : Nat := lcT s / 3

/-- The owner key that a PROVISION token carries. -/
def newOwnerKey (s : State) : List Byte := (s.sec.corkorTok.map Token.payload).getD []

/-- The entries at the index are free, or those of an interrupted provisioning with this owner key (R433). -/
def entryFree (s : State) : Bool :=
  let k := nextIndex s
  (tfind s.otp.ident k).all (fun e => e.ok s.otp) && (tfind s.otp.owner k).all fun o => o.ok && decide (o.key = newOwnerKey s)

/-- The first check of a transition that fails, 0 where all pass (R431). -/
def lcResult (s : State) (target : Nat) : Nat :=
  if !lcPath (lcState s) target then 1
  else if s.job.phase ≠ .none then 2
  else if !lcTokens s target then 3
  else if target = 1 ∧ 10 < lcT s + 1 then 4
  else if target = 1 ∧ s.fget .entStatus F.entStatus_STATE ≠ 3 then 5
  else if target = 1 ∧ !entryFree s then 6
  else 0

/-- The lifecycle word after a transition (R429, R430). -/
def lcWord (s : State) (target : Nat) : U32 :=
  let w := (lcVote s.otp).getD 0
  if target = 4 then w ||| 0x80000000#32 else w ||| BitVec.ofNat 32 (2 ^ (lcT s + 1) - 1)

/-- Identity and owner-key entries of a PROVISION (R433); `bad` names the word that does not read back: 0 the identity entry, 1 the
owner-key entry. -/
def writeEntries (bad : Option Nat) (seed : BitVec 256) : Act :=
  actGet id fun s =>
    let k := nextIndex s
    let key := newOwnerKey s
    actSeq
      (actOn (decide (bad ≠ some 0)) (fun _ => [.otpIdent k { wrapped := seed ^^^ Config.wrapMask s.otp.deviceKey, digest := sha3 (Config.mldsaPublic seed) }]))
      (actOn (decide (bad ≠ some 0 ∧ bad ≠ some 1)) (fun _ => [.otpOwner k { key, digest := sha3 key }]))

/-- Zeroisation (R432). -/
def zeroise : Act :=
  actAll [
    wipe (spaceBase 0) (spaceBase 1),
    loseDies,
    eraseOwner]

/-- The lifecycle copies are written in order; `bad` 2 to 4 names the copy that does not read back (R431). -/
def writeCopies (target : Nat) (bad : Option Nat) : Act :=
  actGet (fun s => lcWord s target) fun w => actAll [
    actEach ((List.range 3).filter fun c => match bad with
      | some b => decide (c + 2 < b)
      | none => true) fun c => fun _ => [.otpLc c w],
    (match bad with
      | some _ => setF .secLcReq F.secLcReq_RESULT 7
      | none => actAll [
          setF .secLcReq F.secLcReq_RESULT 0,
          showLc ((lcDecode w).getD 4) w,
          showIdent,
          actOn (decide (target = 3) || decide (target = 4)) zeroise,
          modSec fun x => { x with resetDue := true }])]

/-- A write of SEC_LC_REQ.TARGET (R430-R433). -/
def transition (target : Nat) (bad : Option Nat) : Act :=
  actGet (fun s => lcResult s target) fun r =>
    if r ≠ 0 then setF .secLcReq F.secLcReq_RESULT r
    else
      let copies := actSeq (writeCopies target bad) newChallenge
      actSeq closeSession (
        if target ≠ 1 then copies
        else actIf (fun s => (tfind s.otp.ident (nextIndex s)).isSome)
          (actSeq (writeEntries bad 0) (if bad = some 0 ∨ bad = some 1 then setF .secLcReq F.secLcReq_RESULT 7 else copies))
          (drbgGen 2 (fun bs => actSeq (writeEntries bad (bs.getD 0 0 ++ bs.getD 1 0))
              (if bad = some 0 ∨ bad = some 1 then setF .secLcReq F.secLcReq_RESULT 7 else copies))
            (setF .secLcReq F.secLcReq_RESULT 5)))

/-- LIFECYCLE_TRANSITION (R431); `bad` names the OTP word that does not read back. -/
def execLifecycleTransition (target : BitVec 3) (bad : Option Nat) (s : State) : Host.Outcome State Fault Refusal :=
  s.does (reachReg .secLcReq (actWhen (fun s => !s.sec.resetDue) (transition target.toNat bad)))

/-- LIFECYCLE_SELF_RESET: 10 ms after a transition the module resets itself (R431). -/
def execLifecycleSelfReset (s : State) : Host.Outcome State Fault Refusal :=
  s.does (actWhen (fun s => s.sec.resetDue) (actAll [announceReset, moduleReset false, startBoot]))

/-! ### Debug sessions (R436-R441) -/

/-- What the lifecycle asks for a level (R438): `none` forbidden, else whether a token is needed and whether the owner signs it. -/
def levelCell (st level : Nat) : Option (Option Bool) :=
  match level, st with
  | 1, _ => some none
  | 2, 0 | 2, 1 | 3, 0 | 3, 1 | 4, 0 | 4, 1 | 4, 3 => some (some false)
  | 2, 2 | 3, 2 => some (some true)
  | _, _ => none

/-- The power state permits the level (R439): D1 in S4 and S5 over SMBus/MCTP only. -/
def levelPower (st level source : Nat) : Bool :=
  if level = 1 then decide (st < 4) || decide (source = 2) else decide (st < 3)

/-- The result of a request to open a session (R437-R439, R445). -/
def openResult (s : State) (level source : Nat) : Nat :=
  match levelCell (lcState s) level with
  | none => 1
  | some need =>
    let tokOk := match need with
      | none => true
      | some owner => (if owner then s.sec.ownerTok else s.sec.corkorTok).any fun t => decide (t.typ = 1) && decide (level ≤ t.arg)
    if !tokOk then 2 else if !levelPower (pstate s) level source then 3 else 0

/-- A session opens at a level, from a source (R437-R441). -/
def openSession (level source : Nat) : Act :=
  actGet (fun s => openResult s level source) fun r => actSeq (setF .secDbgStatus F.secDbgStatus_RESULT r)
    (actOn (decide (r = 0)) (actAll [
      closeSession,
      modSec fun x => { x with session := level, source },
      setF .secDbgStatus F.secDbgStatus_LEVEL level, setF .secDbgStatus F.secDbgStatus_SRC source,
      actGet (fun s => s.fget .secDbgStatus F.secDbgStatus_MAX) fun m => setF .secDbgStatus F.secDbgStatus_MAX (max m level),
      actOn (decide (2 ≤ level)) newChallenge,
      actOn (decide (3 ≤ level)) (actSeq (setF .secDbgStatus F.secDbgStatus_TAINT 1)
        (actWhen (fun s => s.job.phase != .none && s.job.phase != .loading) (actSeq classV (recFlag 6))))]))

/-- A write of SEC_DBG_CTRL with OPEN (R437, R445). -/
def writeOpen (v : U32) (source : Nat) : Act :=
  actSeq (setF .secDbgCtrl F.secDbgCtrl_LEVEL (F.secDbgCtrl_LEVEL.get v)) (openSession (F.secDbgCtrl_LEVEL.get v) source)

/-- DEBUG_OPEN, through BAR0, or a D4 session through the TAP (R437, R458). -/
def execDebugOpen (v : U32) (jtag : Bool) (s : State) : Host.Outcome State Fault Refusal :=
  s.does (reachReg .secDbgCtrl (actOn (!jtag || decide (F.secDbgCtrl_LEVEL.get v = 4)) (writeOpen v (if jtag then 3 else 1))))

/-- DEBUG_CLOSE (R437). -/
def execDebugClose (s : State) : Host.Outcome State Fault Refusal := s.does (reachReg .secDbgCtrl closeSession)

/-! ### Halts (R440) -/

/-- The tiles of the job that a write of SEC_HALT names (R258, R440). -/
def haltTargets (s : State) (v : U32) : List TileId :=
  if F.secHalt_ALL.get v = 1 then jobTiles s
  else if F.secHalt_COORD.get v < 2048 then (jobTiles s).filter fun t => t.toNat = F.secHalt_COORD.get v else []

/-- A session that may halt tiles is open (R436, R440). -/
def mayHalt (s : State) : Bool := decide (3 ≤ s.sec.session)

/-- An access or halt is refused (R436, R440). -/
def denied : Act := incF .secDbgStatus F.secDbgStatus_DENIED

/-- HALT: running tiles complete their beat and stop; without a session, or aimed at a tile that does not run, it is dropped (R440). -/
def halt (v : U32) : Act :=
  actGet (fun s => if mayHalt s then (haltTargets s v).filter fun t => (s.tile t).mode == .run else []) fun ts =>
    if ts.isEmpty then denied
    else actEach ts fun t => modTile t fun τ =>
      if τ.mid then { τ with haltReq := true, stepsLeft := 0 } else { τ with haltReq := true, stepsLeft := 0, mode := .halted }

/-- RESUME: tiles return to RUN (R440). -/
def resume (v : U32) : Act :=
  actGet (fun s => (mayHalt s, haltTargets s v)) fun p => if p.1 then actEach p.2 fun t => modTile t Tile.unhalt else denied

/-- STEP: halted tiles execute STEPS beats and halt again (R440, R445). -/
def stepTile (v : U32) : Act :=
  actGet (fun s => (mayHalt s, (haltTargets s v).filter fun t => (s.tile t).mode == .halted)) fun p =>
    if p.1 then actEach p.2 fun t => modTile t fun τ => { τ with mode := .run, haltReq := true, stepsLeft := max 1 (F.secHalt_STEPS.get v) }
    else denied

/-- HALT_TILE (R440). -/
def execHaltTile (v : U32) (s : State) : Host.Outcome State Fault Refusal := s.does (reachReg .secHalt (halt v))
/-- RESUME_TILE (R440). -/
def execResumeTile (v : U32) (s : State) : Host.Outcome State Fault Refusal := s.does (reachReg .secHalt (resume v))
/-- STEP_TILE (R440). -/
def execStepTile (v : U32) (s : State) : Host.Outcome State Fault Refusal := s.does (reachReg .secHalt (stepTile v))

/-! ### Key slots (R442) -/

/-- The result of a revocation (R442, R445); a word that does not read back is `bad`. -/
def revokeResult (s : State) (bad : Bool) : Nat :=
  let revoked := s.fget .secKeyslot F.secKeyslot_REVOKED
  match s.sec.corkorTok with
  | some t =>
    if t.typ ≠ 6 ∨ lcState s = 4 then 1
    else if revoked ||| 2 ^ t.arg = 0xF ∧ !revoked.testBit t.arg then 2
    else if bad then 3 else 0
  | none => 1

/-- A write of SEC_KEYSLOT.REVOKE (R442). -/
def revoke (bad : Bool) : Act :=
  actGet (fun s => (revokeResult s bad, (s.sec.corkorTok.map Token.arg).getD 0)) fun p => actSeq
    (setF .secKeyslot F.secKeyslot_RESULT p.1)
    (actOn (decide (p.1 = 0)) (actAll [
      actEach (List.range 3) fun c => fun _ => [.otpRevoke c (BitVec.ofNat 4 (2 ^ p.2))],
      actGet (fun s => (revokedVote s.otp).toNat) fun v => setF .secKeyslot F.secKeyslot_REVOKED v,
      newChallenge]))

/-- KEY_REVOKE (R442); `bad` says that the OTP word does not read back. -/
def execKeyRevoke (bad : Bool) (s : State) : Host.Outcome State Fault Refusal := s.does (reachReg .secKeyslot (revoke bad))

/-! ### Attestation (R443, R444) -/

/-- A write of SEC_ATT_CTRL.GO: dropped while a request is in progress (R443, R444). -/
def attest : Act :=
  actGet id fun s =>
    if s.flag .secAttCtrl F.secAttCtrl_BUSY then actNop
    else if !hasIdentity s then setF .secAttCtrl F.secAttCtrl_RESULT 1
    else actAll [
      setF .secAttCtrl F.secAttCtrl_BUSY 1,
      modSec fun x => { x with attNonce := regBytes s .secAttNonce, attRnd := none },
      drbgAsk 256 .attest]

/-- ATTESTATION_REQUEST (R443). -/
def execAttestationRequest (s : State) : Host.Outcome State Fault Refusal := s.does (reachReg .secAttCtrl attest)

/-- ATTESTATION_DONE: the DRBG has served the request, and the signed evidence is placed in SEC_ATT_BUF (R443). -/
def execAttestationDone (s : State) : Host.Outcome State Fault Refusal :=
  s.does (actGet (fun s => s.sec.attRnd) fun o => actOpt o fun rnd => actAll [
    actGet (fun s => evidence s s.sec.attNonce rnd) fun e => actEach (List.range 997) fun i =>
      setReg (.secAttBuf (BitVec.ofNat 10 i)) (BitVec.ofNat 32 (leAt e (4 * i) 4)),
    modSec fun x => { x with attRnd := none, attNonce := [] },
    setF .secAttCtrl F.secAttCtrl_BUSY 0, setF .secAttCtrl F.secAttCtrl_DONE 1, setF .secAttCtrl F.secAttCtrl_RESULT 0])

end Sys2Proof.Machine
end

