-- ==== Sys2Proof/Machine/PowerCmd.lean ====
section
/-!
DEFINITION. The commands of power states, wakes, PCI-PM and PERST_N (R381-R394, R408, R411).
-/
namespace Sys2Proof.Machine

/-- What the module does when no command waits: an exit to S0 in progress ends, and nothing else (notes/assumptions/32.md). -/
def idle (s : State) : State := s.run (endExit s)

/-! ### Requests (R383-R387, R391) -/

/-- PWR_ENTRY_REQUEST: PWR_REQ is written with the target of an entry (R384). -/
def execPwrEntryRequest (v : U32) (delays silent : Nat) (s : State) : Host.Outcome State Fault Refusal :=
  s.does (actOn (decide (F.pwrReq_TARGET.get v ≠ 0))
    (powerRequest (F.pwrReq_TARGET.get v) (decide (F.pwrReq_FORCE.get v = 1)) { delays, silent }))

/-- The reason that an agent's refusals carry (R385). -/
def agentCode (a : Nat) : Nat :=
  match a with
  | 0x12 => 3
  | 0x13 => 4
  | 0x14 => 2
  | 0x15 => 6
  | 0x16 => 5
  | _ => 1

/-- The answer of an agent that is asked again after its DELAY: a second DELAY counts as REFUSE with its reason (R385, R431). -/
def secondAnswer (s : State) (target a : Nat) (again : Bool) : Answer :=
  if a = 0x11 then .ack
  else if again || delaysFirst s a then .refuse (if agentReason s target a ≠ 0 then agentReason s target a else agentCode a)
  else answerOf s target a

/-- AGENT_DELAY_EXPIRY: the manager asks the agent again; `again` says that it answers DELAY once more of its own accord (R385). -/
def execAgentDelayExpiry (agent : Nat) (again : Bool) (s : State) : Host.Outcome State Fault Refusal :=
  s.does (actGet (fun s => s.pwr.req) fun o => actOpt o fun q =>
    actOn (decide (tget q.answers .ack agent = .delay)) (actGet (fun s => secondAnswer s q.target agent again) (giveAnswer agent)))

/-- AGENT_ANSWER_TIMEOUT: an agent that has not answered within 50 µs counts as REFUSE with reason 7 (R385). -/
def execAgentAnswerTimeout (agent : Nat) (s : State) : Host.Outcome State Fault Refusal :=
  s.does (actGet (fun s => s.pwr.req) fun o => actOpt o fun q =>
    actOn (decide (tget q.answers .ack agent = .silent)) (giveAnswer agent (.refuse 7)))

/-- POWER_COMMIT: every agent has answered ACK, or a forced refusal has been dealt with; `now` is PTP time in ns (R386, R387). -/
def execPowerCommit (now : U64) (s : State) : Host.Outcome State Fault Refusal := s.does (actWhen canCommit (commit now.toNat))

/-- No job is loaded and no command is pending (R391). -/
def isIdle (s : State) : Bool :=
  s.job.phase == .none && !s.flag .mbxStatus F.mbxStatus_BUSY && s.hif.heldBells.isEmpty &&
    (List.range 64).all fun q => (s.qp q).busy.isNone && decide ((s.qp q).tail = (s.qp q).head)

/-- The MC requests a state of its own (R391): not with HIF_POLICY.PWR = 1. -/
def governorRequest (source : Fld) (at_ target delays silent : Nat) : Act :=
  actWhen (fun s => !s.flag .hifPolicy F.hifPolicy_PWR && !s.flt.mcAbsent && decide (s.fget .pwrIdle source ≠ 0) && decide (pstate s = at_) && isIdle s)
    (powerRequest target false { delays, silent })

/-- IDLE_S1_TIMEOUT: the module has been idle for PWR_IDLE.S1_MS (R391). -/
def execIdleS1Timeout (delays silent : Nat) (s : State) : Host.Outcome State Fault Refusal :=
  s.does (governorRequest F.pwrIdle_S1_MS 0 1 delays silent)

/-- IDLE_S2_TIMEOUT: a further PWR_IDLE.S2_S seconds have passed (R391). -/
def execIdleS2Timeout (delays silent : Nat) (s : State) : Host.Outcome State Fault Refusal :=
  s.does (governorRequest F.pwrIdle_S2_S 1 2 delays silent)

/-! ### Wakes (R392-R394) -/

/-- PWR_WAKE_REQUEST: PWR_REQ is written with TARGET 0 (R392). -/
def execPwrWakeRequest (now : U64) (s : State) : Host.Outcome State Fault Refusal := s.does (wakeFrom 1 now.toNat)

/-- WAKE_TIMER_EXPIRY: PWR_WAKE_TIMER has run out since the last entry (R392, R399). -/
def execWakeTimerExpiry (now : U64) (s : State) : Host.Outcome State Fault Refusal :=
  s.does (actWhen (fun s => decide (s.reg .pwrWakeTimer ≠ 0)) (wakeFrom 6 now.toNat))

/-- S4 needs the supply or clock that `what` names as PWR_FAULT.WHAT does: rails 1 to 4 and the crystal (R381, R452-R454). -/
def neededInDeep (what : Nat) : Bool := (decide (0x101 ≤ what) && decide (what ≤ 0x104)) || decide (what = 0x204)

/-- POWER_GOOD_TIMEOUT: a power-good or lock wait of the exit expires; after the third failed retry the module settles in S4 or S5
(R394). -/
def execPowerGoodTimeout (what : Nat) (s : State) : Host.Outcome State Fault Refusal :=
  s.does (actWhen (fun s => s.pwr.exiting) (actIf (fun s => decide (s.pwr.retries < 3))
    (modPwr fun w => { w with retries := w.retries + 1 })
    (actGet (fun s => s.pwr.ptpAtEntry) fun now => actAll [
      modPwr fun w => { w with exiting := false, retries := 0 },
      descend (if neededInDeep what then 5 else 4) now,
      setF .pwrState F.pwrState_CUR (if neededInDeep what then 5 else 4), setF .pwrState F.pwrState_BUSY 0,
      setF .pwrFault F.pwrFault_WAKE_FAIL 1, setF .pwrFault F.pwrFault_WHAT what,
      alert])))

/-- HBM_TRAINING_COMPLETE: a stack that trains after an exit from S3 or deeper is READY (R247, R382). -/
def execHbmTrainingComplete (k : BitVec 5) (s : State) : Host.Outcome State Fault Refusal :=
  s.does (actWhen (fun s => decide (stackState s k = 1) && decide (pstate s = 0)) (setF (.hbmStatus k) F.hbmStatus_STATE 2))

/-! ### PCI-PM and PERST_N (R383, R408, R411) -/

/-- PMCSR_D3HOT: PMCSR reads D3hot at once, and S3 is requested, not forced (R383). -/
def execPmcsrD3hot (delays silent : Nat) (s : State) : Host.Outcome State Fault Refusal :=
  s.does (actSeq (modPwr fun w => { w with d3hot := true }) (powerRequest 3 false { delays, silent }))

/-- D3HOT_REQUEST_REPEAT: until S3 is entered, the request is repeated every 100 ms (R383). -/
def execD3hotRequestRepeat (delays silent : Nat) (s : State) : Host.Outcome State Fault Refusal :=
  s.does (actWhen (fun s => s.pwr.d3hot && decide (pstate s < 3)) (powerRequest 3 false { delays, silent }))

/-- PMCSR_D0: a wake from S3 (R383). -/
def execPmcsrD0 (now : U64) (s : State) : Host.Outcome State Fault Refusal :=
  s.does (actSeq (modPwr fun w => { w with d3hot := false }) (wakeFrom 3 now.toNat))

/-- PERST_N_ASSERT: from S3, a forced entry to S4 is requested; from S0 to S2, module reset (R383, R411). -/
def execPerstNAssert (delays silent : Nat) (s : State) : Host.Outcome State Fault Refusal :=
  s.does (actGet pstate fun st => actAll [
    modPins fun p => { p with perstN := false },
    actOn (decide (st < 3)) (actSeq announceReset (moduleReset false)),
    actOn (decide (st = 3)) (powerRequest 4 true { delays, silent }),
    modHif fun h => { h with linkUp := false },
    setF .hifStatus F.hifStatus_WIDTH 0, setF .hifStatus F.hifStatus_RATE 0])

/-- PERST_N_DEASSERT: the bring-up sequence starts; from S4, a wake; from S5, module reset (R383, R408).  `ref25` says whether the
25 MHz reference runs (R454). -/
def execPerstNDeassert (ref25 : Bool) (now : U64) (s : State) : Host.Outcome State Fault Refusal :=
  s.does (actWhen (fun s => !s.pins.perstN) (actGet pstate fun st => actAll [
    modPins fun p => { p with perstN := true, ref25 },
    (if st < 3 then startBoot
      else if st = 5 then actSeq (moduleReset false) startBoot
      else actSeq functionReset (actOn (st = 4) (wakeFrom 4 now.toNat)))]))

end Sys2Proof.Machine
end

