-- ==== Sys2Proof/Machine/Thermal.lean ====
section
/-!
DEFINITION. Temperatures, trips, and the supplies and clocks of the module (R395, R396, R398, R411, R450-R454, R460).
-/
namespace Sys2Proof.Machine

/-! ### Temperatures (R396) -/

/-- Warning, limit and trip of a sensor in °C (R396); the die's warning is PWR_THERM_LIM between 80 and 100 (R399). -/
def warnAt (s : State) : Sensor → Nat
  | .die _ => max 80 (min 100 (s.fget .pwrThermLim F.pwrThermLim_DIE_WARN_C))
  | .stack _ => 95
  | .iod => 100
def limitAt : Sensor → Nat
  | .die _ => 105
  | .stack _ => 100
  | .iod => 110
def tripAt : Sensor → Nat
  | .die _ => 115
  | .stack _ => 105
  | .iod => 120

/-- The sensor's bit of PWR_THERM. -/
def warnFld : Sensor → Fld
  | .die _ => F.pwrTherm_DIE_WARN
  | .stack _ => F.pwrTherm_HBM_WARN
  | .iod => F.pwrTherm_IOD_WARN

/-- The sensor's reading in °C shows: PGV_TJ in units of 1/16 °C, HBM_STATUS.TEMP in °C (R34, R247). -/
def showTemp (x : Sensor) (c : Nat) : Act :=
  match x with
  | .die d => setF (.pgvTj d) F.pgvTj_TJ (16 * c)
  | .stack k => setF (.hbmStatus k) F.hbmStatus_TEMP c
  | .iod => actNop

/-- THERMAL_WARNING: a sensor reaches its warning (R396). -/
def execThermalWarning (x : Sensor) (c : Nat) (s : State) : Host.Outcome State Fault Refusal :=
  s.does (actSeq (showTemp x c) (actWhen (fun s => decide (warnAt s x ≤ c) && !s.pwr.hot.contains x) (actAll [
    modPwr fun w => { w with hot := x :: w.hot },
    setF .pwrTherm (warnFld x) 1,
    alert, signal 4])))

/-- THERMAL_WARNING_CLEAR: a temperature has stayed 5 °C below its warning for 1 s; the bit clears with the last sensor of its kind
(R396). -/
def execThermalWarningClear (x : Sensor) (c : Nat) (s : State) : Host.Outcome State Fault Refusal :=
  s.does (actSeq (showTemp x c) (actWhen (fun s => decide (c + 5 ≤ warnAt s x)) (actAll [
    modPwr fun w => { w with hot := w.hot.erase x },
    actGet (fun s => s.pwr.hot.any fun y => warnFld y = warnFld x) fun b => setF .pwrTherm (warnFld x) (b2n b)])))

/-- The MC drops every 1.6TbE port to 800GbE and every 800GbE port to 400GbE (R396). -/
def dropPorts : Act :=
  actGet (fun s => if s.net.cfg1600 then 4 else 2) fun n => actGet portsUp fun ps => actEach ps fun p =>
    portRuns (BitVec.ofNat 4 p) n

/-- THERMAL_LIMIT: a sensor reaches its limit: the die is paced, the stack throttled and refreshed at the double rate, or the ports are
dropped (R241, R396). -/
def execThermalLimit (x : Sensor) (c : Nat) (s : State) : Host.Outcome State Fault Refusal :=
  s.does (actSeq (showTemp x c) (match x with
    | .die d => actOn (decide (105 ≤ c)) (modPwr fun w => { w with dieLimit := if w.dieLimit.contains d.toNat then w.dieLimit else d.toNat :: w.dieLimit })
    | .stack k => actSeq (actOn (decide (85 < c)) (setF (.hbmStatus k) F.hbmStatus_REFRESH_2X 1))
        (actOn (decide (100 ≤ c)) (modPwr fun w => { w with
          hbmThrottle := if w.hbmThrottle.contains k.toNat then w.hbmThrottle else k.toNat :: w.hbmThrottle }))
    | .iod => actOn (decide (110 ≤ c)) (actWhen (fun s => !s.flt.mcAbsent) dropPorts)))

/-- THERMAL_LIMIT_END: a stack has fallen below 97 °C, or to 85 °C and below; a die has fallen below its limit (R241, R396). -/
def execThermalLimitEnd (x : Sensor) (c : Nat) (s : State) : Host.Outcome State Fault Refusal :=
  s.does (actSeq (showTemp x c) (match x with
    | .die d => actOn (decide (c < 105)) (modPwr fun w => { w with dieLimit := w.dieLimit.filter (· ≠ d.toNat) })
    | .stack k => actSeq (actOn (decide (c < 97)) (modPwr fun w => { w with hbmThrottle := w.hbmThrottle.filter (· ≠ k.toNat) }))
        (actOn (decide (c ≤ 85)) (setF (.hbmStatus k) F.hbmStatus_REFRESH_2X 0))
    | .iod => actNop))

/-! ### Entries past the handshake (R398) -/

/-- The job ends with JOB_ENDED, and its state is lost; one that is loading is refused (R398). -/
def dropJob : Act :=
  actGet id fun s =>
    match s.job.phase with
    | .none => actNop
    | .loading => refuseLoad s.job.queue s.job.standing (.status 6)
    | _ => actAll [abortPause, clearJob, setF .fltStatus F.fltStatus_OUTCOME 3]

/-- The module enters a state without asking: every session closes, the job ends, a request or an exit in progress is given up (R398,
R439).  `now` is PTP time in ns. -/
def enterForced (target now : Nat) : Act :=
  actAll [
    freezeTiles,
    closeSession,
    dropJob,
    modPwr fun w => { w with req := none, stopAt := none, exiting := false, retries := 0, ptpAtEntry := now },
    actWhen (fun s => decide (pstate s < 3)) (setPair .ptpTimeLo .ptpTimeHi now),
    descend target now,
    setF .pwrState F.pwrState_TARGET target, setF .pwrState F.pwrState_BUSY 0]

/-- Where a trip leads (R398). -/
def tripTarget (x : Sensor) (hbm100 : Bool) : Nat :=
  match x with
  | .die _ => if hbm100 then 3 else 2
  | .stack _ => 3
  | .iod => 5

/-- THERMAL_TRIP: a comparator trips; `hbm100` says that a stack is at or above 100 °C (R396, R398, R460). -/
def execThermalTrip (x : Sensor) (c : Nat) (hbm100 : Bool) (now : U64) (s : State) : Host.Outcome State Fault Refusal :=
  s.does (actSeq (showTemp x c) (actOn (decide (tripAt x ≤ c)) (actAll [
    modPwr fun w => { w with hot := if w.hot.contains x then w.hot else x :: w.hot },
    setF .pwrTherm (warnFld x) 1,
    modPins fun p => { p with thermtripN := false },
    alert,
    setF .pwrFault (match x with
      | .die _ => F.pwrFault_DIE_TRIP
      | .stack _ => F.pwrFault_HBM_TRIP
      | .iod => F.pwrFault_IOD_TRIP) 1,
    enterForced (tripTarget x hbm100) now.toNat])))

/-! ### Input power (R398, R450, R451) -/

/-- INPUT_UNDERVOLTAGE: the input has stayed below 40 V for 1 ms (R398). -/
def execInputUndervoltage (s : State) : Host.Outcome State Fault Refusal :=
  s.does (actWhen (fun s => s.pins.inputUp) (actSeq (setF .pwrFault F.pwrFault_UV_WARN 1) (signal 4)))

/-- An input fault: S5, with its cause (R398, R452, R453). -/
def inputFault (what now : Nat) : Act :=
  actAll [
    setF .pwrFault F.pwrFault_INPUT_FAIL 1, setF .pwrFault F.pwrFault_WHAT what,
    enterForced 5 now]

/-- INPUT_FAULT: the input has been below 36 V for 50 µs, or is above 63 V (R398, R450).  Damage above the absolute maximum of
72 V is left out (notes/assumptions/33.md). -/
def execInputFault (mv : Nat) (now : U64) (s : State) : Host.Outcome State Fault Refusal :=
  s.does (actWhen (fun s => s.pins.inputUp && (decide (mv < 36000) || decide (63000 < mv))) (inputFault 0 now.toNat))

/-- A rail by its code in PWR_FAULT.WHAT is on in a state (R452, R453). -/
def railOn (rail st : Nat) : Bool :=
  match rail with
  | 1 => true
  | 2 | 3 | 4 => decide (st < 5)
  | 6 => decide (st < 3)
  | 7 => decide (st < 2)
  | _ => decide (0x50 ≤ rail) && decide (rail < 0x58) && decide (st < 2)

/-- RAIL_POWER_GOOD_LOSS: a rail's power-good drops while the module runs (R452, R453). -/
def execRailPowerGoodLoss (rail : Nat) (now : U64) (s : State) : Host.Outcome State Fault Refusal :=
  s.does (actWhen (fun s => s.pins.inputUp && railOn rail (pstate s)) (inputFault (0x100 + rail) now.toNat))

/-- REFCLK_LOSS: 1 REF25, 2 PCIE_REFCLK, 3 ETHREF (R454). -/
def execRefclkLoss (clk : Nat) (now : U64) (s : State) : Host.Outcome State Fault Refusal :=
  s.does (actWhen (fun s => s.pins.inputUp) (match clk with
    | 1 => actSeq (modPins fun p => { p with ref25 := false }) (actWhen (fun s => decide (pstate s < 5)) (inputFault 0x201 now.toNat))
    | 2 => actWhen (fun s => s.hif.linkUp) linkLoss
    | 3 => portsDown
    | _ => actNop))

/-- A write of PWR_PEAK_W.CLEAR (R395). -/
def peakClear : Act := setF .pwrPeakW F.pwrPeakW_PEAK 0

/-- PEAK_CLEAR (R395). -/
def execPeakClear (s : State) : Host.Outcome State Fault Refusal := s.does (reachReg .pwrPeakW peakClear)

/-- INPUT_POWER_UP: the input rises; AON samples its straps, the OTP votes are taken, and the rails come up; bring-up starts where
PERST_N is high (R319, R425, R450, R451, R454, R456). -/
def execInputPowerUp (strap : BitVec 2) (ref25 : Bool) (s : State) : Host.Outcome State Fault Refusal :=
  s.does (actWhen (fun s => !s.pins.inputUp) (actAll [
    modPins fun p => { p with inputUp := true, smbAddr := strap, ref25 },
    otpVote,
    entStart,
    startBoot]))

/-- INPUT_POWER_LOSS: the input falls below 18 V and everything is off; a firmware write in progress leaves its region unverifiable
(R411, R450). -/
def execInputPowerLoss (s : State) : Host.Outcome State Fault Refusal :=
  s.does (actWhen (fun s => s.pins.inputUp) (actAll [
    actWhen (fun s => s.boot.commit.isSome) (actGet (fun s => (flashRegion s 2).1) fun a => store (flash a) (List.replicate 4096 0xFF)),
    moduleReset false,
    modHif fun h => { h with linkUp := false },
    modEnt fun _ => {}, setReg .entStatus 0,
    modPins fun p => { p with inputUp := false, alertN := true, thermtripN := true }]))

end Sys2Proof.Machine
end

