-- ==== Sys2Proof/Machine/Access.lean ====
section
/-!
DEFINITION. Access to BAR0: which register lies at an offset, what it reads, and what a write of it does (R10-R12, R51, R168, R236, R245,
R246, R436, R461-R465).
-/
namespace Sys2Proof.Machine

/-! ### Offsets (R461, R462, R465) -/

/-- Registers of the IOD's blocks that may lie at an offset; the image registers are those of the slot that HIF_IMG_SEL names (R279). -/
def iodRegs (sel : BitVec 2) (off : Nat) : List Reg :=
  let ix := fun (base stride : Nat) => (off - base) / stride
  match off / 0x10000 with
  | 0 => [.glbId, .glbStatus, .glbTblset (BitVec.ofNat 3 (ix 0x180 4)), .offCount, .offAddr (BitVec.ofNat 3 (ix 0x204 4))]
  | 1 => [.bootStatus, .bootCtrl, .bootFwVer, .bootCfg, .bootFwDigest (BitVec.ofNat 3 (ix 0x10020 4)), .bootCfgDigest (BitVec.ofNat 3 (ix 0x10040 4))]
  | 2 => [.pwrState, .pwrReq, .pwrRefuse, .pwrFault, .pwrWakeSrc, .pwrWakeTimeLo, .pwrWakeTimeHi, .pwrWakeCnt (BitVec.ofNat 2 (ix 0x20020 4)),
      .pwrIdle, .pwrWakeTimer, .pwrTherm, .pwrThermLim, .pwrPeakW, .pwrRefuseAgents, .pwrEnvActive, .pwrHostCap, .pwrVset, .pwrInputW]
  | 3 => [.secLc, .secLcReq, .secChallenge (BitVec.ofNat 3 (ix 0x30010 4)), .secTokenCtrl, .secTokenStatus, .secDbgCtrl, .secDbgStatus, .secHalt,
      .secKeyslot, .secAttCtrl, .secAttNonce (BitVec.ofNat 3 (ix 0x30080 4)), .secId (BitVec.ofNat 3 (ix 0x300A0 4)),
      .secTokenBuf (BitVec.ofNat 10 (ix 0x31000 4)), .secAttBuf (BitVec.ofNat 10 (ix 0x32000 4))]
  | 4 => [.entStatus, .entCtrl, .entAlarm, .entReqSince, .entReseeds, .entHostInput]
  | 5 =>
    let q := BitVec.ofNat 6 (ix 0x51000 0x20)
    let g := BitVec.ofNat 5 (ix 0x52000 0x20)
    [.hifStatus, .hifCtrl, .hifErr, .hifPolicy, .hifBar2BaseLo, .hifBar2BaseHi, .hifBar2Wrdrop, .imgSel, .imgStatus sel, .imgWhere sel,
      .imgWhereItem sel, .imgNsv, .imgWrdrop sel, .mbxCmd, .mbxStatus, .mbxEvt (BitVec.ofNat 3 (ix 0x50820 4)),
      .mbxData (BitVec.ofNat 6 (ix 0x50900 4)), .qCfg q, .qSqbaseLo q, .qSqbaseHi q, .qCqbaseLo q, .qCqbaseHi q,
      .dmaCfg g, .dmaBaseLo g, .dmaBaseHi g, .dmaTail g]
  | 6 => [.admCtrl, .admStatus, .admNextTag]
  | 8 =>
    let p := BitVec.ofNat 4 (ix 0x80000 0x1000)
    [.bxtPortStatus p, .bxtPortRetx p, .bxtPortDrop p, .bxtPartnerId p (BitVec.ofNat 2 ((off % 0x1000 - 0x10) / 4))]
  | 9 | 10 => [.bxtCfg, .bxtMember, .bxtEvents, .bxtRelLate, .bxtRejoin, .bxtMgroup (BitVec.ofNat 6 (ix 0x90100 4)), .bxtRoster (BitVec.ofNat 14 (ix 0x91000 4))]
  | 0xC => [.ptpStatus, .ptpTimeLo, .ptpTimeHi, .ptpRelMargin, .ptpPpsInLo, .ptpPpsInHi]
  | 0x10 => [.echoCtrl, .echoStatus, .echoSeqLo, .echoSeqHi, .echoTailLo, .echoTailHi, .echoDrainLo, .echoDrainHi, .echoReplayEndLo, .echoReplayEndHi,
      .echoRingMib, .echoRestore, .echoJob]
  | 0x14 => [.fltCtrl, .fltStatus, .fltRec, .fltRecStepLo, .fltRecStepHi, .fltCkptGen, .fltCkptStepLo, .fltCkptStepHi, .fltCount, .fltLastMs, .fltLostLo,
      .fltLostHi, .fltSelftest, .fltOtp, .fltMc]
  | _ => []

/-- Registers of a die window that may lie at an offset `o` of it (R462). -/
def dieRegs (d : DieId) (o : Nat) : List Reg :=
  let ix := fun (base stride : Nat) => (o - base) / stride
  match o / 0x10000 with
  | 0x20 | 0x21 =>
    let r := BitVec.ofNat 4 (ix 0x200000 0x2000)
    [.utileId d r, .utileStatus d r, .utileErr d r, .utileBeatLo d r, .utileBeatHi d r, .utilePc d r, .utileEcc d r, .utileEccAddr d r,
      .utileFlitRetry d r, .utileSpmAddr d r, .utileSpmData d r]
  | 0x30 => [.syncCnt (d ++ BitVec.ofNat 10 (ix 0x300000 4)), .syncFault d]
  | 0x34 =>
    let k := d ++ BitVec.ofNat 2 (ix 0x340000 0x1000)
    [.hbmStatus k, .hbmErr k, .hbmCeCount k, .hbmErrAddrLo k, .hbmErrAddrHi k, .hbmSpare0 k, .hbmSpare1 k]
  | 0x36 =>
    let l := BitVec.ofNat 2 (ix 0x360000 0x100)
    if o < 0x360300 then [.d2dStat d l, .d2dRetry d l] else []
  | 0x37 => [.dieRowmap d (BitVec.ofNat 4 (ix 0x370000 4))]
  | 0x38 => [.pgvCtrl d, .pgvStatus d, .pgvFault d, .pgvBeatrate d, .pgvDroopCount d, .pgvHoldNsLo d, .pgvHoldNsHi d, .pgvHlateCount d, .pgvTj d]
  | 0x39 => [.cgsStatus d, .cgsPending d, .cgsFault d, .cgsSeed d (BitVec.ofNat 4 (ix 0x390100 0x10)) (BitVec.ofNat 2 (o / 4))]
  | 0x3A =>
    let n := BitVec.ofNat 9 (ix 0x3A1000 0x80)
    .svdFault d :: (if d = 0 ∧ 0x3A1000 ≤ o ∧ o < 0x3AD000 then
      [.svcCtrl n, .svcResult n, .svcPosLo n, .svcPosHi n, .svcSeed n (BitVec.ofNat 2 (o / 4)), .svcInvT n, .svcC n, .svcTopP n, .svcFilt n,
        .svcPenPtrLo n, .svcPenPtrHi n, .svcKvPtrLo n, .svcKvPtrHi n, .svcHostTmo n, .svcYSel n, .svcM n, .svcS n] else [])
  | 0x3B => [.feCfg d, .feLoadStatus d, .feConflictCount d, .feConflictTgt d, .feConflictSrc d, .feZeroed d, .feLoadRec d, .feRot d, .feSweepLo d,
      .feSweepHi d, .feFault d]
  | 0x3C => [.rsCfg d, .rsXchgE d, .rsA0 d, .rsC0 d, .rsDt d, .rsCs d, .rsIter d, .rsParamT d, .rsParamA d, .rsParamG d, .rsTraceInt d, .rsTraceCount d,
      .rsTraceDrop d, .rsXchgSkip d, .rsStatus d]
  | _ =>
    let t : TileId := d ++ BitVec.ofNat 8 (o / 0x2000)
    if o < 0x200000 then [.tileId t, .tileStatus t, .tileErr t, .tileBeatLo t, .tileBeatHi t, .tilePc t, .tileEcc t, .tileEccAddr t, .tileFlitRetry t,
      .tileSpmAddr t, .tileSpmData t] else []

/-- The register at a BAR0 offset, where there is one (R10). -/
def regAt (s : State) (off : Nat) : Option Reg :=
  (if inRange off 0x1000000 0x3000000 then dieRegs (BitVec.ofNat 3 ((off - 0x1000000) / 0x400000)) (off % 0x400000)
    else iodRegs (BitVec.ofNat 2 (s.fget .imgSel F.imgSel_SLOT)) off).find? fun r => r.addr = off

/-! ### LO/HI pairs (R11) -/

/-- The LO/HI pairs. -/
def Reg.pairHi : Reg → Option Reg
  | .pwrWakeTimeLo => some .pwrWakeTimeHi
  | .hifBar2BaseLo => some .hifBar2BaseHi
  | .qSqbaseLo q => some (.qSqbaseHi q)
  | .qCqbaseLo q => some (.qCqbaseHi q)
  | .dmaBaseLo g => some (.dmaBaseHi g)
  | .ptpTimeLo => some .ptpTimeHi
  | .ptpPpsInLo => some .ptpPpsInHi
  | .echoSeqLo => some .echoSeqHi
  | .echoTailLo => some .echoTailHi
  | .echoDrainLo => some .echoDrainHi
  | .echoReplayEndLo => some .echoReplayEndHi
  | .fltRecStepLo => some .fltRecStepHi
  | .fltCkptStepLo => some .fltCkptStepHi
  | .fltLostLo => some .fltLostHi
  | .tileBeatLo t => some (.tileBeatHi t)
  | .utileBeatLo d r => some (.utileBeatHi d r)
  | .hbmErrAddrLo k => some (.hbmErrAddrHi k)
  | .pgvHoldNsLo d => some (.pgvHoldNsHi d)
  | .svcPosLo n => some (.svcPosHi n)
  | .svcPenPtrLo n => some (.svcPenPtrHi n)
  | .svcKvPtrLo n => some (.svcKvPtrHi n)
  | .feSweepLo d => some (.feSweepHi d)
  | _ => none

/-- The LO register of a HI register. -/
def Reg.pairLo : Reg → Option Reg
  | .pwrWakeTimeHi => some .pwrWakeTimeLo
  | .hifBar2BaseHi => some .hifBar2BaseLo
  | .qSqbaseHi q => some (.qSqbaseLo q)
  | .qCqbaseHi q => some (.qCqbaseLo q)
  | .dmaBaseHi g => some (.dmaBaseLo g)
  | .ptpTimeHi => some .ptpTimeLo
  | .ptpPpsInHi => some .ptpPpsInLo
  | .echoSeqHi => some .echoSeqLo
  | .echoTailHi => some .echoTailLo
  | .echoDrainHi => some .echoDrainLo
  | .echoReplayEndHi => some .echoReplayEndLo
  | .fltRecStepHi => some .fltRecStepLo
  | .fltCkptStepHi => some .fltCkptStepLo
  | .fltLostHi => some .fltLostLo
  | .tileBeatHi t => some (.tileBeatLo t)
  | .utileBeatHi d r => some (.utileBeatLo d r)
  | .hbmErrAddrHi k => some (.hbmErrAddrLo k)
  | .pgvHoldNsHi d => some (.pgvHoldNsLo d)
  | .svcPosHi n => some (.svcPosLo n)
  | .svcPenPtrHi n => some (.svcPenPtrLo n)
  | .svcKvPtrHi n => some (.svcKvPtrLo n)
  | .feSweepHi d => some (.feSweepLo d)
  | _ => none

/-- A writable pair. -/
def Reg.pairRw (lo : Reg) : Bool := lo.rw ≠ 0

/-! ### Values that a register shows (R35-R39, R70, R71, R149, R151, R176, R352, R435) -/

/-- WAIT_SRC of what a beat waits for (R70). -/
def waitSrc (τ : Tile) : Wait → Nat
  | .take _ _ _ _ | .seval _ _ _ => 5
  | .out _ _ => 9
  | .bundle => 6
  | .ge _ _ | .stuck _ _ => 7
  | .sieve _ _ => 8
  | .recv p _ | .fwd p _ => if p < 4 then p + 1 else 0
  | .addf a b _ _ =>
    let p := if (tget τ.inbox [] a).isEmpty || τ.badPort.contains a then a else b
    if p < 4 then p + 1 else 0
  | _ => 0

/-- STATE, WAIT_SRC and WAIT_EXT of a tile (R70): the first wait of the beat is the one shown, and WAIT_EXT reads 1 while any is external
(R18; DESIGN CHOICE: notes/assumptions/17.md).  A tile that the loaded job has no record for reads DONE (R258). -/
def tileState (s : State) (t : TileId) : Nat × Nat × Nat :=
  let τ := s.tile t
  match τ.mode with
  | .idle => (if jobLoaded s then 6 else 0, 0, 0)
  | .frozen => (4, 0, 0)
  | .halted => (5, 0, 0)
  | .done => (6, 0, 0)
  | .retired => (7, 0, 0)
  | .run =>
    if τ.mid then
      match τ.waits with
      | [] => (1, 0, 0)
      | w :: ws => (2, waitSrc τ w, b2n ((w :: ws).any (waitExternal s t)))
    else if dieStopped s (dieOf t) || stepHeld s τ.step then (3, 0, 0)
    else if τ.bfilled ≤ τ.bpos then (2, 6, 0)
    else (1, 0, 0)

/-- TILE_BEAT (R71, R258). -/
def tileBeat (s : State) (t : TileId) : Nat :=
  let τ := s.tile t
  if jobLoaded s && !τ.hasRec then 1 else τ.beat

/-- Physical column and row map of a tile (R36, R38). -/
def tilePhys (s : State) (t : TileId) : Nat := physCol s (dieOf t) (physRow s (dieOf t) (rowOf t).toNat) (colOf t).toNat

/-- What a register shows: most show the word they hold; the others show state of the module. -/
def readReg (s : State) (r : Reg) : U32 :=
  match r with
  | .glbTblset i => (sha3 tblBytes).extractLsb' (224 - 32 * i.toNat) 32
  | .secChallenge _ => if s.ent.alarm then 0 else s.reg r
  | .cgsSeed _ _ _ => if 2 ≤ s.sec.session then s.reg r else 0
  | .svcSeed _ _ => if 2 ≤ s.sec.session then s.reg r else 0
  | .admStatus => F.admStatus_PENDING.put (F.admStatus_BOUND.put (s.reg r) (allStreams.filter fun n => !streamFree s n).length) s.hif.pool.length
  | .tileId t => F.tileId_PHYS_COL.put (s.reg r) (tilePhys s t)
  | .utileId d row => F.tileId_PHYS_COL.put (s.reg r) (s.fget (.dieRowmap d row) F.dieRowmap_UNMAPPED)
  | .tileStatus t =>
    let τ := s.tile t
    let x := tileState s t
    F.tileStatus_STATE.put (F.tileStatus_ACC_SET.put (F.tileStatus_MAINT.put (F.tileStatus_WAIT_EXT.put (F.tileStatus_WAIT_SRC.put 0 x.2.1) x.2.2)
      (b2n τ.maint.isSome)) (b2n τ.accSel)) x.1
  | .tileBeatLo t => BitVec.ofNat 32 (tileBeat s t)
  | .tileBeatHi t => BitVec.ofNat 32 (tileBeat s t / 2 ^ 32)
  | .tilePc t => F.tilePc_LOOP_DEPTH.put (F.tilePc_ADDR.put 0 ((s.tile t).bpos % 4096)) (s.tile t).loops.length
  | _ => s.reg r

/-! ### The scratchpad through TILE_SPM_DATA (R51, R436) -/

/-- What a window lets the control network reach: its TILE_SPM_ADDR and TILE_ERR, its scratchpad, whether the tile's state lets an access
pass, and what a write mends of the scratchpad's code. -/
structure SpmWin where
  addr : Reg
  err : Reg
  base : Nat
  pass : Bool
  tile : Option TileId
  deriving DecidableEq, Repr

/-- The window of a logical tile. -/
def tileSpm (t : TileId) (s : State) : SpmWin :=
  let st := (tileState s t).1
  { addr := .tileSpmAddr t, err := .tileErr t, base := spm t 0 0, pass := st = 0 || st = 4 || st = 5 || st = 6, tile := some t }

/-- The window of a row's unmapped tile, which is idle or retired. -/
def utileSpm (d : DieId) (r : BitVec 4) (s : State) : SpmWin :=
  { addr := .utileSpmAddr d r, err := .utileErr d r, base := spmUnmapped d r, pass := s.fget (.utileStatus d r) F.tileStatus_STATE = 0, tile := none }

/-- TILE_SPM_ADDR advances by one word, and wraps. -/
def SpmWin.next (w : SpmWin) : Act := modReg w.addr fun a => BitVec.ofNat 32 ((a.toNat + 4) % 0x100000)

/-- CTL_BUSY of the window. -/
def SpmWin.busy (w : SpmWin) : Act := setF w.err F.tileErr_CTL_BUSY 1

/-- The answer to a read. -/
def answer (v : U32) : Act := modOut fun o => { o with read := v }

/-- A read of TILE_SPM_DATA. -/
def spmRead (win : State → SpmWin) : Act :=
  actGet id fun s =>
    let w := win s
    if jobLoaded s ∧ s.sec.session < 2 then answer 0
    else if w.pass then actSeq (answer (BitVec.ofNat 32 (leAt (s.bytes (w.base + (s.reg w.addr).toNat) 4) 0 4))) w.next
    else actSeq w.busy (answer 0xACCE55ED)

/-- A write of TILE_SPM_DATA, which makes the code of its word right. -/
def spmWrite (win : State → SpmWin) (v : U32) : Act :=
  actGet id fun s =>
    let w := win s
    let a := (s.reg w.addr).toNat
    if jobLoaded s ∧ s.sec.session < 3 then actSeq w.busy denied
    else if w.pass then actAll [
      store (w.base + a) (leBytes 4 v.toNat),
      actOpt w.tile fun t => modTile t fun τ => τ.mended (a / 64) (1#8 <<< (a % 64 / 8)),
      w.next]
    else w.busy

/-- TILE_SPM_DATA_READ. -/
def execTileSpmDataRead (t : TileId) (s : State) : Host.Outcome State Fault Refusal :=
  s.does (reach (Reg.tileSpmData t).addr false (spmRead (tileSpm t)))

/-- TILE_SPM_DATA_WRITE. -/
def execTileSpmDataWrite (t : TileId) (v : U32) (s : State) : Host.Outcome State Fault Refusal :=
  s.does (reachReg (.tileSpmData t) (spmWrite (tileSpm t) v))

/-! ### Reads -/

/-- A read of the word at an offset, with its side effects (R10, R11, R349, R463). -/
def busRead (off : Nat) : Act :=
  actGet (fun s => regAt s off) fun o =>
    match o with
    | none => answer 0
    | some (.mbxEvt i) => actSeq (actOn (i = 0) popEvent) (actGet (fun s => s.reg (.mbxEvt i)) answer)
    | some (.tileSpmData t) => spmRead (tileSpm t)
    | some (.utileSpmData d r) => spmRead (utileSpm d r)
    | some r =>
      match r.pairLo, r.pairHi with
      | some _, _ => actGet (fun s => tget s.latched 0 r) answer
      | none, some h => actGet id fun s => actSeq (fun _ => [.latched (tset s.latched h (readReg s h))]) (answer (readReg s r))
      | none, none => actGet (fun s => readReg s r) answer

/-- A read of PTP_TIME shows the time of the read (R374). -/
def timeAt (off now : Nat) : Act := actOn (decide (off = Reg.ptpTimeLo.addr)) (setPair .ptpTimeLo .ptpTimeHi now)

/-- PAIR_LO_READ: a read of a LO register latches HI (R11); `now` is PTP time in ns. -/
def execPairLoRead (off : Nat) (now : U64) (s : State) : Host.Outcome State Fault Refusal :=
  s.does (reach off false (actWhen (fun s => ((regAt s off).bind Reg.pairHi).isSome) (actSeq (timeAt off now.toNat) (busRead off))))

/-! ### Writes -/

/-- A write by access type (R12): RW bits take the value, W1C bits clear where it is 1, all others stay. -/
def Reg.written (r : Reg) (old v : U32) : U32 := ((old &&& ~~~r.rw) ||| (v &&& r.rw)) &&& ~~~(v &&& r.w1c)

/-- The register takes a write by its access type. -/
def plainWrite (r : Reg) (v : U32) : Act := modReg r fun w => r.written w v

/-- The stream context that a register belongs to (R176). -/
def Reg.ctxOf : Reg → Option (BitVec 9)
  | .svcCtrl n | .svcResult n | .svcPosLo n | .svcPosHi n | .svcSeed n _ | .svcInvT n | .svcC n | .svcTopP n | .svcFilt n | .svcPenPtrLo n
  | .svcPenPtrHi n | .svcKvPtrLo n | .svcKvPtrHi n | .svcHostTmo n | .svcYSel n | .svcM n | .svcS n => some n
  | _ => none

/-- The write is dropped while this holds: bases of an enabled queue (R352), and groups and roster while a job is loaded (R378). -/
def writeLocked (s : State) : Reg → Bool
  | .qSqbaseLo q | .qSqbaseHi q | .qCqbaseLo q | .qCqbaseHi q => s.flag (.qCfg q) F.qCfg_EN
  | .bxtMgroup _ | .bxtRoster _ => jobLoaded s
  | _ => false

/-- A pair takes both halves (R11). -/
def commitPair (lo hi : Reg) (l h : U32) : Act :=
  match hi with
  | .hifBar2BaseHi => actGet (fun s => s.hif.bar2Size) fun n =>
      setPair lo hi ((l.toNat + 2 ^ 32 * (h.toNat % 512)) / n * n)
  | .echoDrainHi => writeDrain (l.toNat + 2 ^ 32 * h.toNat)
  | _ => actSeq (plainWrite lo l) (plainWrite hi h)

/-- A write of a register without a behaviour of its own: LO is held until HI is written, HI commits both halves or itself alone, and
every other register takes the write by its access type (R11, R12). -/
def pairWrite (r : Reg) (v : U32) : Act :=
  match r.pairHi, r.pairLo with
  | some _, _ => if r.pairRw then (fun s => [.held (tset s.held r v)]) else actNop
  | none, some lo =>
    if lo.pairRw then actGet id fun s => actSeq (fun _ => [.held (tdel s.held lo)]) (commitPair lo r ((tfind s.held lo).getD (s.reg lo)) v)
    else actNop
  | none, none => plainWrite r v

/-- A write of SVC_CTRL (R168). -/
def writeSvcCtrl (n : BitVec 9) (v : U32) : Act :=
  actIf (fun s => streamFree s n) (plainWrite (.svcCtrl n) v) (actGet (fun s => s.reg (.svcCtrl n)) fun w =>
    actSeq (actOn (F.svcCtrl_WR_REJ.get v = 1) (setF (.svcCtrl n) F.svcCtrl_WR_REJ 0))
      (actOn (decide (v &&& (Reg.svcCtrl n).rw ≠ w &&& (Reg.svcCtrl n).rw)) (setF (.svcCtrl n) F.svcCtrl_WR_REJ 1)))

/-- A write of a field of a stream context: dropped with WR_REJ unless the context is FREE (R168). -/
def writeSvc (n : BitVec 9) (r : Reg) (v : U32) : Act :=
  actIf (fun s => streamFree s n) (pairWrite r v) (setF (.svcCtrl n) F.svcCtrl_WR_REJ 1)

/-- A write of SYNC_CNT (R246). -/
def writeSync (c : BitVec 13) (v : U32) : Act :=
  actIf jobLoaded (setF (.syncFault (c.extractLsb' 10 3)) F.syncFault_CTL_WR 1) (setReg (.syncCnt c) v)

/-- A write of GLB_OFFACCESS_COUNT (R245). -/
def offClear : Act := actSeq (setReg .offCount 0) (actEach (List.range 8) fun i => setReg (.offAddr (BitVec.ofNat 3 i)) 0)

/-- A write of SEC_HALT (R445). -/
def writeHalt (v : U32) : Act :=
  match F.secHalt_CMD.get v with
  | 1 => halt v
  | 2 => resume v
  | 3 => stepTile v
  | _ => actNop

/-- A write of PWR_REQ (R384, R399). -/
def writePwrReq (v : U32) (a : Access) : Act :=
  if F.pwrReq_TARGET.get v = 0 then wakeFrom 1 a.now
  else powerRequest (F.pwrReq_TARGET.get v) (decide (F.pwrReq_FORCE.get v = 1)) { delays := a.delays, silent := a.silent }

/-- A write of a register: those whose tables give them a behaviour of their own act by it, every other by its access type; `source` is
the requester as SEC_DBG_STATUS.SRC codes it. -/
def writeReg (r : Reg) (v : U32) (source : Nat) (a : Access) : Act :=
  match r with
  | .offCount => actOn (F.offCount_CLEAR.get v = 1) offClear
  | .pwrReq => writePwrReq v a
  | .pwrPeakW => actOn (F.pwrPeakW_CLEAR.get v = 1) peakClear
  | .bootCtrl => actAll [
      plainWrite r v,
      actOn (F.bootCtrl_START.get v = 1) startStanding,
      actOn (F.bootCtrl_ENTER_RECOVERY.get v = 1) askRecovery]
  | .fltCtrl => actAll [
      plainWrite r v,
      actOn (F.fltCtrl_APPROVE.get v = 1) (approve { fixed := a.fixed, linkUp := a.linkUp, lost := a.lost, now := a.now / 10 ^ 6 }),
      actOn (F.fltCtrl_DECLINE.get v = 1) decline]
  | .fltSelftest => actEach ((List.range 3).filter fun i => (F.fltSelftest_REQ.get v).testBit i) fun i => askSelftest i (F.fltSelftest_FORCE.get v = 1)
  | .qCfg q => writeQCfg q v
  | .dmaCfg g => writeDmaCfg g v
  | .dmaTail g => writeDmaTail g v
  | .mbxCmd =>
    if F.mbxCmd_GO.get v = 1 then mailbox (F.mbxCmd_CMD.get v) (F.mbxCmd_LEN.get v)
    else actIf (fun s => s.flag .mbxStatus F.mbxStatus_BUSY) (setF .mbxStatus F.mbxStatus_OVERRUN 1) (plainWrite r v)
  | .entCtrl => actSeq (actOn (F.entCtrl_KAT.get v = 1) askKat) (actOn (F.entCtrl_RESEED.get v = 1) askReseed)
  | .secLcReq => actWhen (fun s => !s.sec.resetDue) (transition (F.secLcReq_TARGET.get v) a.bad)
  | .secTokenCtrl => actSeq (actOn (F.secTokenCtrl_GO.get v = 1) tokenGo) (actOn (F.secTokenCtrl_NEW.get v = 1) newChallenge)
  | .secDbgCtrl => actAll [
      plainWrite r v,
      actOn (F.secDbgCtrl_CLOSE.get v = 1) closeSession,
      actOn (F.secDbgCtrl_OPEN.get v = 1) (writeOpen v source)]
  | .secHalt => writeHalt v
  | .secKeyslot => actOn (F.secKeyslot_REVOKE.get v = 1) (revoke a.bad.isSome)
  | .secAttCtrl => actSeq (plainWrite r v) (actOn (F.secAttCtrl_GO.get v = 1) attest)
  | .tileSpmData t => spmWrite (tileSpm t) v
  | .utileSpmData d r => spmWrite (utileSpm d r) v
  | .syncCnt c => writeSync c v
  | .svcCtrl n => writeSvcCtrl n v
  | _ =>
    match r.ctxOf with
    | some n => writeSvc n r v
    | none => actWhen (fun s => !writeLocked s r) (pairWrite r v)

/-- A write of the word at an offset; one that no block defines is dropped (R10). -/
def busWrite (off : Nat) (v : U32) (source : Nat) (a : Access) : Act :=
  actGet (fun s => regAt s off) fun o => actOpt o fun r => writeReg r v source a

/-- SVC_CTRL_WRITE (R168). -/
def execSvcCtrlWrite (n : BitVec 9) (v : U32) (s : State) : Host.Outcome State Fault Refusal :=
  s.does (reachReg (.svcCtrl n) (actOn (decide (n.toNat < 384)) (writeSvcCtrl n v)))

/-- SVC_CONTEXT_WRITE: the word at offset `off` of a stream context, SVC_CTRL apart (R168, R176). -/
def execSvcContextWrite (n : BitVec 9) (off : Nat) (v : U32) (s : State) : Host.Outcome State Fault Refusal :=
  s.does (actOn (decide (n.toNat < 384) && decide (4 ≤ off) && decide (off < 0x80))
    (reach ((Reg.svcCtrl n).addr + off) true (actGet (fun s => regAt s ((Reg.svcCtrl n).addr + off)) fun o => actOpt o fun r => writeSvc n r v)))

/-- SYNC_CNT_WRITE (R246). -/
def execSyncCntWrite (c : BitVec 13) (v : U32) (s : State) : Host.Outcome State Fault Refusal :=
  s.does (reachReg (.syncCnt c) (writeSync c v))

/-- POWERED_OFF_ACCESS: an access by the host, or by the MC, at an offset whose block is off (R236, R237). -/
def execPoweredOffAccess (off : Nat) (write mc : Bool) (s : State) : Host.Outcome State Fault Refusal :=
  s.does (actWhen (fun s => decide (pstate s < 4) && offBlock s off) (offAccess off write mc))

/-- OFFACCESS_CLEAR (R245). -/
def execOffaccessClear (s : State) : Host.Outcome State Fault Refusal := s.does (reachReg .offCount offClear)

/-- PAIR_LO_WRITE: a write of a writable pair's LO is held until HI is written (R11). -/
def execPairLoWrite (off : Nat) (v : U32) (s : State) : Host.Outcome State Fault Refusal :=
  s.does (reach off true (actWhen (fun s => ((regAt s off).bind Reg.pairHi).isSome) (busWrite off v 1 {})))

/-- PAIR_HI_WRITE: a write of a pair's HI commits both halves, or HI alone (R11). -/
def execPairHiWrite (off : Nat) (v : U32) (s : State) : Host.Outcome State Fault Refusal :=
  s.does (reach off true (actWhen (fun s => ((regAt s off).bind Reg.pairLo).isSome) (busWrite off v 1 {})))

/-- REGISTER_WRITE: the host writes a word of BAR0; one without all four byte enables is dropped (R10, R12, R463). -/
def execRegisterWrite (off : Nat) (v : U32) (enables : BitVec 4) (a : Access) (s : State) : Host.Outcome State Fault Refusal :=
  s.does (actOn (decide (enables = 15)) (reach (off / 4 * 4) true (busWrite (off / 4 * 4) v 1 a)))

end Sys2Proof.Machine
end

