-- ==== Sys2Proof/Machine/Cg.lean ====
section
/-!
DEFINITION. The commands of the counter generator and the fresh seeds (R61, R62, R125-R147, R267).
-/
namespace Sys2Proof.Machine

/-- CG_LDKEY: a seed-store entry of the tile's own die into a key slot; one that is not valid is waited for (R131). -/
def execCgLdkey (t : TileId) (entry : BitVec 4) (slot : Nat) (s : State) : Host.Outcome State Fault Refusal :=
  s.does (inBeat t (actIf (fun s => seedValid s (dieOf t) entry)
    (actGet (fun s => seedEntry s (dieOf t) entry) fun v => loadKey t slot v)
    (addWait t (.key entry.toNat slot))))

/-- CG_XSET: a CGX register takes the site's base index plus a literal (R138, R261). -/
def execCgXset (t : TileId) (sp : Nat) (s : State) : Host.Outcome State Fault Refusal :=
  s.does (inBeat t (actGet id fun s =>
    let d := spdOf (s.tile t) sp
    addWrite t (.cgx d.sub ((siteOf s d.site).base + d.p0))))

/-- CG_DRAW: issue the counter block of the element that a CGX register names (R127, R136-R139). -/
def execCgDraw (t : TileId) (sp slot xreg : Nat) (xinc : Bool) (code : Nat) (s : State) : Host.Outcome State Fault Refusal :=
  s.does (inBeat t (actGet (fun s => s.tile t) fun τ =>
    let d := spdOf τ sp
    actSeq
      (actOpt (DrawKind.ofCode d.sub) fun k =>
        let n := 128 / k.width
        let blk := τ.cgxreg xreg / n
        issueBlock t {
          beat := τ.beat, seed := τ.seed slot, ctr := cgCounter τ.step d.site 0 blk, kind := d.sub, thr := d.p0 % 2 ^ 16,
          vreg := d.vreg, lane0 := (blk * n) % 16 })
      (actOn xinc (addWrite t (.cgxInc xreg (cgxCode code))))))

/-- CG_BLOCK_EMERGE: blocks issued ten beats ago emerge and their slices reach their consumers (R61, R145). -/
def execCgBlockEmerge (t : TileId) (s : State) : Host.Outcome State Fault Refusal := s.does (inBeat t (emergeDue t))

/-- TABLE_TRANSFORM: tabled draws whose block emerged one beat ago are evaluated and written (R142-R145). -/
def execTableTransform (t : TileId) (s : State) : Host.Outcome State Fault Refusal := s.does (inBeat t (tableDue t))

/-- A fresh seed is asked of the DRBG; on a rank other than 0 it comes from rank 0 (R133, R134). -/
def askFresh (n : Nat) : Act :=
  actWhen (fun s => s.job.rank = 0) (drbgAsk 128 (.fresh n))

/-- FRESH_SEED: the entry becomes invalid on every die, and the beat waits for the new value (R133-R135). -/
def execFreshSeed (t : TileId) (entry : BitVec 4) (s : State) : Host.Outcome State Fault Refusal :=
  let n := entry.toNat
  s.does (inBeat t (actAll [
    actEach allDies fun d => actSeq (modReg (.cgsStatus d) fun w => clrBit w n) (modReg (.cgsPending d) fun w => setBit w n),
    addWait t (.fresh n),
    consume 3 n (fun seq e => takeSource seq e [.fresh n (BitVec.ofNat 128 e.payload)]) (askFresh n)]))

/-- FRESH_SEED_COMPLETE: the served value is logged and written on every die, and the issuing beat completes (R133); rank 0 sends
it to every other rank (R134, R375). -/
def execFreshSeedComplete (entry : BitVec 4) (s : State) : Host.Outcome State Fault Refusal :=
  let n := entry.toNat
  s.does (actGet (fun s => if bitOf (s.reg (.cgsPending 0)) n then s.job.fresh.find? fun p => p.1 = n else none) fun o => actOpt o fun p => actAll [
    modJob fun j => { j with fresh := j.fresh.erase p },
    actGet (fun s => if s.job.rank = 0 then otherRanks s else []) fun rs => actEach rs fun r =>
      sendExpress r 7 (leBytes 1 1 ++ leBytes 7 0 ++ leBytes 1 n ++ leBytes 7 0 ++ leBytes 16 p.2.toNat),
    ingress [{
      entry := { typ := 3, agent := n, len := 16, payload := p.2.toNat }, acts := [.fresh n p.2] }]])

end Sys2Proof.Machine
end

