-- ==== Sys2Proof/Machine/Ctl.lean ====
section
/-!
DEFINITION. The commands of the CTL slot and the idle beat (R42-R45, R128, R274).  Each ends the beat that the tile is in.
-/
namespace Sys2Proof.Machine

/-- A bundle whose bits are all zero: an idle beat, which counts and waits for nothing (R42). -/
def execIdleBeat (t : TileId) (s : State) : Host.Outcome State Fault Refusal := s.does (ctl t 0 0)

/-- NEXT: proceed to the next bundle (R43). -/
def execNext (t : TileId) (s : State) : Host.Outcome State Fault Refusal := s.does (ctl t 0 0)

/-- LOOP_BEGIN: open a level of ARG + 1 iterations whose body starts at this bundle (R43). -/
def execLoopBegin (t : TileId) (arg : Nat) (s : State) : Host.Outcome State Fault Refusal := s.does (ctl t 1 arg)

/-- LOOP_END: count the innermost level down; return to its first bundle, or close it (R43). -/
def execLoopEnd (t : TileId) (s : State) : Host.Outcome State Fault Refusal := s.does (ctl t 2 0)

/-- STEP_END: the end of a program step for this tile (R43, R128). -/
def execStepEnd (t : TileId) (s : State) : Host.Outcome State Fault Refusal := s.does (ctl t 3 0)

/-- LOOP_ONE: ARG + 1 iterations of this bundle alone (R43, R44). -/
def execLoopOne (t : TileId) (arg : Nat) (s : State) : Host.Outcome State Fault Refusal := s.does (ctl t 7 arg)

/-- MAINT_END: the last beat of a maintenance slot (R43). -/
def execMaintEnd (t : TileId) (s : State) : Host.Outcome State Fault Refusal := s.does (ctl t 5 0)

/-- HALT: the tile has finished the job (R43). -/
def execHalt (t : TileId) (s : State) : Host.Outcome State Fault Refusal := s.does (ctl t 6 0)

/-- Declaration of a maintenance slot (R274). -/
def maintOf (s : State) (arg : Nat) : MaintDecl :=
  (s.job.img.maint.find? fun m => m.slot = arg).getD { slot := arg }

/-- A scrub reads a line through the code and writes the corrected words back (R50, R274). -/
def scrubLine (t : TileId) (p : Nat × Nat × Ecc) : Act :=
  actSeq (readLine t p.1 p.2.1 p.2.2 fun _ => actNop)
    (modTile t fun τ => τ.mended (lineKey p.1 p.2.1) (~~~(tget τ.upset {} (lineKey p.1 p.2.1)).ue))

/-- The tasks of a maintenance slot that are permitted and fit: a scrub of one line per beat after 8 beats, a spot check in
40 beats, a self-test in 64 (R274, R310, R147).  The self-test compares the CRC of the chunk as it is read with the one kept: `crc` is what wrong
bits in the table memory change in it.  The tasks wait while the MC is absent (R327). -/
def maintTasks (t : TileId) (d : MaintDecl) (mxBad cgBad : Bool) (crc : U32) (scrub : List (Nat × Nat × Ecc)) : Act :=
  actAll [
    actOn (d.tasks.testBit 0) (actEach (scrub.take (d.length - 8)) (scrubLine t)),
    actOn (d.tasks.testBit 1 && decide (40 ≤ d.length))
      (if mxBad then tileFault t F.tileErr_MX_CHECK
        else actGet (fun s => (s.tile t).step) fun n => modFlt fun x => { x with mxPass := tset x.mxPass t n }),
    actOn (d.tasks.testBit 2 && decide (64 ≤ d.length))
      (actGet (fun s => (s.tile t).tblPtr) fun i => actAll [
        modTile t fun τ => { τ with tblPtr := (τ.tblPtr + 1) % 48 },
        actIf (fun s => cgBad || s.boot.tblCrc.getD i 0 ≠ s.boot.tblCrc.getD i 0 ^^^ crc) (tileFault t F.tileErr_CG_CHECK) actNop])]

/-- MAINT_BEGIN: open maintenance slot ARG and run what fits (R43, R274); whether the checks agree and which words the scrub
finds wrong comes from outside. -/
def execMaintBegin (t : TileId) (arg : Nat) (mxBad : Bool) (cg : CgCheck) (scrub : List (Nat × Nat × Ecc)) (s : State) :
    Host.Outcome State Fault Refusal :=
  s.does (actSeq
    (inBeat t (actGet id fun s => actOn (!s.flt.mcAbsent) (maintTasks t (maintOf s arg) mxBad cg.bad cg.crc scrub)))
    (ctl t 4 arg))

end Sys2Proof.Machine
end

