-- ==== Sys2Proof/Machine/Mgmt.lean ====
section
/-!
DEFINITION. The management endpoint (SMBus/MCTP) and the JTAG TAP (R436, R456-R458).
-/
namespace Sys2Proof.Machine

/-! ### MCTP (R456, R457) -/

/-- Completion codes of DSP0236 (notes/assumptions/31.md). -/
def errInvalidData : Nat := 2
def errNotReady : Nat := 4

/-- A response leaves. -/
def respond (err : Nat) (ws : List U32) : Act := modOut fun o => { o with mctp := ws, mctpErr := err }

/-- Registers of the AON domain, which answer in every state (R399). -/
def aonOffset (off : Nat) : Bool := inRange off 0x20000 0x20050

/-- Counter registers (R436, notes/assumptions/31.md). -/
def Reg.isCounter : Reg → Bool
  | .offCount | .pwrWakeCnt _ | .entReqSince | .entReseeds | .entHostInput | .hifBar2Wrdrop | .imgWrdrop _ => true
  | .bxtPortRetx _ | .bxtPortDrop _ | .bxtEvents | .bxtRelLate | .tileBeatLo _ | .tileBeatHi _ | .tileEcc _ | .tileFlitRetry _ => true
  | .hbmCeCount _ | .d2dRetry _ _ | .feConflictCount _ | .feSweepLo _ | .feSweepHi _ | .rsTraceCount _ | .rsTraceDrop _ | .rsXchgSkip _ => true
  | _ => false

/-- D1 registers: PGV, PWR, HBM_STATUS, FLT and counters (R436). -/
def Reg.isTelemetry (r : Reg) : Bool :=
  r.within 0x20000 0x30000 || r.within 0x140000 0x150000 || r.isCounter ||
    (match r with
      | .hbmStatus _ => true
      | _ => decide (0x1000000 ≤ r.addr) && decide (r.addr % 0x400000 / 0x10000 = 0x38))

/-- READ_REG of an offset is permitted (R457). -/
def mayRead (s : State) (off : Nat) : Bool := (regAt s off).any Reg.isTelemetry || decide (s.sec.source = 2)

/-- A request beyond the AON status cannot be answered: S4 or S5, or the MC is absent (R327, R456). -/
def notReady (s : State) (off : Nat) : Bool := !aonOffset off && (decide (4 ≤ pstate s) || s.flt.mcAbsent)

/-- A read by the endpoint: the AON registers in every state, others under R236. -/
def mcRead (off now : Nat) : Act :=
  actIf (fun s => !aonOffset off && offBlock s off) (offAccess off false true) (actSeq (timeAt off now) (busRead off))

/-- READ_REG (R457); `now` is PTP time in ns. -/
def execReadReg (off : Nat) (now : U64) (s : State) : Host.Outcome State Fault Refusal :=
  s.does (actWhen (fun s => s.pins.inputUp)
    (actIf (fun s => notReady s off) (respond errNotReady [])
      (actIf (fun s => mayRead s off) (actSeq (mcRead off now.toNat) (actGet (fun s => s.out.read) fun v => respond 0 [v]))
        (respond errInvalidData []))))

/-- The registers that WRITE_REG may write (R457). -/
def mayWrite (s : State) (off : Nat) : Bool :=
  match regAt s off with
  | some .pwrReq | some .pwrRefuse | some .pwrFault | some (.secTokenBuf _) | some .secTokenCtrl | some .secDbgCtrl => true
  | _ => false

/-- A write by the endpoint; a debug session may open in S4 and S5 too (R439). -/
def mcWrite (off : Nat) (v : U32) (a : Access) : Act :=
  actIf (fun s => !aonOffset off && offBlock s off) (offAccess off true true) (busWrite off v 2 a)

/-- WRITE_REG (R457). -/
def execWriteReg (off : Nat) (v : U32) (a : Access) (s : State) : Host.Outcome State Fault Refusal :=
  s.does (actWhen (fun s => s.pins.inputUp)
    (actIf (fun s => mayWrite s off)
      (actIf (fun s => notReady s off && !(decide (off = Reg.secDbgCtrl.addr) && !s.flt.mcAbsent)) (respond errNotReady [])
        (actSeq (mcWrite off v a) (respond 0 [])))
      (respond errInvalidData [])))

/-- WAKE: wake source SMBUS (R392, R457). -/
def execWake (now : U64) (s : State) : Host.Outcome State Fault Refusal :=
  s.does (actWhen (fun s => s.pins.inputUp) (actSeq (wakeFrom 5 now.toNat) (respond 0 [])))

/-- STATUS (R457); in S4 and S5 only what AON holds (R381). -/
def execStatus (s : State) : Host.Outcome State Fault Refusal :=
  s.does (actWhen (fun s => s.pins.inputUp) (actGet id fun s =>
    respond 0 ([s.reg .pwrState, s.reg .pwrFault, s.reg .pwrTherm] ++ if pstate s < 4 then [s.reg .glbStatus] else [])))

/-- SMBUS_ALERT_RESPONSE: the endpoint that pulls ALERT_N low answers the Alert Response Address with its own address, and releases the
pin (R456, notes/assumptions/31.md). -/
def execSmbusAlertResponse (s : State) : Host.Outcome State Fault Refusal :=
  s.does (actWhen (fun s => s.pins.inputUp) (actGet (fun s => s.pins) fun p =>
    if p.alertN then modOut fun o => { o with smbusAra := none }
    else actSeq (modOut fun o => { o with smbusAra := some (0x64 + p.smbAddr.toNat) }) (modPins fun p => { p with alertN := true })))

/-! ### JTAG (R436, R458) -/

/-- IDCODE. -/
def idcode : U32 := 0x1C580A9D#32

/-- TAP_INSTRUCTION: without a D4 session every instruction but IDCODE acts as BYPASS.  What the further instructions shift out is not
stated and is free (notes/assumptions/4.md). -/
def execTapInstruction (ir : Tap) (s : State) : Host.Outcome State Fault Refusal :=
  s.does (actWhen (fun s => s.pins.inputUp) (actGet (fun s => decide (s.sec.session = 4)) fun d4 =>
    match ir with
    | .idcode => actSeq (modPins fun p => { p with tap := .idcode }) (modOut fun o => { o with tdo := idcode })
    | .bypass => actSeq (modPins fun p => { p with tap := .bypass }) (modOut fun o => { o with tdo := 0 })
    | .other n =>
      if d4 then actSeq (modPins fun p => { p with tap := .other n }) (withFree fun f => modOut fun o => { o with tdo := f.extractLsb' 0 32 })
      else actSeq (modPins fun p => { p with tap := .bypass }) (modOut fun o => { o with tdo := 0 })))

/-- TAP_RESET: TRST_N resets the TAP, and IDCODE is in force (R458, notes/assumptions/31.md). -/
def execTapReset (s : State) : Host.Outcome State Fault Refusal :=
  s.does (actSeq (modPins fun p => { p with tap := .idcode }) (modOut fun o => { o with tdo := idcode }))

end Sys2Proof.Machine
end

