-- ==== Sys2Proof/Machine/Nw.lean ====
section
/-!
DEFINITION. The commands of the NW slots (R67-R69, R120, R223-R226, R265).  Ports: 0 N, 1 E, 2 S, 3 W, 4 L.
-/
namespace Sys2Proof.Machine

/-- A flit whose parity is bad is asked for again, and the move waits for it (R68). -/
def badFlit (t : TileId) (port : Nat) (bad : Bool) : Act := actOn bad (parityError t port)

/-- A move that takes flits: at once where they have arrived whole, else the beat waits for them (R14). -/
def takeFlits (t : TileId) (w : Wait) : Act := actGet (fun s => waitAct s t w) fun o => o.getD (addWait t w)

/-- FWD: forward a flit to up to four output ports (R226). -/
def execFwd (t : TileId) (port mask : Nat) (bad : Bool) (s : State) : Host.Outcome State Fault Refusal :=
  s.does (actSeq (inBeat t (actSeq (badFlit t port bad) (takeFlits t (.fwd port mask)))) settle)

/-- RECV: receive a flit into a vector register, or into the bank line that an index register gives (R265). -/
def execRecv (t : TileId) (port : Nat) (vec : Bool) (n ix : Nat) (inc bad : Bool) (s : State) :
    Host.Outcome State Fault Refusal :=
  s.does (actSeq (inBeat t (actAll [
    badFlit t port bad,
    actGet (fun s => lsLine (s.tile t) 0 true ix) fun l => takeFlits t (.recv port (if vec then .vec n else .bank n l)),
    ixInc t (!vec) inc ix])) settle)

/-- SEND: a vector register with its tag, or a bank line, onto a port (R265). -/
def execSend (t : TileId) (port : Nat) (vec : Bool) (n ix : Nat) (inc : Bool) (e : Ecc) (s : State) :
    Host.Outcome State Fault Refusal :=
  s.does (actSeq (inBeat t (actAll [
    actGet (fun s => s.tile t) fun τ =>
      if vec then sendFlit t port { data := τ.vreg n, tag := τ.tag n }
      else readLine t n (lsLine τ 0 true ix) e fun v => sendFlit t port { data := v },
    ixInc t (!vec) inc ix])) settle)

/-- ADDF: add two sibling partials and send the sum onward (R69, R120). -/
def execAddf (t : TileId) (in1 in2 out slot : Nat) (bad1 bad2 : Bool) (s : State) : Host.Outcome State Fault Refusal :=
  s.does (actSeq (inBeat t (actAll [
    badFlit t in1 bad1, badFlit t in2 bad2, takeFlits t (.addf in1 in2 out slot)])) settle)

/-- FLIT_RESEND: the resent flit arrives and the receiving beat completes; a second parity error is FLIT_FAIL, and what the flit
holds is a free value (R68; notes/assumptions/4.md). -/
def execFlitResend (t : TileId) (port : Nat) (bad : Bool) (s : State) : Host.Outcome State Fault Refusal :=
  s.does (actWhen (fun s => (s.tile t).badPort.contains port && !(tget (s.tile t).inbox [] port).isEmpty) (actAll [
    actOn bad (actAll [
      tileErr t F.tileErr_FLIT_FAIL,
      raiseFault { tileRec t F.tileErr_FLIT_FAIL with port },
      withFree fun v => modTile t fun τ => { τ with
        inbox := tset τ.inbox port (match tget τ.inbox [] port with
          | f :: fs => { f with data := v } :: fs
          | [] => []) }]),
    modTile t fun τ => { τ with badPort := τ.badPort.filter (· ≠ port) },
    settle]))

end Sys2Proof.Machine
end

