-- ==== Sys2Proof/Machine/Sieve.lean ====
section
/-!
DEFINITION. The Sieve's commands (R153-R176, R469).
-/
namespace Sys2Proof.Machine

/-- SV_LDKEY: the stream's seed into a key slot (R169). -/
def execSvLdkey (t : TileId) (sp slot : Nat) (s : State) : Host.Outcome State Fault Refusal :=
  s.does (inBeat t (actGet id fun s =>
    loadKey t slot (svcSeedOf s (BitVec.ofNat 9 (spdOf (s.tile t) sp).p0))))

/-- SV_PASS: one filter pass over the 16 lanes of a score line (R166, R469); SUB names the pass (notes/assumptions/21.md). -/
def execSvPass (t : TileId) (sp xreg : Nat) (xinc : Bool) (code : Nat) (s : State) : Host.Outcome State Fault Refusal :=
  s.does (inBeat t (actGet (fun s => s.tile t) fun τ =>
    let d := spdOf τ sp
    actSeq (feedRow t d 0 d.sub (τ.cgxreg xreg) 0 16) (actOn xinc (addWrite t (.cgxInc xreg (cgxCode code))))))

/-- SV_DRAW: the noised pass over one quarter of the lanes (R157, R469). -/
def execSvDraw (t : TileId) (sp slot xreg : Nat) (xinc : Bool) (code quarter : Nat) (s : State) :
    Host.Outcome State Fault Refusal :=
  s.does (inBeat t (actGet (fun s => s.tile t) fun τ =>
    let d := spdOf τ sp
    actSeq (feedRow t d slot 8 (τ.cgxreg xreg) (4 * quarter) 4) (actOn xinc (addWrite t (.cgxInc xreg (cgxCode code))))))

/-- Every entry of the row has come in its noised pass (R167). -/
def rowReady (r : Row) : Bool := decide (0 < r.len) && decide (r.len ≤ (r.scores.filter fun x => x.pass = 8).length)

/-- The row of a HOST-mode draw goes to the host, and the stream waits for its answer (R171); a draw that replay or recovery executes again
takes the answer from the log without entering HOST_WAIT (R174). -/
def exportRow (n : BitVec 9) (v : Verdict) : Act :=
  actAll [
    actGet (fun s => Config.exportAddr s.job.img.hdr.digest n.toNat) fun a =>
      store (hostMem a) (v.exports.flatMap fun x => leBytes 4 x.toNat),
    actWhen (fun s => !s.echo.replay) (setF (.svcCtrl n) F.svcCtrl_STATE 2),
    modRow n fun r => { r with decided := true, own := v.own, kept := v.kept, rm := v.m, rs := v.s, flags := v.flags }]

/-- SIEVE_DECISION: the combiners reduce a complete row to one index and write the stream's context (R156, R164, R167-R175). -/
def execSieveDecision (n : BitVec 9) (s : State) : Host.Outcome State Fault Refusal :=
  s.does (actWhen (fun s => rowReady (s.row n) && !(s.row n).decided) (actGet id fun s =>
    let r := s.row n
    let v := decideRow s n r
    actAll [
      actEach v.errs fun p => tileFp p.1 p.2,
      (if v.status ≠ 0 then actSeq (endDraw n v.status v.flags false) (closeRow n)
        else if r.mode = 2 then actSeq (exportRow n v) advance
        else actSeq (goodDraw n v.flags false v.own v.y v.m v.s) (closeRow n))]))

/-- COMB_RETRY: a result on its way to a combiner, in any pass of an open row, whose parity failed is resent; a second failure is
COMB_FAIL, a fault (R166, R174). -/
def execCombRetry (d : DieId) (n : BitVec 9) (bad : Bool) (s : State) : Host.Outcome State Fault Refusal :=
  s.does (actWhen (fun s => decide (0 < (s.row n).len)) (actAll [
    setF (.svdFault d) F.svdFault_COMB_RETRY 1,
    actOn bad (actAll [
      setF (.svdFault d) F.svdFault_COMB_FAIL 1,
      raiseFault { code := 0x8D, die := d.toNat, loc := n.toNat }])]))

/-- HOST_TIMEOUT: SVC_HOST_TMO expires; the timeout enters through the ingress as an answer of all ones (R173, R295). -/
def execHostTimeout (n : BitVec 9) (s : State) : Host.Outcome State Fault Refusal :=
  s.does (actWhen (fun s => s.fget (.svcCtrl n) F.svcCtrl_STATE = 2 && s.fget (.svcHostTmo n) F.svcHostTmo_MS ≠ 0)
    (ingress [{ entry := { typ := 9, agent := n.toNat, aux := 2 ^ 64 - 1 }, acts := [.answer n.toNat (2 ^ 64 - 1)] }]))

/-- SV_CTXRD: the stream's context into a vector register; while a draw of the stream is open, the beat waits (R170, R171). -/
def execSvCtxrd (t : TileId) (sp : Nat) (s : State) : Host.Outcome State Fault Refusal :=
  s.does (inBeat t (actGet id fun s =>
    let d := spdOf (s.tile t) sp
    let n : BitVec 9 := BitVec.ofNat 9 d.p0
    if (s.row n).len = 0 then readCtx t n d.vreg else addWait t (.sieve n.toNat d.vreg)))

end Sys2Proof.Machine
end

