-- ==== Sys2Proof/Machine/Dispatch.lean ====
section
/-!
DEFINITION. The effect of one command on everything but the queue: one arm per row of spec/opcode_table.json.
-/
namespace Sys2Proof.Machine

def exec (i : Instr) (s : State) : Host.Outcome State Fault Refusal :=
  match i with
  | .idleBeat t => Sys2Proof.Machine.execIdleBeat t s
  | .stallWatchdogExpiry d => Sys2Proof.Machine.execStallWatchdogExpiry d s
  | .droopHoldAssert d r => Sys2Proof.Machine.execDroopHoldAssert d r s
  | .droopHoldRelease d e => Sys2Proof.Machine.execDroopHoldRelease d e s
  | .droopStuck d => Sys2Proof.Machine.execDroopStuck d s
  | .sensorFail d sensor => Sys2Proof.Machine.execSensorFail d sensor s
  | .sensorRetire d sensor ns => Sys2Proof.Machine.execSensorRetire d sensor ns s
  | .budgetDivide demand avg peak => Sys2Proof.Machine.execBudgetDivide demand avg peak s
  | .pacingAdjust d power pace tj vsense => Sys2Proof.Machine.execPacingAdjust d power pace tj vsense s
  | .vsetAdjust duty => Sys2Proof.Machine.execVsetAdjust duty s
  | .hostCapWrite v => Sys2Proof.Machine.execHostCapWrite v s
  | .hbmStreamIssue n => Sys2Proof.Machine.execHbmStreamIssue n s
  | .hbmStreamElementArrival n bad => Sys2Proof.Machine.execHbmStreamElementArrival n bad s
  | .next t => Sys2Proof.Machine.execNext t s
  | .loopBegin t arg => Sys2Proof.Machine.execLoopBegin t arg s
  | .loopEnd t => Sys2Proof.Machine.execLoopEnd t s
  | .loopOne t arg => Sys2Proof.Machine.execLoopOne t arg s
  | .stepEnd t => Sys2Proof.Machine.execStepEnd t s
  | .maintBegin t arg mxBad cg scrub => Sys2Proof.Machine.execMaintBegin t arg mxBad cg scrub s
  | .maintEnd t => Sys2Proof.Machine.execMaintEnd t s
  | .halt t => Sys2Proof.Machine.execHalt t s
  | .leaf t set td areg ahi breg bhi opn bx bxinc dro dstats => Sys2Proof.Machine.execLeaf t set td areg ahi breg bhi opn bx bxinc dro dstats s
  | .treeNodeForm t n => Sys2Proof.Machine.execTreeNodeForm t n s
  | .drain t set stats => Sys2Proof.Machine.execDrain t set stats s
  | .drainConvert t set => Sys2Proof.Machine.execDrainConvert t set s
  | .park t set td => Sys2Proof.Machine.execPark t set td s
  | .resume t set td => Sys2Proof.Machine.execResume t set td s
  | .vadd t vd va vb rmode fmt => Sys2Proof.Machine.execVadd t vd va vb rmode fmt s
  | .vsub t vd va vb rmode fmt => Sys2Proof.Machine.execVsub t vd va vb rmode fmt s
  | .vmul t vd va vb rmode fmt => Sys2Proof.Machine.execVmul t vd va vb rmode fmt s
  | .vfma t vd va vb vc rmode fmt => Sys2Proof.Machine.execVfma t vd va vb vc rmode fmt s
  | .vmax t vd va vb fmt => Sys2Proof.Machine.execVmax t vd va vb fmt s
  | .vmin t vd va vb fmt => Sys2Proof.Machine.execVmin t vd va vb fmt s
  | .vcmp t vd va vb pred fmt => Sys2Proof.Machine.execVcmp t vd va vb pred fmt s
  | .vsel t vd va vb vc => Sys2Proof.Machine.execVsel t vd va vb vc s
  | .vcvt t vd va src fmt rmode sat => Sys2Proof.Machine.execVcvt t vd va src fmt rmode sat s
  | .vqmx t vd va rmode => Sys2Proof.Machine.execVqmx t vd va rmode s
  | .exp2 t vd va => Sys2Proof.Machine.execExp2 t vd va s
  | .combine t vd va vb trm slot => Sys2Proof.Machine.execCombine t vd va vb trm slot s
  | .pass t vd va l => Sys2Proof.Machine.execPass t vd va l s
  | .fsAdd t va ln => Sys2Proof.Machine.execFsAdd t va ln s
  | .fsRead t vd ln => Sys2Proof.Machine.execFsRead t vd ln s
  | .fsClr t => Sys2Proof.Machine.execFsClr t s
  | .fsRdclr t vd ln => Sys2Proof.Machine.execFsRdclr t vd ln s
  | .statsFin t vd va vb => Sys2Proof.Machine.execStatsFin t vd va vb s
  | .ldv t bank line ixen ix inc reg e => Sys2Proof.Machine.execLdv t bank line ixen ix inc reg e s
  | .stv t bank line ixen ix inc reg => Sys2Proof.Machine.execStv t bank line ixen ix inc reg s
  | .ldm t bank line ixen ix inc reg e => Sys2Proof.Machine.execLdm t bank line ixen ix inc reg e s
  | .tkv t bank line ixen ix inc reg e => Sys2Proof.Machine.execTkv t bank line ixen ix inc reg e s
  | .tkm t bank line ixen ix inc reg e => Sys2Proof.Machine.execTkm t bank line ixen ix inc reg e s
  | .std t bank line ixen ix inc set => Sys2Proof.Machine.execStd t bank line ixen ix inc set s
  | .ixset t ix line => Sys2Proof.Machine.execIxset t ix line s
  | .fwd t port mask bad => Sys2Proof.Machine.execFwd t port mask bad s
  | .recv t port vec n ix inc bad => Sys2Proof.Machine.execRecv t port vec n ix inc bad s
  | .send t port vec n ix inc e => Sys2Proof.Machine.execSend t port vec n ix inc e s
  | .addf t in1 in2 out slot bad1 bad2 => Sys2Proof.Machine.execAddf t in1 in2 out slot bad1 bad2 s
  | .flitResend t port bad => Sys2Proof.Machine.execFlitResend t port bad s
  | .set t handle vreg stepv => Sys2Proof.Machine.execSet t handle vreg stepv s
  | .inc t handle => Sys2Proof.Machine.execInc t handle s
  | .add t handle vreg stepv => Sys2Proof.Machine.execAdd t handle vreg stepv s
  | .waitGe t handle vreg stepv => Sys2Proof.Machine.execWaitGe t handle vreg stepv s
  | .cgLdkey t entry slot => Sys2Proof.Machine.execCgLdkey t entry slot s
  | .cgXset t sp => Sys2Proof.Machine.execCgXset t sp s
  | .cgDraw t sp slot xreg xinc code => Sys2Proof.Machine.execCgDraw t sp slot xreg xinc code s
  | .cgBlockEmerge t => Sys2Proof.Machine.execCgBlockEmerge t s
  | .tableTransform t => Sys2Proof.Machine.execTableTransform t s
  | .freshSeed t entry => Sys2Proof.Machine.execFreshSeed t entry s
  | .freshSeedComplete entry => Sys2Proof.Machine.execFreshSeedComplete entry s
  | .svLdkey t sp slot => Sys2Proof.Machine.execSvLdkey t sp slot s
  | .svPass t sp xreg xinc code => Sys2Proof.Machine.execSvPass t sp xreg xinc code s
  | .svDraw t sp slot xreg xinc code quarter => Sys2Proof.Machine.execSvDraw t sp slot xreg xinc code quarter s
  | .sieveDecision n => Sys2Proof.Machine.execSieveDecision n s
  | .combRetry d n bad => Sys2Proof.Machine.execCombRetry d n bad s
  | .hostTimeout n => Sys2Proof.Machine.execHostTimeout n s
  | .svCtxrd t sp => Sys2Proof.Machine.execSvCtxrd t sp s
  | .feEval t sp ce ue => Sys2Proof.Machine.execFeEval t sp ce ue s
  | .feSeval t sp ce ue => Sys2Proof.Machine.execFeSeval t sp ce ue s
  | .pcUpdate t sp slot => Sys2Proof.Machine.execPcUpdate t sp slot s
  | .pcOhdraw t sp slot => Sys2Proof.Machine.execPcOhdraw t sp slot s
  | .feRot a => Sys2Proof.Machine.execFeRot a s
  | .feStore t sp => Sys2Proof.Machine.execFeStore t sp s
  | .feMagclr t sp => Sys2Proof.Machine.execFeMagclr t sp s
  | .rsUpdate t sp slot => Sys2Proof.Machine.execRsUpdate t sp slot s
  | .profileParams d => Sys2Proof.Machine.execProfileParams d s
  | .rsEnergy t => Sys2Proof.Machine.execRsEnergy t s
  | .annealXchgLock t sp => Sys2Proof.Machine.execAnnealXchgLock t sp s
  | .annealXchgAsync t sp => Sys2Proof.Machine.execAnnealXchgAsync t sp s
  | .dmaRd t sp => Sys2Proof.Machine.execDmaRd t sp s
  | .dmaWr t sp => Sys2Proof.Machine.execDmaWr t sp s
  | .hostScatterAdd t sp => Sys2Proof.Machine.execHostScatterAdd t sp s
  | .bxSend t sp => Sys2Proof.Machine.execBxSend t sp s
  | .bxArrive t sp => Sys2Proof.Machine.execBxArrive t sp s
  | .poolAdmit t sp fails => Sys2Proof.Machine.execPoolAdmit t sp fails s
  | .timestampRead t sp now => Sys2Proof.Machine.execTimestampRead t sp now s
  | .telemetryRead t sp => Sys2Proof.Machine.execTelemetryRead t sp s
  | .tileSpmDataRead t => Sys2Proof.Machine.execTileSpmDataRead t s
  | .tileSpmDataWrite t v => Sys2Proof.Machine.execTileSpmDataWrite t v s
  | .svcCtrlWrite n v => Sys2Proof.Machine.execSvcCtrlWrite n v s
  | .svcContextWrite n off v => Sys2Proof.Machine.execSvcContextWrite n off v s
  | .syncCntWrite c v => Sys2Proof.Machine.execSyncCntWrite c v s
  | .poweredOffAccess off write mc => Sys2Proof.Machine.execPoweredOffAccess off write mc s
  | .offaccessClear => Sys2Proof.Machine.execOffaccessClear s
  | .pairLoRead off now => Sys2Proof.Machine.execPairLoRead off now s
  | .pairLoWrite off v => Sys2Proof.Machine.execPairLoWrite off v s
  | .pairHiWrite off v => Sys2Proof.Machine.execPairHiWrite off v s
  | .registerWrite off v enables a => Sys2Proof.Machine.execRegisterWrite off v enables a s
  | .d2dReplay d l repair => Sys2Proof.Machine.execD2dReplay d l repair s
  | .d2dLinkDown d l => Sys2Proof.Machine.execD2dLinkDown d l s
  | .hbmRefresh k pc temp ce ue => Sys2Proof.Machine.execHbmRefresh k pc temp ce ue s
  | .retrainPend k => Sys2Proof.Machine.execRetrainPend k s
  | .hbmFullRetrain k ok => Sys2Proof.Machine.execHbmFullRetrain k ok s
  | .pcRemap k pc => Sys2Proof.Machine.execPcRemap k pc s
  | .loadImage q => Sys2Proof.Machine.execLoadImage q s
  | .scheduleLoadComplete slot => Sys2Proof.Machine.execScheduleLoadComplete slot s
  | .jobLoad q unread => Sys2Proof.Machine.execJobLoad q unread s
  | .jobLoadComplete => Sys2Proof.Machine.execJobLoadComplete s
  | .jobEnd q => Sys2Proof.Machine.execJobEnd q s
  | .pause q => Sys2Proof.Machine.execPause q s
  | .submit q => Sys2Proof.Machine.execSubmit q s
  | .post q => Sys2Proof.Machine.execPost q s
  | .stepBoundary ms => Sys2Proof.Machine.execStepBoundary ms s
  | .checkpointComplete split => Sys2Proof.Machine.execCheckpointComplete split s
  | .echoDeliveryResume => Sys2Proof.Machine.execEchoDeliveryResume s
  | .echoDrainWrite v => Sys2Proof.Machine.execEchoDrainWrite v s
  | .echoCtrlWrite v => Sys2Proof.Machine.execEchoCtrlWrite v s
  | .echoHostFail => Sys2Proof.Machine.execEchoHostFail s
  | .echoTailWriteback => Sys2Proof.Machine.execEchoTailWriteback s
  | .faultRecovery fixed linkUp lost now => Sys2Proof.Machine.execFaultRecovery fixed linkUp lost now s
  | .rebuildTimeout => Sys2Proof.Machine.execRebuildTimeout s
  | .approve fixed linkUp lost now => Sys2Proof.Machine.execApprove fixed linkUp lost now s
  | .decline => Sys2Proof.Machine.execDecline s
  | .bist force => Sys2Proof.Machine.execBist force s
  | .hbmRetrainRequest force => Sys2Proof.Machine.execHbmRetrainRequest force s
  | .sensorRecalibration force => Sys2Proof.Machine.execSensorRecalibration force s
  | .mcWatchdogExpiry now => Sys2Proof.Machine.execMcWatchdogExpiry now s
  | .mcSramUe e => Sys2Proof.Machine.execMcSramUe e s
  | .mcRestart => Sys2Proof.Machine.execMcRestart s
  | .governorFallback => Sys2Proof.Machine.execGovernorFallback s
  | .sqTailDoorbell q v now => Sys2Proof.Machine.execSqTailDoorbell q v now s
  | .sqFetch q fails => Sys2Proof.Machine.execSqFetch q fails s
  | .cqHeadDoorbell q v now => Sys2Proof.Machine.execCqHeadDoorbell q v now s
  | .cqPost q => Sys2Proof.Machine.execCqPost q s
  | .sieveAnswer n v now => Sys2Proof.Machine.execSieveAnswer n v now s
  | .queueEnable q v => Sys2Proof.Machine.execQueueEnable q v s
  | .queueDisable q v => Sys2Proof.Machine.execQueueDisable q v s
  | .dmaTailWrite g v => Sys2Proof.Machine.execDmaTailWrite g v s
  | .dmaComplete place => Sys2Proof.Machine.execDmaComplete place s
  | .dmaRequestTimeout place => Sys2Proof.Machine.execDmaRequestTimeout place s
  | .echoRing len => Sys2Proof.Machine.execEchoRing len s
  | .ckptHost len => Sys2Proof.Machine.execCkptHost len s
  | .fwPush len => Sys2Proof.Machine.execFwPush len s
  | .fwCommit len => Sys2Proof.Machine.execFwCommit len s
  | .flashProgramComplete ok => Sys2Proof.Machine.execFlashProgramComplete ok s
  | .fwRestart => Sys2Proof.Machine.execFwRestart s
  | .rebuildDone len => Sys2Proof.Machine.execRebuildDone len s
  | .echoSupply len => Sys2Proof.Machine.execEchoSupply len s
  | .drbgInput len => Sys2Proof.Machine.execDrbgInput len s
  | .unknownCommand cmd => Sys2Proof.Machine.execUnknownCommand cmd s
  | .mbxEvtPop => Sys2Proof.Machine.execMbxEvtPop s
  | .linkDown => Sys2Proof.Machine.execLinkDown s
  | .linkLossPauseTimeout => Sys2Proof.Machine.execLinkLossPauseTimeout s
  | .linkReturn width rate => Sys2Proof.Machine.execLinkReturn width rate s
  | .flr => Sys2Proof.Machine.execFlr s
  | .configRequest ms resize => Sys2Proof.Machine.execConfigRequest ms resize s
  | .bar2Write off bytes => Sys2Proof.Machine.execBar2Write off bytes s
  | .portDownrate p lane => Sys2Proof.Machine.execPortDownrate p lane s
  | .lldpTransmit p => Sys2Proof.Machine.execLldpTransmit p s
  | .lldp p tlv preempt => Sys2Proof.Machine.execLldp p tlv preempt s
  | .helloTransmit => Sys2Proof.Machine.execHelloTransmit s
  | .hello f chain a => Sys2Proof.Machine.execHello f chain a s
  | .data f => Sys2Proof.Machine.execData f s
  | .mcast f => Sys2Proof.Machine.execMcast f s
  | .barrier f now => Sys2Proof.Machine.execBarrier f now s
  | .release f now => Sys2Proof.Machine.execRelease f now s
  | .releaseTimeReached bid => Sys2Proof.Machine.execReleaseTimeReached bid s
  | .member f now => Sys2Proof.Machine.execMember f now s
  | .joinTimeout => Sys2Proof.Machine.execJoinTimeout s
  | .memberLostTimeout rank => Sys2Proof.Machine.execMemberLostTimeout rank s
  | .rejoinTimeout rank => Sys2Proof.Machine.execRejoinTimeout rank s
  | .retransmitTimeout rank channel express => Sys2Proof.Machine.execRetransmitTimeout rank channel express s
  | .echoSyncSeed f => Sys2Proof.Machine.execEchoSyncSeed f s
  | .echoSyncRecover f => Sys2Proof.Machine.execEchoSyncRecover f s
  | .ckptReport f => Sys2Proof.Machine.execCkptReport f s
  | .ckptChoice f => Sys2Proof.Machine.execCkptChoice f s
  | .echoSyncResume f => Sys2Proof.Machine.execEchoSyncResume f s
  | .ptpMessage port via body now => Sys2Proof.Machine.execPtpMessage port via body now s
  | .ppsInEdge now => Sys2Proof.Machine.execPpsInEdge now s
  | .ppsOutEdge sec => Sys2Proof.Machine.execPpsOutEdge sec s
  | .pwrEntryRequest v delays silent => Sys2Proof.Machine.execPwrEntryRequest v delays silent s
  | .agentDelayExpiry agent again => Sys2Proof.Machine.execAgentDelayExpiry agent again s
  | .agentAnswerTimeout agent => Sys2Proof.Machine.execAgentAnswerTimeout agent s
  | .powerCommit now => Sys2Proof.Machine.execPowerCommit now s
  | .pwrWakeRequest now => Sys2Proof.Machine.execPwrWakeRequest now s
  | .powerGoodTimeout what => Sys2Proof.Machine.execPowerGoodTimeout what s
  | .wakeTimerExpiry now => Sys2Proof.Machine.execWakeTimerExpiry now s
  | .idleS1Timeout delays silent => Sys2Proof.Machine.execIdleS1Timeout delays silent s
  | .idleS2Timeout delays silent => Sys2Proof.Machine.execIdleS2Timeout delays silent s
  | .hbmTrainingComplete k => Sys2Proof.Machine.execHbmTrainingComplete k s
  | .pmcsrD3hot delays silent => Sys2Proof.Machine.execPmcsrD3hot delays silent s
  | .d3hotRequestRepeat delays silent => Sys2Proof.Machine.execD3hotRequestRepeat delays silent s
  | .pmcsrD0 now => Sys2Proof.Machine.execPmcsrD0 now s
  | .perstNAssert delays silent => Sys2Proof.Machine.execPerstNAssert delays silent s
  | .perstNDeassert ref25 now => Sys2Proof.Machine.execPerstNDeassert ref25 now s
  | .thermalWarning x c => Sys2Proof.Machine.execThermalWarning x c s
  | .thermalWarningClear x c => Sys2Proof.Machine.execThermalWarningClear x c s
  | .thermalLimit x c => Sys2Proof.Machine.execThermalLimit x c s
  | .thermalTrip x c hbm100 now => Sys2Proof.Machine.execThermalTrip x c hbm100 now s
  | .inputUndervoltage => Sys2Proof.Machine.execInputUndervoltage s
  | .inputFault mv now => Sys2Proof.Machine.execInputFault mv now s
  | .railPowerGoodLoss rail now => Sys2Proof.Machine.execRailPowerGoodLoss rail now s
  | .refclkLoss clk now => Sys2Proof.Machine.execRefclkLoss clk now s
  | .peakClear => Sys2Proof.Machine.execPeakClear s
  | .inputPowerUp strap ref25 => Sys2Proof.Machine.execInputPowerUp strap ref25 s
  | .bootPhaseEnd unread tests => Sys2Proof.Machine.execBootPhaseEnd unread tests s
  | .phaseBoundExpiry tiles badStacks links => Sys2Proof.Machine.execPhaseBoundExpiry tiles badStacks links s
  | .start => Sys2Proof.Machine.execStart s
  | .enterRecovery => Sys2Proof.Machine.execEnterRecovery s
  | .healthTestFail src bits => Sys2Proof.Machine.execHealthTestFail src bits s
  | .conditionedOutput src bits => Sys2Proof.Machine.execConditionedOutput src bits s
  | .drbgGenerate => Sys2Proof.Machine.execDrbgGenerate s
  | .reseed => Sys2Proof.Machine.execReseed s
  | .kat => Sys2Proof.Machine.execKat s
  | .katComplete condOk drbgOk => Sys2Proof.Machine.execKatComplete condOk drbgOk s
  | .lifecycleTransition target bad => Sys2Proof.Machine.execLifecycleTransition target bad s
  | .lifecycleSelfReset => Sys2Proof.Machine.execLifecycleSelfReset s
  | .tokenVerify => Sys2Proof.Machine.execTokenVerify s
  | .newChallenge => Sys2Proof.Machine.execNewChallenge s
  | .debugOpen v jtag => Sys2Proof.Machine.execDebugOpen v jtag s
  | .debugClose => Sys2Proof.Machine.execDebugClose s
  | .haltTile v => Sys2Proof.Machine.execHaltTile v s
  | .resumeTile v => Sys2Proof.Machine.execResumeTile v s
  | .stepTile v => Sys2Proof.Machine.execStepTile v s
  | .keyRevoke bad => Sys2Proof.Machine.execKeyRevoke bad s
  | .attestationRequest => Sys2Proof.Machine.execAttestationRequest s
  | .attestationDone => Sys2Proof.Machine.execAttestationDone s
  | .tapInstruction ir => Sys2Proof.Machine.execTapInstruction ir s
  | .tapReset => Sys2Proof.Machine.execTapReset s
  | .readReg off now => Sys2Proof.Machine.execReadReg off now s
  | .writeReg off v a => Sys2Proof.Machine.execWriteReg off v a s
  | .wake now => Sys2Proof.Machine.execWake now s
  | .status => Sys2Proof.Machine.execStatus s
  | .smbusAlertResponse => Sys2Proof.Machine.execSmbusAlertResponse s
  | .portLinkUp p failed => Sys2Proof.Machine.execPortLinkUp p failed s
  | .thermalLimitEnd x c => Sys2Proof.Machine.execThermalLimitEnd x c s
  | .stepDigestComplete => Sys2Proof.Machine.execStepDigestComplete s
  | .savedContextWritten => Sys2Proof.Machine.execSavedContextWritten s
  | .selftestResult ok tiles spares badStacks => Sys2Proof.Machine.execSelftestResult ok tiles spares badStacks s
  | .inputPowerLoss => Sys2Proof.Machine.execInputPowerLoss s

end Sys2Proof.Machine
end

