-- ==== Sys2Proof/Safety.lean ====
section
/-!
DEFINITION. The terms in which claims about the module are stated: what every state keeps, that a command answers a next state, and
frames: what a command leaves as it was.
-/
namespace Sys2Proof

open Machine

/-! ### What every state keeps -/

/-- Memory is in its canonical form. -/
def MemOk (s : State) : Prop := Memory.wf s.mem = true

/-- Every register word held has its reserved bits at 0 (R10). -/
def RegsOk (s : State) : Prop := ∀ p ∈ s.regs, p.2 &&& ~~~p.1.impl = 0#32

/-- What holds of every state. -/
def Inv (s : State) : Prop := MemOk s ∧ RegsOk s

/-! ### Completion -/

/-- The command answers a next state, and `P` holds of it. -/
def Answers (i : Instr) (s : State) (P : State → Prop) : Prop := ∃ u, Machine.exec i s = .next u ∧ P u

/-- The block that holds the register answers accesses over BAR0 (R236, R389, R410, R412). -/
def Powered (s : State) (r : Reg) : Prop := pstate s < 4 ∧ offBlock s r.addr = false

/-- No tile waits for an input, and none holds a CTL slot back (R14). -/
def Settled (s : State) : Prop := ∀ p ∈ s.tiles, p.2.waits = [] ∧ p.2.ctl = none

/-- Registers whose tables give a write a behaviour of its own (R12). -/
def ownWrite : Reg → Bool
  | .offCount | .pwrReq | .pwrPeakW | .bootCtrl | .fltCtrl | .fltSelftest | .qCfg _ | .dmaCfg _ | .dmaTail _ | .mbxCmd | .entCtrl | .secLcReq
  | .secTokenCtrl | .secDbgCtrl | .secHalt | .secKeyslot | .secAttCtrl | .tileSpmData _ | .utileSpmData _ _ | .syncCnt _ | .svcCtrl _ => true
  | _ => false

/-! ### Frames -/

/-- The parts of the state beside registers, tiles and memory. -/
inductive Part where
  | latched | held | rows | slots | job | echo | flt | hif | net | pwr | boot | ent | sec | otp | pins | out | free
  deriving DecidableEq, Repr

/-- A part is the same in two states. -/
def SamePart (s u : State) : Part → Prop
  | .latched => u.latched = s.latched
  | .held => u.held = s.held
  | .rows => u.rows = s.rows
  | .slots => u.slots = s.slots
  | .job => u.job = s.job
  | .echo => u.echo = s.echo
  | .flt => u.flt = s.flt
  | .hif => u.hif = s.hif
  | .net => u.net = s.net
  | .pwr => u.pwr = s.pwr
  | .boot => u.boot = s.boot
  | .ent => u.ent = s.ent
  | .sec => u.sec = s.sec
  | .otp => u.otp = s.otp
  | .pins => u.pins = s.pins
  | .out => u.out = s.out
  | .free => u.free = s.free

/-- What may differ: registers, tiles, bytes of memory and parts. -/
structure Scope where
  regs : Reg → Prop := fun _ => False
  tiles : TileId → Prop := fun _ => False
  mem : Nat → Prop := fun _ => False
  parts : List Part := []

/-- Nothing beyond the scope differs, and the queue stays. -/
structure Only (c : Scope) (s u : State) : Prop where
  reg : ∀ r, ¬ c.regs r → u.reg r = s.reg r
  tile : ∀ t, ¬ c.tiles t → u.tile t = s.tile t
  byte : ∀ a, ¬ c.mem a → u.byte a = s.byte a
  part : ∀ p, p ∉ c.parts → SamePart s u p
  queue : u.pending = s.pending

/-- The tile as a slot of its beat leaves it before the slot's own effect (R14). -/
def inItsBeat (s : State) (t : TileId) : Tile := { s.tile t with mid := true }

/-- The register writes of the beat have landed (R48). -/
def landed (τ : Tile) : Tile := { τ.writes.foldl Tile.land τ with writes := [] }

/-- No block emerges, no node forms and no drain converts in the tile's beat (R61, R107, R109, R114, R145). -/
structure Quiet (τ : Tile) : Prop where
  pipe : ∀ i ∈ τ.pipe, τ.beat < i.beat + 10
  tabq : ∀ i ∈ τ.tabq, τ.beat < i.beat + 11
  jobsA : ∀ j ∈ τ.setA.jobs, τ.beat < j.due
  jobsB : ∀ j ∈ τ.setB.jobs, τ.beat < j.due
  statq : ∀ j ∈ τ.statq, τ.beat < j.due
  drainA : τ.setA.drain = none
  drainB : τ.setB.drain = none

/-- A register word keeps every bit but the listed ones. -/
def BitsBut (bits : List Nat) (v w : U32) : Prop := ∀ i, i ∉ bits → w.getLsbD i = v.getLsbD i

/-- The information bits that a floating-point operation raises at the tile, and no other (R91, R93). -/
def FpRaised (t : TileId) (fl : FpFlags) (s u : State) : Prop :=
  u.flag (.tileErr t) F.tileErr_FP_INVALID = (s.flag (.tileErr t) F.tileErr_FP_INVALID || fl.inv) ∧
  u.flag (.tileErr t) F.tileErr_FP_OVF = (s.flag (.tileErr t) F.tileErr_FP_OVF || fl.ovf) ∧
  BitsBut [F.tileErr_FP_INVALID.lo, F.tileErr_FP_OVF.lo] (s.reg (.tileErr t)) (u.reg (.tileErr t))

/-- The slot has written vector register `vd` for later beats, with a tag or none, and raised the bits of its operation (R48). -/
def VecResult (t : TileId) (vd : Nat) (tag : Option U64) (r : Line × FpFlags) (s u : State) : Prop :=
  u.tile t = { inItsBeat s t with writes := (s.tile t).writes ++ [.vec vd r.1 tag] } ∧ FpRaised t r.2 s u ∧
  Only { regs := (· = .tileErr t), tiles := (· = t) } s u

/-- Sixteen lanes, each rounded once by its mode into the operation's format (R84, R263). -/
def laneOp (fmt : Nat) (m : Nat → RMode) (sat : Bool) (f : Nat → FV × Bool) : Line × FpFlags :=
  joinLanes ((List.range 16).map fun j =>
    let r := elemWrite fmt (m j) sat (f j).1
    (BitVec.ofNat 32 r.1, r.2.or { inv := (f j).2 }))

/-- Sixteen lanes of an operation on bits. -/
def laneBits (f : Nat → U32 × FpFlags) : Line × FpFlags := joinLanes ((List.range 16).map f)

/-- With a job loaded the fault waits for the MC behind those that do already, FLT_STATUS shows FROZEN and the job runs no more (R70, R309,
R320, R321). -/
def Faulted (f : FaultRec) (s u : State) : Prop :=
  jobLoaded s = true → u.flt.pending = (s.flt.note f).pending ∧ f ∈ u.flt.pending ∧ u.job.phase ≠ .running ∧
    u.fget .fltStatus F.fltStatus_STATE = 1

/-- No tile that runs starts another beat (R70). -/
def Stopping (u : State) : Prop := ∀ v, (u.tile v).mode = .run → (u.tile v).freezeReq = true

/-- A fault bit of TILE_ERR is set; with a job loaded the fault is pending, and nothing runs on (R70, R309). -/
def TileFaulted (t : TileId) (f : Fld) (s u : State) : Prop :=
  u.flag (.tileErr t) f = true ∧ BitsBut [f.lo] (s.reg (.tileErr t)) (u.reg (.tileErr t)) ∧
  Faulted (tileRec t f) s u ∧ (jobLoaded s = true → Stopping u)

/-- What a fault may change: the given registers and parts, FLT_STATUS, the job, and the tiles, which stop (R70, R309, R320). -/
def faultScope (regs : Reg → Prop) (parts : List Part) : Scope :=
  { regs := fun r => regs r ∨ r = .fltStatus, tiles := fun _ => True, parts := .flt :: .job :: parts }

/-- A bit of a register is set, and the register's other bits stay. -/
def BitSet (r : Reg) (f : Fld) (s u : State) : Prop := u.flag r f = true ∧ BitsBut [f.lo] (s.reg r) (u.reg r)

/-- FLT_REC and its step show a record (R328). -/
def Recorded (code cause die loc : Nat) (s u : State) : Prop :=
  u.reg .fltRec = BitVec.ofNat 32 (code * 2 ^ 24 + cause % 16 * 2 ^ 20 + die % 16 * 2 ^ 16 + loc % 2 ^ 16) ∧
  u.pair .fltRecStepLo .fltRecStepHi = moduleStep s % 2 ^ 48

/-- The registers of a record. -/
def recRegs (r : Reg) : Prop := r = .fltRec ∨ r = .fltRecStepLo ∨ r = .fltRecStepHi

/-- The MC has written a record, and vector 1 is signalled (R328, R340). -/
def Noted (code cause die loc : Nat) (s u : State) : Prop := Recorded code cause die loc s u ∧ u.hif = s.hif.signalled 1

/-- A byte of the flash's region of the retirement table (R313, R400). -/
def tableByte (s : State) (a : Nat) : Prop := flash (flashRegion s 1).1 ≤ a ∧ a < flash (flashRegion s 1).1 + 4096

/-- A byte of the flash. -/
def flashByte (a : Nat) : Prop := spaceBase 3 ≤ a ∧ a < spaceBase 4

/-- The tiles of a physical row, by the logical row that it carries (R39). -/
def inRow (s : State) (d : DieId) (row : BitVec 4) (t : TileId) : Prop :=
  dieOf t = d ∧ rowOf t = BitVec.ofNat 4 (s.fget (.dieRowmap d row) F.dieRowmap_LROW)

/-- Registers that a column shift of a row changes: its map, and those of the windows that move (R38, R311). -/
def shiftRegs (s : State) (d : DieId) (row : BitVec 4) (r : Reg) : Prop :=
  r = .dieRowmap d row ∨ r = .utileStatus d row ∨ r ∈ utileRegs d row ∨ r = .utileBeatLo d row ∨ r = .utileBeatHi d row ∨ r = .utilePc d row ∨
  ∃ t, inRow s d row t ∧ r ∈ tileRegs t

/-- Bytes of the scratchpads of a row. -/
def shiftByte (s : State) (d : DieId) (row : BitVec 4) (a : Nat) : Prop :=
  (spmUnmapped d row ≤ a ∧ a < spmUnmapped d row + 0x100000) ∨ ∃ t, inRow s d row t ∧ spm t 0 0 ≤ a ∧ a < spm t 0 0 + 0x100000

/-- The host side once the MC has queued an event (R349). -/
def withEvent (h : Hif) (typ : Nat) (words : List Nat) : Hif :=
  Hif.signalled { h with events := (if h.events.length < 64 then h.events else h.events.drop 1) ++ [{ typ, words }] } 0

/-- A fault of a link or a stack, beside what `c` lets differ: one that the loaded job takes freezes it; any other the MC records, or finds in
its notes when it is back (R227, R240, R327). -/
def HwFaulted (takes : Bool) (f : FaultRec) (c : Scope) (s u : State) : Prop :=
  if jobLoaded s && takes then Faulted f s u ∧ Only { faultScope c.regs c.parts with mem := c.mem } s u
  else if s.flt.mcAbsent then u.flt = { s.flt with notes := s.flt.notes ++ [f] } ∧ Only { c with parts := .flt :: c.parts } s u
  else Noted f.code 0 f.die f.loc s u ∧ Only { c with regs := fun r => c.regs r ∨ recRegs r, parts := .hif :: c.parts } s u

/-- A register is that of the tile's code: error counts and addresses, or TILE_ERR (R50, R71). -/
def codeRegs (t : TileId) (r : Reg) : Prop := r = .tileErr t ∨ r = .tileEcc t ∨ r = .tileEccAddr t

/-- The tile with the wrong bits that have come into one of its lines (R50). -/
def withHit (τ : Tile) (key : Nat) (e : Ecc) : Tile :=
  if e = {} then τ else { τ with upset := tset τ.upset key ((tget τ.upset {} key).join e) }

/-- The words of a line that are wrong when its port reads it: `e` has come into it (R50). -/
def eccFound (s : State) (t : TileId) (bank l : Nat) (e : Ecc) : Ecc :=
  tget (withHit (s.tile t) (lineKey bank l) e).upset {} (lineKey bank l)

/-- The tag's word of a line of the partial region is right (R50, R264). -/
def TagRight (τ : Tile) (bank l : Nat) : Prop :=
  ∀ p, partPos τ.trec bank l = some p → let x := tget τ.upset {} (lineKey τ.trec.tagBank (τ.trec.tagLine + p / 8))
    x.ce.getLsbD (p % 8) = false ∧ x.ue.getLsbD (p % 8) = false

/-- The slot reads line `l` through its code and adds the register writes `k` of what it reads, then `more` (R48, R50): a right line as
it stands; single errors corrected, counted and located; a word with a double error a fault, and that word delivered free.  `τ` is the tile
apart from its writes. -/
def LineRead (t : TileId) (bank l : Nat) (e : Ecc) (τ : Tile) (k : Line → RegW) (more : List RegW) (s u : State) : Prop :=
  let x := eccFound s t bank l e
  let τ := withHit τ (lineKey bank l) e
  if x.ue = 0 then
    u.tile t = { τ with writes := τ.writes ++ k (s.line t bank l) :: more } ∧ (x.ce = 0 → Only { tiles := (· = t) } s u) ∧
    (x.ce ≠ 0 → u.flag (.tileErr t) F.tileErr_SPM_CE = true ∧ BitsBut [F.tileErr_SPM_CE.lo] (s.reg (.tileErr t)) (u.reg (.tileErr t)) ∧
      u.fget (.tileEcc t) F.tileEcc_SPM_CE = min 0xFFFF (s.fget (.tileEcc t) F.tileEcc_SPM_CE + (wordsOf x.ce).length) ∧
      (∀ w, (wordsOf x.ce).getLast? = some w → u.reg (.tileEccAddr t) = eccAddr bank l w false &&& Reg.impl (.tileEccAddr t)) ∧
      Only { regs := codeRegs t, tiles := (· = t) } s u)
  else
    (∃ f, (u.tile t).writes = τ.writes ++ k (mixWords x.ue (s.line t bank l) f) :: more) ∧ (u.tile t).full = τ.full ∧
    u.flag (.tileErr t) F.tileErr_SPM_UE = true ∧ Faulted (tileRec t F.tileErr_SPM_UE) s u ∧ (jobLoaded s = true → Stopping u) ∧
    (∀ w, (wordsOf (x.ce ||| x.ue)).getLast? = some w → u.reg (.tileEccAddr t) = eccAddr bank l w (x.ue.getLsbD w) &&& Reg.impl (.tileEccAddr t)) ∧
    Only (faultScope (codeRegs t) [.free]) s u

/-- The slot stores line `l` with a tag where the line lies in the tile's partial region, and adds the register writes `more`; the words
stored are right again; a line of a declared buffer is dropped, a fault (R48, R49, R50, R264). -/
def LineStored (t : TileId) (bank l : Nat) (v : Line) (tag : Option U64) (more : List RegW) (s u : State) : Prop :=
  let r := (s.tile t).trec
  let τ := (inItsBeat s t).mended (lineKey bank l) 255
  if inBuffer s t bank l then
    TileFaulted t F.tileErr_SPM_GUARD s u ∧ (u.tile t).writes = (s.tile t).writes ++ more ∧ Only (faultScope (· = .tileErr t) []) s u
  else
    match partPos r bank l with
    | none => u.tile t = { τ with writes := τ.writes ++ more } ∧ u.line t bank l = v ∧
        Only { tiles := (· = t), mem := fun a => spm t bank l ≤ a ∧ a < spm t bank l + 64 } s u
    | some p =>
        let τ := τ.mended (lineKey r.tagBank (r.tagLine + p / 8)) (1#8 <<< (p % 8))
        u.tile t = { τ with writes := τ.writes ++ more } ∧ u.bytes (tagAddr t r p) 8 = leBytes 8 (tag.getD 0).toNat ∧
        (tagAddr t r p + 8 ≤ spm t bank l ∨ spm t bank l + 64 ≤ tagAddr t r p → u.line t bank l = v) ∧
        Only { tiles := (· = t), mem := fun a => (spm t bank l ≤ a ∧ a < spm t bank l + 64) ∨ (tagAddr t r p ≤ a ∧ a < tagAddr t r p + 8) } s u

/-- The leaf that a lane-wise sum gives at a set's next position, with the bits it raises (R53, R102). -/
def leafAt (τ : Tile) (x : AccSet) (as : List Acc) : Line × FpFlags :=
  joinLanes (as.mapIdx fun j a => roundLeaf (leafMode (setKeys τ x) x.td.trm (nodeNum 0 x.next) j) a)

/-- A set whose next position has taken a leaf value: the root of a one-leaf tree; a right child, or the last one alone, whose parent is due one
beat later; or the pending left child of level 0 (R99, R106, R107). -/
def fedSet (now : Nat) (x : AccSet) (v : Line) : AccSet :=
  let y := { x with next := x.next + 1 }
  if topLevel x.td = 0 then { y with root := some (0, v) }
  else if x.next % 2 = 1 then { y with jobs := x.jobs ++ [{
    due := now + 1, level := 1, idx := x.next / 2, left := some (tget x.part 0 0), right := v, pass := false }] }
  else if lastLeaf x.td = x.next then { y with jobs := x.jobs ++ [{
    due := now + 1, level := 1, idx := x.next / 2, left := none, right := v, pass := true }] }
  else { y with part := tset x.part 0 v }

/-- A set that has taken a LEAF operation in a floating-point format, with the bits raised: two leaves in MXFP4, half a leaf in BF16 and
FP16 (R52, R53, R467). -/
def leafTaken (τ : Tile) (x : AccSet) (o : LeafIn) : AccSet × FpFlags :=
  let sums (lo hi : Nat) := (List.range 16).map fun j => lanePartial x.td.fmtA x.td.fmtB o lo hi j {}
  let feed (y : AccSet) (as : List Acc) := (fedSet τ.beat y (leafAt τ y as).1, (leafAt τ y as).2)
  match halfLen x.td.fmtA, x.half with
  | 16, _ => let p := feed x (sums 0 8)
    let q := feed p.1 (sums 8 16)
    (q.1, p.2.or q.2)
  | 4, none => ({ x with half := some (sums 0 4) }, {})
  | 4, some hs => feed { x with half := none } ((List.range 16).map fun j => lanePartial x.td.fmtA x.td.fmtB o 0 4 j (hs.getD j {}))
  | _, _ => feed x (sums 0 8)

/-- A statistics leaf of block column `col` has its value: the root of a one-leaf tree goes to STAT_VREG; a right child, or the last one, has
its parent due one beat later; a left child waits in its stack line (R114).  `τ` is the tile apart from that. -/
def StatLeaf (t : TileId) (τ : Tile) (i : Nat) (d : TreeDesc) (col : Nat) (v : Line) (s u : State) : Prop :=
  let ls := ceilDiv d.nOut 4
  let a := spm t d.stackBank d.statsLine
  if treeDepth ls = 0 then
    u.tile t = { τ with writes := τ.writes ++ [.vec d.statVreg v none] } ∧ Only { regs := (· = .tileErr t), tiles := (· = t) } s u
  else if col % 2 = 1 ∨ ls - 1 = col then
    u.tile t = { τ with statq := τ.statq ++ [{
      due := τ.beat + 1, tdIx := i, td := d, level := 1, idx := col / 2, right := v, pass := decide (col % 2 ≠ 1) }] } ∧
    Only { regs := (· = .tileErr t), tiles := (· = t) } s u
  else
    u.tile t = τ.mended (lineKey d.stackBank d.statsLine) 255 ∧ u.line t d.stackBank d.statsLine = v ∧
    Only { regs := (· = .tileErr t), tiles := (· = t), mem := fun k => a ≤ k ∧ k < a + 64 } s u

/-- The register writes of a post-increment (R47). -/
def incWrites (ixen inc : Bool) (ix : Nat) : List RegW := if ixen && inc then [.ixInc ix] else []

/-- The tile behind a port and its input port, where there is one (R222). -/
def hopTile (s : State) (t : TileId) (p : Nat) : Option (TileId × Nat) :=
  match hopOf s t p with
  | .tile v q _ => some (v, q)
  | _ => none

/-- The flit on port `p` of tile `t` is where that port leads: behind those in a neighbour's input port, or at the IOD (R222, R223). -/
def flitAt (t : TileId) (p : Nat) (f : Flit) (s u : State) : Prop :=
  match hopOf s t p with
  | .tile v q _ => ∃ fs, tget (u.tile v).inbox [] q = fs ++ [f]
  | .iod d => u.out.iod = s.out.iod ++ [(d.toNat, f)]
  | .none => True

/-- What a flit placed on a port may change: the tile that acts, the tile behind the port, and what the IOD has taken. -/
def sendScope (s : State) (t : TileId) (p : Nat) : Scope :=
  { tiles := fun v => v = t ∨ (hopTile s t p).map Prod.fst = some v, parts := [.out] }

/-- The place of the next entry in the ring, and a byte of the tail address of a host ring (R294, R348). -/
def entryByte (s : State) (a : Nat) : Prop := echoAddr s s.echo.seq ≤ a ∧ a < echoAddr s s.echo.seq + 64
def tailByte (s : State) (a : Nat) : Prop :=
  s.echo.mode = 1 ∧ hostMem s.echo.hostTail ≤ a ∧ a < hostMem s.echo.hostTail + 8

/-- The Echo log takes the next input live, without overwriting what has not been drained (R293, R296); the tail address of a host ring lies
outside its next entry. -/
structure Live (s : State) : Prop where
  loaded : jobLoaded s = true
  live : s.echo.replay = false
  first : s.echo.waiting = []
  late : s.echo.late = []
  room : echoRoom s = .put 0
  apart : ∀ a, tailByte s a → ¬ entryByte s a

/-- One entry has been appended: SEQ counts it, and its place in the ring holds it (R294). -/
def Logged (e : EchoEntry) (s u : State) : Prop :=
  u.echo.seq = s.echo.seq + 1 ∧ u.bytes (echoAddr s s.echo.seq) 64 = e.bytes s.echo.seq (moduleStep s)

/-- The registers that an append changes (R281, R286, R294). -/
def echoRegs (r : Reg) : Prop :=
  r = .echoStatus ∨ r = .echoSeqLo ∨ r = .echoSeqHi ∨ r = .echoTailLo ∨ r = .echoTailHi ∨ r = .echoJob

/-- What an append may write. -/
def echoSlot (s : State) (a : Nat) : Prop := entryByte s a ∨ tailByte s a

/-- The ring on the module has room for `n` more entries without overwriting (R296). -/
def Room (n : Nat) (s : State) : Prop := s.echo.mode ≠ 1 ∧ s.echo.tail ≤ s.echo.seq ∧ s.echo.seq + n ≤ s.echo.tail + echoCap s

/-- Entries have been appended in order (R294). -/
def LoggedAll (es : List EchoEntry) (s u : State) : Prop :=
  u.echo.seq = s.echo.seq + es.length ∧
  ∀ i e, es[i]? = some e → u.bytes (echoAddr s (s.echo.seq + i)) 64 = e.bytes (s.echo.seq + i) (moduleStep s)

/-- The places of the next `n` entries. -/
def echoSlots (n : Nat) (s : State) (a : Nat) : Prop :=
  ∃ i < n, echoAddr s (s.echo.seq + i) ≤ a ∧ a < echoAddr s (s.echo.seq + i) + 64

/-- The command that queue `q` executes has completed with these fields: an enabled queue has its completion to post, no other queue and
nothing else of the host side differs (R335, R336, R339). -/
def Completed (q : Nat) (c : Cmd) (result0 code typ : Nat) (s u : State) : Prop :=
  u.qp q = { s.qp q with
    busy := none,
    ready := (s.qp q).ready ++ if qOn s q then [{ queue := q, cid := c.cid, head := c.head, result0, code, typ }] else [] } ∧
  (∀ k, k ≠ q → u.qp k = s.qp k) ∧ u.hif = { s.hif with queues := u.hif.queues }

/-- A command of the queue completes with these fields and has no other effect. -/
def OnlyCompletes (q : Nat) (c : Cmd) (result0 code typ : Nat) (s u : State) : Prop :=
  Completed q c result0 code typ s u ∧ Only { parts := [.hif] } s u

/-- The registers that the begin and the end of a job change (R25, R27, R70, R130, R198, R219, R250, R279, R286, R297, R303, R317, R326, R337,
R414). -/
def jobRegs (r : Reg) : Prop :=
  loadClears r = true ∨ echoRegs r ∨ match r with
  | .cgsSeed _ _ _ | .cgsStatus _ | .cgsPending _ | .admNextTag | .admStatus | .imgStatus _ | .svcCtrl _ | .bxtMember => True
  | .pwrEnvActive | .pwrVset | .pgvStatus _ | .pgvBeatrate _ | .glbStatus | .bootStatus | .echoRingMib | .echoRestore => True
  | .fltCkptGen | .fltCkptStepLo | .fltCkptStepHi | .fltStatus | .fltSelftest => True
  | _ => False

/-- Registers of the stacks: what remaps and retrains that waited for the end of a job change (R242, R247, R315). -/
def stackRegs (r : Reg) : Prop := ∃ k, r = .hbmStatus k ∨ r = .hbmErr k ∨ r = .hbmSpare0 k ∨ r = .hbmSpare1 k

/-- Bytes that such remaps write: the retirement table in the flash, and sectors that cannot be corrected (R313, R315, R316). -/
def remapByte (s : State) (a : Nat) : Prop :=
  (s.flt.heldRemaps ≠ [] ∨ s.flt.ueSectors ≠ []) ∧ ((spaceBase 3 ≤ a ∧ a < spaceBase 4) ∨ ∃ x ∈ s.flt.ueSectors, hbm x ≤ a ∧ a < hbm (x + 64))

/-- A byte of the Echo ring in use. -/
def inRing (s : State) (a : Nat) : Prop := ∃ n, echoAddr s n ≤ a ∧ a < echoAddr s n + 64

/-- Entries have been evaluated under a unit mask: bit j of the mask names unit 16g + j (R183, R191). -/
def Evaluated (t : TileId) (g mask : Nat) (es : List Entry) (s u : State) : Prop :=
  ∀ k x, tfind (s.tile t).fe.units k = some x → tfind (u.tile t).fe.units k = some { x with
    acc := if k / 16 = g ∧ mask.testBit (k % 16) = true
      then (es.filter fun e => e.tgt = k).foldl (fun a e => wrap112 (a + contribution s t s.job.img.fe.mode e)) x.acc else x.acc }

/-- A part of the source table of a tile that an update may write (R181). -/
def sourceBytesOf (t : TileId) (s : State) (a : Nat) : Prop :=
  srcBase s t ≤ a ∧ a < srcBase s t + 4 * (s.tile t).fe.srcs.length

/-- What a reset that is announced sends: a LEAVE to every other member of a loaded job, while the ports run (R364). -/
def leaves (s : State) : List Frame :=
  if jobLoaded s && decide (pstate s < 2) then (otherRanks s).filterMap fun r => (portFor s r).map fun p =>
    dress s p (rosterAddr s r) (jobFrame s r 6 0 0 0 (leBytes 8 2))
  else []

/-- All volatile state is gone but for the frames `fs` that have left last; the fuses, the votes and the retirement table stay (R313, R383,
R429). -/
def Emptied (fs : List Frame) (s u : State) : Prop :=
  u.tiles = [] ∧ u.rows = [] ∧ u.slots = [] ∧ u.latched = [] ∧ u.held = [] ∧ u.job = {} ∧ u.echo = {} ∧ u.sec = {} ∧
  u.net = { ({} : Bexir) with sent := s.net.sent ++ fs } ∧
  u.flt = { ({} : Flt) with copies := s.flt.copies } ∧ u.flag .glbStatus F.glbStatus_READY = false ∧
  u.fget .glbStatus F.glbStatus_GRADE_EFF = s.fget .glbId F.glbId_GRADE % 2 ∧ u.reg .fltOtp = s.reg .fltOtp ∧
  BitsBut [F.secLc_IDENT_BAD.lo] (s.reg .secLc) (u.reg .secLc) ∧
  u.fget .secKeyslot F.secKeyslot_REVOKED = s.fget .secKeyslot F.secKeyslot_REVOKED ∧
  u.boot.table = s.boot.table ∧ u.boot.cfg = {} ∧ ∀ a, a < spaceBase 1 → u.byte a = memDefault

/-- Registers that module reset does not simply put at their reset values: what fuses and votes show, and the entropy block's start. -/
def resetKept (r : Reg) : Prop :=
  r = .glbStatus ∨ r = .secLc ∨ r = .fltOtp ∨ r = .secKeyslot ∨ r = .entStatus ∨ ∃ k, r = .secId k

/-- Every register but those is at its reset value, and all volatile state is gone. -/
def Cleared (fs : List Frame) (more : Reg → Prop) (s u : State) : Prop :=
  (∀ r : Reg, r.isFused = false → ¬ resetKept r → ¬ more r → u.reg r = r.reset) ∧ Emptied fs s u

/-- What module reset may change: HBM, the staging area and the dies' memories, not the flash and not host memory. -/
def resetScope (parts : List Part) : Scope := {
  regs := fun r => r.isFused = false
  tiles := fun _ => True
  mem := fun a => a < spaceBase 1 ∨ (spaceBase 2 ≤ a ∧ a < spaceBase 3) ∨ (spaceBase 16 ≤ a ∧ a < dieSpaces)
  parts := [.latched, .held, .rows, .slots, .job, .echo, .flt, .hif, .net, .pwr, .boot, .ent, .sec] ++ parts }

/-- What going down to state `n` may change: what S2, S3 and S4 lose, and the tiles (R381). -/
def lossRegs (n : Nat) (r : Reg) : Prop :=
  r = .pwrState ∨ r = .ptpTimeLo ∨ r = .ptpTimeHi ∨
  (2 ≤ n ∧ (r.lostInDoze = true ∨ r = .ptpStatus ∨ (∃ p, r = .bxtPortStatus p) ∨ ∃ k, r = .hbmStatus k)) ∨
  (3 ≤ n ∧ (r.lostInRest = true ∨ r = .secDbgStatus ∨ r = .secAttCtrl ∨ ∃ j, r = .imgStatus j ∨ r = .imgWrdrop j)) ∨
  (4 ≤ n ∧ r.lostInDeep = true)

/-- The bytes that going down to state `n` may change. -/
def lossBytes (n a : Nat) : Prop := (2 ≤ n ∧ spaceBase 16 ≤ a ∧ a < dieSpaces) ∨ (3 ≤ n ∧ a < spaceBase 1)

/-- The parts that going down to S2 or deeper may change. -/
def lossParts : List Part := [.pwr, .rows, .latched, .held, .slots, .flt, .hif, .net, .ent, .echo, .sec, .job]

end Sys2Proof
end

