-- ==== Sys2Proof/Certificates/Slice0/Obligations.lean ====
section
/-!
DEFINITION. The statements for the provers. Each command's statement answers the next state under hypotheses on the state and the
operands alone, says what that state holds, and names what may differ from the state before (`Only`).
-/
section

open Sys2Proof Sys2Proof.Machine


/-- A step runs the command at the front of the queue on the state with the queue's rest.  The queue is the model's own. -/
def Obligations.FrontCommandRuns : Prop :=
  ∀ (c : Instr) (cs : List Instr) (s : State), s.pending = c :: cs → step s = exec c { s with pending := cs }

/-- On an empty queue the module idles (DESIGN CHOICE, notes/assumptions/32.md): nothing changes where no exit to S0 is in progress. -/
def Obligations.EmptyQueueOnlyEndsAnExit : Prop :=
  ∀ s : State, s.pending = [] → s.pwr.exiting = false → step s = .next s

/-- No command faults and none is refused. -/
def Obligations.EveryCommandAnswers : Prop :=
  ∀ (c : Instr) (s : State), ∃ u, exec c s = .next u

/-- No command changes the queue, which is the model's own. -/
def Obligations.NoCommandTouchesTheQueue : Prop :=
  ∀ (c : Instr) (s u : State), exec c s = .next u → u.pending = s.pending

/-- Memory keeps its canonical form and reserved bits read 0 (R10), whatever runs. -/
def Obligations.EveryStepKeepsReservedBitsAndMemoryForm : Prop :=
  ∀ s u : State, Inv s → step s = .next u → Inv u

/-- The state before the input power rises. -/
def Obligations.ResetMeetsTheInvariant : Prop :=
  Inv State.reset ∧ State.reset.pending = [] ∧ State.reset.mem = [] ∧ State.reset.job.phase = .none ∧
    (∀ c, tget State.reset.otp.lc 0#32 c = 0#32) ∧ State.reset.pins.inputUp = false

/-- OTP bits only ever change from 0 to 1 (R429), a revocation bit never clears (R442), and a programmed identity or owner-key entry stays. -/
def Obligations.OneTimeMemoryOnlyGains : Prop :=
  ∀ s u : State, step s = .next u →
    (∀ c : Nat, tget s.otp.lc 0 c &&& tget u.otp.lc 0 c = tget s.otp.lc 0 c) ∧
    (∀ c : Nat, tget s.otp.revoked 0 c &&& tget u.otp.revoked 0 c = tget s.otp.revoked 0 c) ∧
    (∀ (k : Nat) (e : IdentEntry), tfind s.otp.ident k = some e → tfind u.otp.ident k = some e) ∧
    (∀ (k : Nat) (e : OwnerEntry), tfind s.otp.owner k = some e → tfind u.otp.owner k = some e)

/-- The CTL slot's moves (R42, R43, R44): `τ` is the tile with the beat's results landed (R48). -/
def Obligations.ControlSlotMovesTheTile : Prop :=
  ∀ (t : TileId) (s : State), canAct s t = true → Settled s → Quiet (s.tile t) →
    let τ := landed (inItsBeat s t)
    let next := { τ with bpos := τ.bpos + 1 }
    Answers (.idleBeat t) s (fun u => u.tile t = next.afterBeat ∧ Only { tiles := (· = t) } s u) ∧
    Answers (.next t) s (fun u => u.tile t = next.afterBeat ∧ Only { tiles := (· = t) } s u) ∧
    (∀ arg, Answers (.loopBegin t arg) s fun u => Only { tiles := (· = t) } s u ∧
      u.tile t = (if (τ.loops.head?.map Prod.fst) = some τ.bpos then next else { next with loops := (τ.bpos, arg + 1) :: τ.loops }).afterBeat) ∧
    (∀ b n ls, τ.loops = (b, n) :: ls → Answers (.loopEnd t) s fun u => Only { tiles := (· = t) } s u ∧
      u.tile t = (if 1 < n then { τ with bpos := b, loops := (b, n - 1) :: ls } else { next with loops := ls }).afterBeat) ∧
    (τ.loops = [] → Answers (.loopEnd t) s fun u => Only { tiles := (· = t) } s u ∧ u.tile t = next.afterBeat) ∧
    (∀ arg, (τ.loops.head?.map Prod.fst) ≠ some τ.bpos → Answers (.loopOne t arg) s fun u => Only { tiles := (· = t) } s u ∧
      u.tile t = (if 0 < arg then { τ with loops := (τ.bpos, arg) :: τ.loops } else next).afterBeat) ∧
    (∀ arg n ls, τ.loops = (τ.bpos, n) :: ls → Answers (.loopOne t arg) s fun u => Only { tiles := (· = t) } s u ∧
      u.tile t = (if 1 < n then { τ with loops := (τ.bpos, n - 1) :: ls } else { next with loops := ls }).afterBeat) ∧
    Answers (.maintEnd t) s (fun u => u.tile t = ({ next with maint := none }).afterBeat ∧ Only { tiles := (· = t) } s u) ∧
    Answers (.halt t) s (fun u => (u.tile t).mode = .done ∧ (u.tile t).beat = τ.beat + 1 ∧ Only { tiles := (· = t) } s u)

/-- STEP_END (R43, R128) and MAINT_BEGIN (R43, R274, R310, R147). -/
def Obligations.StepEndCountsAndMaintenanceRuns : Prop :=
  ∀ (t : TileId) (s : State), canAct s t = true → Settled s → Quiet (s.tile t) →
    let τ := landed (inItsBeat s t)
    ((s.tile t).step + 1 < 2 ^ 48 → Answers (.stepEnd t) s fun u =>
      u.tile t = ({ τ with step := τ.step + 1, fe := { τ.fe with ends0 := τ.fe.ends }, bpos := τ.bpos + 1 }).afterBeat ∧
      Only { tiles := (· = t) } s u) ∧
    (2 ^ 48 ≤ (s.tile t).step + 1 → jobLoaded s = true → Answers (.stepEnd t) s fun u =>
      (u.tile t).step = (s.tile t).step ∧ ((s.tile t).mode = .run → (u.tile t).mode = .frozen) ∧
      u.flag (.cgsFault (dieOf t)) F.cgsFault_STEP_WRAP = true ∧
      Faulted { code := 0x80, die := (dieOf t).toNat, loc := t.toNat } s u ∧
      Only (faultScope (· = .cgsFault (dieOf t)) []) s u) ∧
    (∀ arg scrub, (∀ p ∈ scrub, p.2.2 = {} ∧ tfind (s.tile t).upset (lineKey p.1 p.2.1) = none) →
      Answers (.maintBegin t arg false ⟨false, 0⟩ scrub) s fun u =>
      let d := maintOf s arg
      u.tile t = ({ τ with
        tblPtr := if !s.flt.mcAbsent && (d.tasks.testBit 2 && decide (64 ≤ d.length)) then (τ.tblPtr + 1) % 48 else τ.tblPtr,
        bpos := τ.bpos + 1, maint := some arg }).afterBeat ∧
      ((s.flt.mcAbsent = false ∧ d.tasks.testBit 1 = true ∧ 40 ≤ d.length) → tfind u.flt.mxPass t = some (s.tile t).step) ∧
      Only { tiles := (· = t), parts := [.flt] } s u) ∧
    (∀ arg, s.flt.mcAbsent = false → jobLoaded s = true → (maintOf s arg).tasks.testBit 1 = true → 40 ≤ (maintOf s arg).length →
      Answers (.maintBegin t arg true ⟨false, 0⟩ []) s fun u => u.flag (.tileErr t) F.tileErr_MX_CHECK = true ∧
        Faulted (tileRec t F.tileErr_MX_CHECK) s u ∧ Only (faultScope (· = .tileErr t) []) s u) ∧
    (∀ arg cgBad crc, (cgBad = true ∨ crc ≠ 0) → s.flt.mcAbsent = false → jobLoaded s = true → (maintOf s arg).tasks.testBit 2 = true →
      64 ≤ (maintOf s arg).length →
      Answers (.maintBegin t arg false ⟨cgBad, crc⟩ []) s fun u => u.flag (.tileErr t) F.tileErr_CG_CHECK = true ∧
        Faulted (tileRec t F.tileErr_CG_CHECK) s u ∧ Only (faultScope (· = .tileErr t) []) s u)

/-- The lane-wise VX operations (R48, R79, R84, R88-R91, R96, R263). -/
def Obligations.VectorArithmeticRoundsEachLaneOnce : Prop :=
  ∀ (t : TileId) (s : State), canAct s t = true → RegsOk s →
    let τ := s.tile t
    let x (fmt n j : Nat) := laneVal fmt (τ.vreg n) j
    let m (rmode : Nat) := vxMode τ t rmode
    (∀ vd va vb rmode fmt, Answers (.vadd t vd va vb rmode fmt) s fun u =>
      VecResult t vd none (laneOp fmt (m rmode) false fun j => FV.add (x fmt va j) (x fmt vb j)) s u) ∧
    (∀ vd va vb rmode fmt, Answers (.vsub t vd va vb rmode fmt) s fun u =>
      VecResult t vd none (laneOp fmt (m rmode) false fun j => FV.add (x fmt va j) (x fmt vb j).neg) s u) ∧
    (∀ vd va vb rmode fmt, Answers (.vmul t vd va vb rmode fmt) s fun u =>
      VecResult t vd none (laneOp fmt (m rmode) false fun j => FV.mul (x fmt va j) (x fmt vb j)) s u) ∧
    (∀ vd va vb vc rmode fmt, Answers (.vfma t vd va vb vc rmode fmt) s fun u =>
      VecResult t vd none (laneOp fmt (m rmode) false fun j =>
        let p := FV.mul (x fmt va j) (x fmt vb j)
        let z := FV.add p.1 (x fmt vc j)
        (z.1, p.2 || z.2)) s u) ∧
    (∀ vd va src fmt rmode sat, Answers (.vcvt t vd va src fmt rmode sat) s fun u =>
      VecResult t vd none (laneOp fmt (m rmode) sat fun j => (x src va j, false)) s u) ∧
    (∀ vd va vb fmt, Answers (.vmax t vd va vb fmt) s fun u =>
      VecResult t vd none (laneBits fun j => vmaxmin true fmt (τ.vreg va) (τ.vreg vb) j) s u) ∧
    (∀ vd va vb fmt, Answers (.vmin t vd va vb fmt) s fun u =>
      VecResult t vd none (laneBits fun j => vmaxmin false fmt (τ.vreg va) (τ.vreg vb) j) s u) ∧
    (∀ vd va vb vc, Answers (.vsel t vd va vb vc) s fun u =>
      VecResult t vd none (laneBits fun j => (if (τ.maskreg vc).getLsbD j then lane (τ.vreg va) j else lane (τ.vreg vb) j, {})) s u) ∧
    (∀ vd va, Answers (.exp2 t vd va) s fun u => VecResult t vd none (laneBits fun j => exp2 (lane (τ.vreg va) j)) s u) ∧
    (∀ vd va vb pred fmt, Answers (.vcmp t vd va vb pred fmt) s fun u => ∃ m : BitVec 16,
      (∀ j < 16, m.getLsbD j = Config.vcmp pred (fvRel (x fmt va j) (x fmt vb j))) ∧
      u.tile t = { inItsBeat s t with writes := τ.writes ++ [.mask vd m] } ∧ Only { tiles := (· = t) } s u) ∧
    (∀ vd va rmode, Answers (.vqmx t vd va rmode) s fun u =>
      let q := mxQuantise (lanes (τ.vreg va) ++ lanes (τ.vreg (va + 1))) (m rmode)
      VecResult t vd none (Config.vqmxLayout q.1 q.2, {}) s u)

/-- Partials (R117, R119), Flowstone (R58-R60) and STATS_FIN (R114, R115). -/
def Obligations.PartialsCombineOnlyAsSiblings : Prop :=
  ∀ (t : TileId) (s : State), canAct s t = true → RegsOk s → MemOk s →
    let τ := s.tile t
    (∀ vd va vb trm slot, combineParent ((τ.tag va).getD 0) ((τ.tag vb).getD 0) trm = none →
      Answers (.combine t vd va vb trm slot) s fun u => TileFaulted t F.tileErr_NODE_MISMATCH s u ∧ (u.tile t).writes = τ.writes ∧
        Only (faultScope (· = .tileErr t) []) s u) ∧
    (∀ vd va vb trm slot q, combineParent ((τ.tag va).getD 0) ((τ.tag vb).getD 0) trm = some q →
      let g := (τ.tag va).getD 0
      let k : TreeKeys := { seed := τ.seed slot, step := (siteOf s (tagSite g)).keyStep, site := tagSite g, block := tagBlock g }
      Answers (.combine t vd va vb trm slot) s fun u =>
        (siteInt s (tagSite g) = false → VecResult t vd (some (retag g q)) (nodeSum k trm q (τ.vreg va) (τ.vreg vb)) s u) ∧
        (siteInt s (tagSite g) = true →
          u.tile t = { inItsBeat s t with writes := τ.writes ++ [.vec vd (intSum (τ.vreg va) (τ.vreg vb)) (some (retag g q))] } ∧
          u.flag (.tileErr t) F.tileErr_INT_OVF = (s.flag (.tileErr t) F.tileErr_INT_OVF || intOvf (τ.vreg va) (τ.vreg vb)) ∧
          Only { regs := (· = .tileErr t), tiles := (· = t) } s u)) ∧
    (∀ vd va l, passParent ((τ.tag va).getD 0) l = none → Answers (.pass t vd va l) s fun u =>
      TileFaulted t F.tileErr_NODE_MISMATCH s u ∧ (u.tile t).writes = τ.writes ∧
        Only (faultScope (· = .tileErr t) []) s u) ∧
    (∀ vd va l q, passParent ((τ.tag va).getD 0) l = some q → Answers (.pass t vd va l) s fun u =>
      u.tile t = { inItsBeat s t with writes := τ.writes ++ [.vec vd (τ.vreg va) (some (retag ((τ.tag va).getD 0) q))] } ∧
      Only { tiles := (· = t) } s u) ∧
    (∀ va ln, Answers (.fsAdd t va ln) s fun u => u.tile t = { inItsBeat s t with fs := τ.fs.add (lane (τ.vreg va) ln) } ∧
      u.flag (.tileErr t) F.tileErr_FS_LIMIT = (s.flag (.tileErr t) F.tileErr_FS_LIMIT || decide (65536 < τ.fs.count + 1)) ∧
      BitsBut [F.tileErr_FS_LIMIT.lo] (s.reg (.tileErr t)) (u.reg (.tileErr t)) ∧
      Only { regs := (· = .tileErr t), tiles := (· = t) } s u) ∧
    (∀ vd ln, Answers (.fsRead t vd ln) s fun u =>
      u.tile t = { inItsBeat s t with writes := τ.writes ++ [.lane vd ln τ.fs.read.1] } ∧ FpRaised t τ.fs.read.2 s u ∧
      Only { regs := (· = .tileErr t), tiles := (· = t) } s u) ∧
    Answers (.fsClr t) s (fun u => u.tile t = { inItsBeat s t with fs := {} } ∧ Only { tiles := (· = t) } s u) ∧
    (∀ vd ln, Answers (.fsRdclr t vd ln) s fun u =>
      u.tile t = { inItsBeat s t with writes := τ.writes ++ [.lane vd ln τ.fs.read.1], fs := {} } ∧ FpRaised t τ.fs.read.2 s u ∧
      Only { regs := (· = .tileErr t), tiles := (· = t) } s u) ∧
    (∀ vd va vb g d i, τ.tag va = some g → statsTd τ g = some (d, i) → Answers (.statsFin t vd va vb) s fun u =>
      let col := tagBlock g % ceilDiv d.nOut 4
      let st := statsLeafLine (lanes (τ.vreg va)) col d.nOut d.c
      FpRaised t st.2 s u ∧ StatLeaf t (inItsBeat s t) i { d with statVreg := vd } col st.1 s u) ∧
    (∀ vd va vb, (τ.tag va).bind (statsTd τ) = none → Answers (.statsFin t vd va vb) s fun u =>
      VecResult t vd none (statsLeafLine (lanes (τ.vreg va)) 0 4 (Config.statsScale (τ.vreg vb))) s u)

/-- The LS slots (R47-R50, R54, R264). -/
def Obligations.LoadsAndStoresActOnTheLineTheyResolve : Prop :=
  ∀ (t : TileId) (s : State), canAct s t = true → RegsOk s → MemOk s →
    let τ := s.tile t
    (∀ bank line ixen ix inc reg e, let l := lsLine τ line ixen ix
      (TagRight (withHit τ (lineKey bank l) e) bank l → Answers (.ldv t bank line ixen ix inc reg e) s fun u =>
        LineRead t bank l e (inItsBeat s t) (fun v => .vec reg v (tagOf s t bank l)) (incWrites ixen inc ix) s u) ∧
      (¬ TagRight (withHit τ (lineKey bank l) e) bank l → Answers (.ldv t bank line ixen ix inc reg e) s fun u =>
        (∃ v g, (u.tile t).writes = τ.writes ++ .vec reg v g :: incWrites ixen inc ix) ∧
        (u.flag (.tileErr t) F.tileErr_SPM_CE || u.flag (.tileErr t) F.tileErr_SPM_UE) = true ∧
        Only (faultScope (codeRegs t) [.free]) s u)) ∧
    (∀ bank line ixen ix inc reg e, let l := lsLine τ line ixen ix
      Answers (.ldm t bank line ixen ix inc reg e) s fun u =>
        LineRead t bank l e (inItsBeat s t) (fun v => .mo reg v) (incWrites ixen inc ix) s u) ∧
    (∀ bank line ixen ix inc reg, let l := lsLine τ line ixen ix
      Answers (.stv t bank line ixen ix inc reg) s fun u => LineStored t bank l (τ.vreg reg) (τ.tag reg) (incWrites ixen inc ix) s u) ∧
    (∀ bank line ixen ix inc set, let l := lsLine τ line ixen ix
      Answers (.std t bank line ixen ix inc set) s fun u => LineStored t bank l (τ.set set).out (τ.set set).outTag (incWrites ixen inc ix) s u) ∧
    (∀ bank line ixen ix inc reg e, let l := lsLine τ line ixen ix
      τ.full.contains (lineKey bank l) = true →
        let taken := { inItsBeat s t with full := τ.full.erase (lineKey bank l) }
        Answers (.tkv t bank line ixen ix inc reg e) s (fun u => LineRead t bank l e taken (fun v => .vec reg v none) (incWrites ixen inc ix) s u) ∧
        Answers (.tkm t bank line ixen ix inc reg e) s fun u => LineRead t bank l e taken (fun v => .mo reg v) (incWrites ixen inc ix) s u) ∧
    (∀ bank line ixen ix inc reg e, let l := lsLine τ line ixen ix
      let c : Reg := .pgvHlateCount (dieOf t)
      let waiting (m : Bool) (u : State) : Prop :=
        u.tile t = { inItsBeat s t with late := true, waits := τ.waits ++ [.take bank l reg m], writes := τ.writes ++ incWrites ixen inc ix } ∧
        u.reg c = (if τ.late then s.reg c else sat32 (s.reg c) 1 &&& c.impl) ∧ Only { regs := (· = c), tiles := (· = t) } s u
      τ.full.contains (lineKey bank l) = false →
        Answers (.tkv t bank line ixen ix inc reg e) s (waiting false) ∧ Answers (.tkm t bank line ixen ix inc reg e) s (waiting true)) ∧
    (∀ ix line, Answers (.ixset t ix line) s fun u =>
      u.tile t = { inItsBeat s t with writes := τ.writes ++ [.ix ix line] } ∧ Only { tiles := (· = t) } s u)

/-- The NW slots (R14, R67-R69, R120, R222-R227, R265). -/
def Obligations.NetworkSlotsMoveFlits : Prop :=
  (∀ (t : TileId) (s : State), canAct s t = true → Settled s → RegsOk s → MemOk s →
    let τ := s.tile t
    let popped (σ : Tile) (port : Nat) : Tile := { σ with inbox := tset σ.inbox port ((tget σ.inbox [] port).drop 1) }
    let taken (port : Nat) : Tile := popped (inItsBeat s t) port
    let placed (v : State) (port : Nat) (f : Flit) (u : State) : Prop :=
      if accepts v t port then flitAt t port f s u ∧ (u.tile t).waits = [] else (u.tile t).waits = [.out port f]
    let retried (port : Nat) (u : State) : Prop := (u.tile t).badPort.contains port = true ∧ u.flag (.tileErr t) F.tileErr_FLIT_RETRY = true ∧
      BitsBut [F.tileErr_FLIT_RETRY.lo] (s.reg (.tileErr t)) (u.reg (.tileErr t)) ∧
      Only { regs := fun r => r = .tileErr t ∨ r = .tileFlitRetry t, tiles := (· = t) } s u
    let counted (n : Nat) (u : State) : Prop :=
      (u.reg (.tileFlitRetry t)).toNat = min 0xFFFFFFFF ((s.reg (.tileFlitRetry t)).toNat + n)
    (∀ port n ix inc f, headFlit s t port = some f → Answers (.recv t port true n ix inc false) s fun u =>
      u.tile t = { taken port with writes := τ.writes ++ [.vec n f.data f.tag] } ∧ Only { tiles := (· = t) } s u) ∧
    (∀ port n ix inc f, headFlit s t port = some f → let l := lsLine τ 0 true ix
      Answers (.recv t port false n ix inc false) s fun u =>
        (u.tile t).inbox = (taken port).inbox ∧
        if inBuffer s t n l then TileFaulted t F.tileErr_SPM_GUARD s u ∧ Only (faultScope (· = .tileErr t) []) s u
        else u.tile t = { (taken port).mended (lineKey n l) 255 with writes := τ.writes ++ incWrites true inc ix } ∧ u.line t n l = f.data ∧
          Only { tiles := (· = t), mem := fun a => spm t n l ≤ a ∧ a < spm t n l + 64 } s u) ∧
    (∀ port vec n ix inc, headFlit s t port = none → Answers (.recv t port vec n ix inc false) s fun u =>
      u.tile t = { inItsBeat s t with
        waits := [.recv port (if vec then .vec n else .bank n (lsLine τ 0 true ix))], writes := τ.writes ++ incWrites (!vec) inc ix } ∧
      Only { tiles := (· = t) } s u) ∧
    (∀ port vec n ix inc, Answers (.recv t port vec n ix inc true) s fun u =>
      (u.tile t).waits = [.recv port (if vec then .vec n else .bank n (lsLine τ 0 true ix))] ∧ retried port u ∧ counted 1 u) ∧
    (∀ port mask f, headFlit s t port = some f → let v := s.apply (.tile t (taken port))
      Answers (.fwd t port mask false) s fun u =>
        (∀ p < 5, mask.testBit p = true → accepts v t p = true → flitAt t p f s u) ∧
        (u.tile t).waits = ((List.range 5).filter fun p => mask.testBit p && !accepts v t p).map (.out · f) ∧
        (∀ p, p ≠ 4 → tget (u.tile t).inbox [] p = tget (taken port).inbox [] p) ∧
        Only { tiles := fun v => v = t ∨ ∃ p < 5, mask.testBit p = true ∧ (hopTile s t p).map Prod.fst = some v, parts := [.out] } s u) ∧
    (∀ port mask, headFlit s t port = none → Answers (.fwd t port mask false) s fun u =>
      u.tile t = { inItsBeat s t with waits := [.fwd port mask] } ∧ Only { tiles := (· = t) } s u) ∧
    (∀ port mask, Answers (.fwd t port mask true) s fun u => (u.tile t).waits = [.fwd port mask] ∧ retried port u ∧ counted 1 u) ∧
    (∀ port n ix inc e, Answers (.send t port true n ix inc e) s fun u =>
      placed s port { data := τ.vreg n, tag := τ.tag n } u ∧ (u.tile t).writes = τ.writes ∧ Only (sendScope s t port) s u) ∧
    (∀ port n ix inc e, let l := lsLine τ 0 true ix
      let x := eccFound s t n l e
      Answers (.send t port false n ix inc e) s fun u =>
        (∃ f, placed s port { data := mixWords x.ue (s.line t n l) f } u) ∧ (u.tile t).writes = τ.writes ++ incWrites true inc ix ∧
        (x = {} → Only (sendScope s t port) s u) ∧
        (x.ce ≠ 0 → u.flag (.tileErr t) F.tileErr_SPM_CE = true) ∧
        (x.ue = 0 → Only { sendScope s t port with regs := codeRegs t } s u) ∧
        (x.ue ≠ 0 → u.flag (.tileErr t) F.tileErr_SPM_UE = true ∧ Faulted (tileRec t F.tileErr_SPM_UE) s u ∧
          Only (faultScope (codeRegs t) [.free, .out]) s u)) ∧
    (∀ in1 in2 out slot f g, headFlit s t in1 = some f → headFlit s t in2 = some g →
      let v := s.apply (.tile t (popped (taken in1) in2))
      match combineLines s (τ.seed slot) (tagTrm (f.tag.getD 0)) f.data (f.tag.getD 0) g.data (g.tag.getD 0) with
      | none => Answers (.addf t in1 in2 out slot false false) s fun u => TileFaulted t F.tileErr_NODE_MISMATCH s u ∧
          (u.tile t).inbox = (popped (taken in1) in2).inbox ∧ Only (faultScope (· = .tileErr t) []) s u
      | some (w, tag, fl, ov) => Answers (.addf t in1 in2 out slot false false) s fun u =>
          placed v out { data := w, tag := some tag } u ∧ (ov = false → FpRaised t fl s u) ∧
          (ov = true → u.flag (.tileErr t) F.tileErr_INT_OVF = true) ∧ Only { sendScope s t out with regs := (· = .tileErr t) } s u) ∧
    (∀ in1 in2 out slot, headFlit s t in1 = none ∨ headFlit s t in2 = none → Answers (.addf t in1 in2 out slot false false) s fun u =>
      u.tile t = { inItsBeat s t with waits := [.addf in1 in2 out slot] } ∧ Only { tiles := (· = t) } s u) ∧
    (∀ in1 in2 out slot, Answers (.addf t in1 in2 out slot true false) s fun u =>
      (u.tile t).waits = [.addf in1 in2 out slot] ∧ retried in1 u ∧ counted 1 u) ∧
    (∀ in1 in2 out slot, Answers (.addf t in1 in2 out slot false true) s fun u =>
      (u.tile t).waits = [.addf in1 in2 out slot] ∧ retried in2 u ∧ counted 1 u) ∧
    (∀ in1 in2 out slot, Answers (.addf t in1 in2 out slot true true) s fun u =>
      (u.tile t).waits = [.addf in1 in2 out slot] ∧ retried in1 u ∧ retried in2 u ∧ counted 2 u)) ∧
  (∀ (t : TileId) (s : State) (port : Nat), RegsOk s → let τ := s.tile t
    let due := τ.badPort.contains port = true ∧ tget τ.inbox [] port ≠ []
    let whole : Tile := { τ with badPort := τ.badPort.filter (· ≠ port) }
    let failed (u : State) : Prop := u.flag (.tileErr t) F.tileErr_FLIT_FAIL = true ∧
      BitsBut [F.tileErr_FLIT_FAIL.lo] (s.reg (.tileErr t)) (u.reg (.tileErr t)) ∧
      Faulted { tileRec t F.tileErr_FLIT_FAIL with port } s u ∧ Only (faultScope (· = .tileErr t) [.free]) s u
    (¬ due → ∀ bad, Answers (.flitResend t port bad) s fun u => Only {} s u) ∧
    (due → Settled s →
      Answers (.flitResend t port false) s (fun u => u.tile t = whole ∧ Only { tiles := (· = t) } s u) ∧
      Answers (.flitResend t port true) s fun u => failed u ∧ (u.tile t).badPort = whole.badPort ∧
        (tget (u.tile t).inbox [] port).length = (tget τ.inbox [] port).length) ∧
    (∀ n f fs, due → (∀ p ∈ s.tiles, p.1 ≠ t → p.2.waits = [] ∧ p.2.ctl = none) → τ.waits = [.recv port (.vec n)] → τ.ctl = none →
      tget τ.inbox [] port = f :: fs →
      Answers (.flitResend t port false) s (fun u =>
        u.tile t = { whole with waits := [], inbox := tset τ.inbox port fs, writes := τ.writes ++ [.vec n f.data f.tag] } ∧
        Only { tiles := (· = t) } s u) ∧
      Answers (.flitResend t port true) s fun u => failed u ∧ (u.tile t).waits = [] ∧
        ∃ w, (u.tile t).writes = τ.writes ++ [.vec n w f.tag]))

/-- The SY slot (R229, R266) without a fault. -/
def Obligations.SyncSlotChangesItsCounter : Prop :=
  ∀ (t : TileId) (s : State), canAct s t = true → Settled s →
    let τ := s.tile t
    let stepped (vreg : Nat) (stepv : Bool) : Tile :=
      { inItsBeat s t with sv := if stepv then tset τ.sv vreg (τ.svreg vreg + BitVec.ofNat 32 (τ.trec.svStep.getD vreg 0)) else τ.sv }
    (∀ h vreg stepv, barrierReady s = none → (∀ b ∈ s.net.barriers, BitVec.ofNat 13 b.desc.counter ≠ handleOf τ h) →
      Answers (.set t h vreg stepv) s fun u => u.reg (.syncCnt (handleOf τ h)) = τ.svreg vreg ∧
      u.tile t = stepped vreg stepv ∧ Only { regs := (· = .syncCnt (handleOf τ h)), tiles := (· = t) } s u) ∧
    (∀ h, let c : Reg := .syncCnt (handleOf τ h)
      (s.reg c).toNat + 1 < 2 ^ 32 → barrierReady s = none → (∀ b ∈ s.net.barriers, BitVec.ofNat 13 b.desc.counter ≠ handleOf τ h) →
      Answers (.inc t h) s fun u => (u.reg c).toNat = (s.reg c).toNat + 1 ∧ u.tile t = inItsBeat s t ∧
        Only { regs := (· = c), tiles := (· = t) } s u) ∧
    (∀ h vreg stepv, let c : Reg := .syncCnt (handleOf τ h)
      let n := (τ.svreg vreg).toNat % 2 ^ 16
      (s.reg c).toNat + n < 2 ^ 32 → barrierReady s = none → (∀ b ∈ s.net.barriers, BitVec.ofNat 13 b.desc.counter ≠ handleOf τ h) →
      Answers (.add t h vreg stepv) s fun u => (u.reg c).toNat = (s.reg c).toNat + n ∧ u.tile t = stepped vreg stepv ∧
        Only { regs := (· = c), tiles := (· = t) } s u) ∧
    (∀ h vreg stepv, (τ.svreg vreg).toNat ≤ (s.reg (.syncCnt (handleOf τ h))).toNat →
      Answers (.waitGe t h vreg stepv) s fun u => u.tile t = stepped vreg stepv ∧ Only { tiles := (· = t) } s u) ∧
    (∀ h vreg stepv, (s.reg (.syncCnt (handleOf τ h))).toNat < (τ.svreg vreg).toNat →
      Answers (.waitGe t h vreg stepv) s fun u =>
        u.tile t = { stepped vreg stepv with waits := [.ge (handleOf τ h) (τ.svreg vreg)] } ∧ Only { tiles := (· = t) } s u)

/-- R232. -/
def Obligations.SyncCounterPastItsTopSaturates : Prop :=
  ∀ (t : TileId) (s : State), canAct s t = true →
    let τ := s.tile t
    let sat (h n : Nat) (i : Instr) : Prop := 2 ^ 32 ≤ (s.reg (.syncCnt (handleOf τ h))).toNat + n →
      barrierReady s = none → (∀ b ∈ s.net.barriers, BitVec.ofNat 13 b.desc.counter ≠ handleOf τ h) →
      let c := handleOf τ h
      let home : DieId := c.extractLsb' 10 3
      Answers i s fun u => u.reg (.syncCnt c) = 0xFFFFFFFF#32 ∧ u.flag (.syncFault home) F.syncFault_OVF = true ∧
        (∀ v, (u.tile v).waits = (s.tile v).waits.map fun w =>
          match w with
          | .ge d thr => if d = c ∧ (s.reg (.syncCnt c)).toNat < thr.toNat then .stuck d thr else w
          | _ => w) ∧
        Faulted { code := 0x85, die := home.toNat, loc := c.toNat } s u ∧ (jobLoaded s = true → Stopping u) ∧
        Only (faultScope (fun r => r = .syncCnt c ∨ r = .syncFault home) []) s u
    (∀ h, sat h 1 (.inc t h)) ∧
    (∀ h vreg stepv, sat h ((τ.svreg vreg).toNat % 2 ^ 16) (.add t h vreg stepv)) ∧
    (∀ h vreg stepv, let c : Reg := .syncCnt (handleOf τ h)
      (s.reg c).toNat + (τ.svreg vreg).toNat % 2 ^ 16 = 0xFFFFFFFF → Settled s → barrierReady s = none →
      (∀ b ∈ s.net.barriers, BitVec.ofNat 13 b.desc.counter ≠ handleOf τ h) →
      Answers (.add t h vreg stepv) s fun u => u.reg c = 0xFFFFFFFF#32 ∧ Only { regs := (· = c), tiles := (· = t) } s u)

/-- R231, what the sync root checks. -/
def Obligations.SetWhileWaitPendingIsARace : Prop :=
  ∀ (t : TileId) (s : State) (h vreg : Nat) (stepv : Bool), canAct s t = true →
    let c := handleOf (s.tile t) h
    let home : DieId := c.extractLsb' 10 3
    waitPending s c = true → barrierReady s = none →
      Answers (.set t h vreg stepv) s fun u => (∀ d, u.reg (.syncCnt d) = s.reg (.syncCnt d)) ∧
        u.flag (.syncFault home) F.syncFault_SET_RACE = true ∧
        Faulted { code := 0x84, die := home.toNat, loc := c.toNat } s u ∧ (jobLoaded s = true → Stopping u) ∧
        Only (faultScope (· = .syncFault home) []) s u

/-- LEAF (R52-R56, R91, R99, R101-R104, R107, R109, R116, R262, R467). -/
def Obligations.LeafTakesTheNextPositionOfItsTree : Prop :=
  ∀ (t : TileId) (s : State), canAct s t = true → RegsOk s →
    ∀ (set : Bool) (td areg : Nat) (ahi : Bool) (breg : Nat) (bhi opn : Bool) (bx : Nat) (bxinc dro dstats : Bool),
      let τ := s.tile t
      let d := tdOf τ td
      let old := τ.set set
      let new : AccSet := {
        isOpen := true, tdIx := td, td := d, block := τ.cgxreg bx, keyStep := (siteOf s d.site).keyStep, next := d.firstLeaf,
        int := List.replicate 16 0, out := old.out, outTag := old.outTag }
      let x : AccSet := if opn then
          if d.preload = false then new else if d.fmtA = 7 then { new with next := d.firstLeaf + 1 }
          else fedSet τ.beat new (Config.preload τ.vr τ.mo td)
        else old
      let o : LeafIn := { a := τ.moreg areg, ahi, b := τ.moreg breg, bhi, sa := τ.moreg 8, sb := τ.moreg 9 }
      let zs := (List.range 16).map fun j => x.int.getD j 0 + intLeaf o j
      let y : AccSet := if x.td.fmtA = 7 then { x with int := zs.map wrap32, next := x.next + 1 } else (leafTaken τ x o).1
      let z := τ.set (!set)
      let drained : AccSet := if dro && (z.isOpen && z.drain.isNone) then { z with drain := some { stats := dstats, issued := τ.beat } } else z
      Answers (.leaf t set td areg ahi breg bhi opn bx bxinc dro dstats) s fun u =>
        u.tile t = (({ inItsBeat s t with
          accSel := set, writes := τ.writes ++ if opn && bxinc then [.cgxInc bx 1] else [] } : Tile).putSet set y).putSet (!set) drained ∧
        (x.td.fmtA = 7 → u.flag (.tileErr t) F.tileErr_INT_OVF = (s.flag (.tileErr t) F.tileErr_INT_OVF || zs.any fun z => wrap32 z ≠ z) ∧
          BitsBut [F.tileErr_INT_OVF.lo] (s.reg (.tileErr t)) (u.reg (.tileErr t))) ∧
        (x.td.fmtA ≠ 7 → FpRaised t (leafTaken τ x o).2 s u) ∧
        Only { regs := (· = .tileErr t), tiles := (· = t) } s u

/-- The rest of the MX slot (R50, R99, R102, R107-R109, R113, R114, R117, R262). -/
def Obligations.TreesFormDrainAndPark : Prop :=
  ∀ (t : TileId) (s : State) (b : Bool), canAct s t = true → RegsOk s → MemOk s →
    let τ := s.tile t
    let x := τ.set b
    let gone : AccSet := { out := x.out, outTag := x.outTag }
    let ecc (σ : Tile) (bank l : Nat) : Ecc := tget σ.upset {} (lineKey bank l)
    (∀ (hits : List (Nat × Nat × Ecc)) (j : NodeJob), let σ := hits.foldl (fun τ h => withHit τ (lineKey h.1 h.2.1) h.2.2) (inItsBeat s t)
      let line := x.td.stackLine + (j.level - 5)
      let l := j.left.getD (s.line t x.td.stackBank line)
      let r := if j.pass then (j.right, {}) else nodeSum (setKeys τ x) x.td.trm (nodeNum j.level j.idx) l j.right
      x.jobs = [j] → j.due ≤ τ.beat → (j.pass = false → j.left = none → ecc σ x.td.stackBank line = {}) → j.level = topLevel x.td →
      Answers (.treeNodeForm t ⟨b, hits⟩) s fun u =>
        u.tile t = σ.putSet b { x with jobs := [], root := some (j.level, r.1) } ∧ FpRaised t r.2 s u ∧
        Only { regs := (· = .tileErr t), tiles := (· = t) } s u) ∧
    (∀ stats, Answers (.drain t b stats) s fun u =>
      u.tile t = (inItsBeat s t).putSet b (if x.isOpen && x.drain.isNone then { x with drain := some { stats, issued := τ.beat } } else x) ∧
      Only { tiles := (· = t) } s u) ∧
    (∀ lv v dr, x.jobs = [] → (x.root.orElse fun _ => if x.td.fmtA = 7 then some (topLevel x.td, 0) else none) = some (lv, v) →
      x.drain = some dr → dr.issued + topLevel x.td ≤ τ.beat →
      let out (w : Line) (g : Option U64) : Tile := ({ inItsBeat s t with writes := τ.writes ++ [.drain b w g] } : Tile).putSet b gone
      let rs := (rootVals x v).mapIdx fun j w => drainElem (setKeys τ x) x.td j w
      let fl := rs.foldl (fun a r => FpFlags.or a r.2) {}
      let w := packElems (fmtBits x.td.outFmt) (rs.map Prod.fst)
      let col := x.block % ceilDiv x.td.nOut 4
      let st := statsLeafLine (rs.map fun r => backToF32 x.td.outFmt r.1) col x.td.nOut x.td.c
      ((x.td.split || x.td.fast) = true → Answers (.drainConvert t b) s fun u =>
        u.tile t = out (rootLine x v) (some (splitOut x lv)) ∧ Only { tiles := (· = t) } s u) ∧
      ((x.td.split || x.td.fast) = false → dr.stats = false → Answers (.drainConvert t b) s fun u =>
        u.tile t = out w none ∧ FpRaised t fl s u ∧ Only { regs := (· = .tileErr t), tiles := (· = t) } s u) ∧
      ((x.td.split || x.td.fast) = false → dr.stats = true → Answers (.drainConvert t b) s fun u =>
        FpRaised t (fl.or st.2) s u ∧ StatLeaf t (out w none) x.tdIx x.td col st.1 s u)) ∧
    (∀ td, x.jobs = [] → let a := spm t x.td.stackBank (x.td.stackLine + 17)
      Answers (.park t b td) s fun u =>
        tfind (u.tile t).parked td = some { x with part := [] } ∧ (u.tile t).set b = gone ∧
        (∀ l < 4, u.line t x.td.stackBank (x.td.stackLine + 17 + l) = tget x.part 0 l) ∧
        Only { tiles := (· = t), mem := fun k => a ≤ k ∧ k < a + 256 } s u) ∧
    (∀ td p, tfind τ.parked td = some p → let e (l : Nat) : Ecc := ecc τ p.td.stackBank (p.td.stackLine + 17 + l)
      ((∀ l < 4, (e l).ue = 0) → Answers (.resume t b td) s fun u =>
        tfind (u.tile t).parked td = none ∧ ((u.tile t).set b).td = p.td ∧ ((u.tile t).set b).next = p.next ∧
        (∀ l < 4, tget ((u.tile t).set b).part 0 l = s.line t p.td.stackBank (p.td.stackLine + 17 + l)) ∧
        Only { regs := fun r => (∃ l < 4, e l ≠ {}) ∧ codeRegs t r, tiles := (· = t) } s u) ∧
      ((∃ l < 4, (e l).ue ≠ 0) → Answers (.resume t b td) s fun u =>
        tfind (u.tile t).parked td = none ∧ u.flag (.tileErr t) F.tileErr_SPM_UE = true ∧ Faulted (tileRec t F.tileErr_SPM_UE) s u ∧
        Only (faultScope (codeRegs t) [.free]) s u)) ∧
    (∀ td, tfind τ.parked td = none → Answers (.resume t b td) s fun u => u.tile t = inItsBeat s t ∧ Only { tiles := (· = t) } s u)

/-- The counter generator and fresh seeds (R61, R62, R126, R130-R139, R142-R145, R267). -/
def Obligations.CounterGeneratorDrawsAndSeeds : Prop :=
  ∀ (t : TileId) (s : State), canAct s t = true →
    let τ := s.tile t
    let here : Scope := { tiles := (· = t) }
    (∀ entry slot, seedValid s (dieOf t) entry = true → Answers (.cgLdkey t entry slot) s fun u =>
      u.tile t = { inItsBeat s t with keys := tset τ.keys slot { seed := seedEntry s (dieOf t) entry, ready := τ.beat + 10, loaded := true } } ∧
      Only here s u) ∧
    (∀ entry slot, seedValid s (dieOf t) entry = false → Answers (.cgLdkey t entry slot) s fun u =>
      u.tile t = { inItsBeat s t with waits := τ.waits ++ [.key entry.toNat slot] } ∧ Only here s u) ∧
    (∀ sp, Answers (.cgXset t sp) s fun u => let d := spdOf τ sp
      u.tile t = { inItsBeat s t with writes := τ.writes ++ [.cgx d.sub ((siteOf s d.site).base + d.p0)] } ∧ Only here s u) ∧
    (∀ sp slot xreg xinc code k, DrawKind.ofCode (spdOf τ sp).sub = some k → Answers (.cgDraw t sp slot xreg xinc code) s fun u =>
      let d := spdOf τ sp
      let blk := τ.cgxreg xreg / (128 / k.width)
      u.tile t = { inItsBeat s t with
        pipe := τ.pipe ++ [{
          beat := τ.beat, seed := τ.seed slot, ctr := cgCounter τ.step d.site 0 blk, kind := d.sub, thr := d.p0 % 2 ^ 16, vreg := d.vreg,
          lane0 := (blk * (128 / k.width)) % 16 }],
        writes := τ.writes ++ (if xinc then [.cgxInc xreg (cgxCode code)] else []) } ∧ Only here s u) ∧
    (∀ (i : CgIssue) k, τ.pipe = [i] → i.beat + 10 ≤ τ.beat → DrawKind.ofCode i.kind = some k → Answers (.cgBlockEmerge t) s fun u =>
      let out := Aes.aes128 i.seed i.ctr
      let n := 128 / k.width
      u.tile t = (if k.table.isSome then { inItsBeat s t with
          pipe := [], tabq := τ.tabq ++ [{
            beat := i.beat, kind := i.kind, vreg := i.vreg, lane0 := i.lane0,
            u24 := (List.range n).map fun j => sliceOf out k.width j / 256 }] }
        else { inItsBeat s t with
          pipe := [], writes := τ.writes ++ (List.range n).map fun j =>
            .lane i.vreg ((i.lane0 + j) % 16) (k.result (sliceOf out k.width j) i.thr) }) ∧ Only here s u) ∧
    (∀ (i : TabDraw) tb, τ.tabq = [i] → i.beat + 11 ≤ τ.beat → (DrawKind.ofCode i.kind).bind DrawKind.table = some tb →
      Answers (.tableTransform t) s fun u =>
        u.tile t = { inItsBeat s t with
          tabq := [], writes := τ.writes ++ i.u24.zipIdx.map fun p => .lane i.vreg ((i.lane0 + p.2) % 16) (tableEval tb p.1) } ∧
        Only here s u) ∧
    (∀ entry, s.echo.replay = false → s.job.rank = 0 → s.ent.alarm = false → Answers (.freshSeed t entry) s fun u =>
      (∀ d, seedValid u d entry = false ∧ bitOf (u.reg (.cgsPending d)) entry.toNat = true) ∧
      u.tile t = { inItsBeat s t with waits := τ.waits ++ [.fresh entry.toNat] } ∧
      { bits := 128, use := .fresh entry.toNat } ∈ u.ent.waiting ++ u.ent.mcQueue ∧
      Only { regs := fun r => r = .entStatus ∨ ∃ d, r = .cgsStatus d ∨ r = .cgsPending d, tiles := (· = t), parts := [.ent] } s u) ∧
    (∀ entry, s.echo.replay = false → s.job.rank = 0 → s.ent.alarm = true → Settled s →
      Answers (.freshSeed t entry) s fun u =>
        u.flag (.cgsFault (dieOf t)) F.cgsFault_FRESH_FAIL = true ∧ seedValid u (dieOf t) entry = false ∧
        Faulted { code := 0x81, die := (dieOf t).toNat, loc := t.toNat } s u ∧
        Only (faultScope (fun r => ∃ d, r = .cgsStatus d ∨ r = .cgsPending d ∨ r = .cgsFault d) []) s u) ∧
    (∀ (entry : BitVec 4) v, Live s → MemOk s → s.job.rank = 0 → s.job.count = 1 → bitOf (s.reg (.cgsPending 0)) entry.toNat = true →
      s.job.fresh = [(entry.toNat, v)] →
      (∀ p ∈ s.tiles, p.2.ctl = none ∧ (p.2.waits = [] ∨ p.2.waits = [.fresh entry.toNat])) →
      Answers (.freshSeedComplete entry) s fun u =>
        (∀ d, seedEntry u d entry = v ∧ seedValid u d entry = true ∧ bitOf (u.reg (.cgsPending d)) entry.toNat = false) ∧
        Logged { typ := 3, agent := entry.toNat, len := 16, payload := v.toNat } s u ∧ Settled u ∧ u.job.fresh = [] ∧
        Only { regs := fun r => echoRegs r ∨ ∃ d, r = .cgsStatus d ∨ r = .cgsPending d ∨ ∃ w, r = .cgsSeed d entry w,
               tiles := fun _ => True, mem := echoSlot s, parts := [.job, .echo] } s u)

/-- The Sieve's slots (R154, R155, R157, R166, R169-R171, R469). -/
def Obligations.SieveSlotsFeedTheRow : Prop :=
  ∀ (t : TileId) (s : State), canAct s t = true → RegsOk s → ∀ sp : Nat,
    let τ := s.tile t
    let d := spdOf τ sp
    let n : BitVec 9 := BitVec.ofNat 9 d.p0
    let fed (slot pass x lo cnt : Nat) : List (Score × FpFlags) :=
      ((List.range cnt).filter fun k => x + lo + k < d.p1).map fun k => laneScore s t d slot pass (x + lo + k) (lane (τ.vreg d.vreg) (lo + k))
    let r := s.row n
    let fills (noised : Bool) (rs : List (Score × FpFlags)) (ws : List RegW) (u : State) : Prop :=
      u.tile t = { inItsBeat s t with writes := τ.writes ++ ws } ∧
      u.row n = { r with
        len := if r.len = 0 then d.p1 else r.len, fset := if r.len = 0 then d.p2 % 256 else r.fset, step := τ.step,
        mode := if noised then drawMode s n ((d.p2 / 2 ^ 8) % 4) else r.mode, scores := r.scores ++ rs.map Prod.fst } ∧
      (∀ m, m ≠ n → u.row m = s.row m) ∧ FpRaised t (rs.foldl (fun a r => a.or r.2) {}) s u ∧
      Only { regs := (· = .tileErr t), tiles := (· = t), parts := [.rows] } s u
    (∀ slot, Answers (.svLdkey t sp slot) s fun u =>
      u.tile t = { inItsBeat s t with keys := tset τ.keys slot { seed := svcSeedOf s n, ready := τ.beat + 10, loaded := true } } ∧
      Only { tiles := (· = t) } s u) ∧
    (∀ xreg xinc code, Answers (.svPass t sp xreg xinc code) s
      (fills (decide (d.sub = 8)) (fed 0 d.sub (τ.cgxreg xreg) 0 16) (if xinc then [.cgxInc xreg (cgxCode code)] else []))) ∧
    (∀ slot xreg xinc code quarter, Answers (.svDraw t sp slot xreg xinc code quarter) s
      (fills true (fed slot 8 (τ.cgxreg xreg) (4 * quarter) 4) (if xinc then [.cgxInc xreg (cgxCode code)] else []))) ∧
    ((s.row n).len = 0 → Answers (.svCtxrd t sp) s fun u =>
      u.tile t = { inItsBeat s t with writes := τ.writes ++ [.vec d.vreg (Config.ctxLayout (ctxWords s n)) none] } ∧
      Only { tiles := (· = t) } s u) ∧
    ((s.row n).len ≠ 0 → Answers (.svCtxrd t sp) s fun u =>
      u.tile t = { inItsBeat s t with waits := τ.waits ++ [.sieve n.toNat d.vreg] } ∧ Only { tiles := (· = t) } s u)

/-- The combiners and the host's answer (R156, R164, R167-R176, R286, R295, R307). -/
def Obligations.SieveDecidesAndAnswersComeBack : Prop :=
  ∀ (n : BitVec 9) (s : State), Settled s →
    let v := decideRow s n (s.row n)
    let res (u : State) (st : Nat) (hd : Bool) (fl : Nat) : Prop :=
      u.fget (.svcResult n) F.svcResult_STATUS = st ∧ u.flag (.svcResult n) F.svcResult_HOST_DIFF = hd ∧
      u.fget (.svcResult n) ⟨26, 24⟩ = fl % 8
    let errs (r : Reg) : Prop := ∃ p ∈ v.errs, r = .tileErr p.1
    let others (u : State) : Prop := ∀ m, m ≠ n → u.row m = s.row m
    (rowReady (s.row n) = true → (s.row n).decided = false →
      (v.status ≠ 0 → Answers (.sieveDecision n) s fun u =>
        res u (v.status % 16) false v.flags ∧ u.fget (.svcResult n) F.svcResult_INDEX = s.fget (.svcResult n) F.svcResult_INDEX ∧
        u.row n = {} ∧ others u ∧ Only { regs := fun r => r = .svcResult n ∨ errs r, parts := [.rows] } s u) ∧
      (v.status = 0 → (s.row n).mode ≠ 2 → Answers (.sieveDecision n) s fun u =>
        res u 0 false v.flags ∧ u.fget (.svcResult n) F.svcResult_INDEX = v.own % 2 ^ 20 ∧ u.reg (.svcYSel n) = v.y ∧
        u.reg (.svcM n) = v.m ∧ u.reg (.svcS n) = v.s ∧ svcPos u n = (svcPos s n + 1) % 2 ^ 48 ∧ u.row n = {} ∧ others u ∧
        Only { regs := fun r => r = .svcResult n ∨ r = .svcYSel n ∨ r = .svcM n ∨ r = .svcS n ∨ r = .svcPosLo n ∨ r = .svcPosHi n ∨ errs r,
               parts := [.rows] } s u) ∧
      (v.status = 0 → (s.row n).mode = 2 → s.echo.replay = false → MemOk s → Answers (.sieveDecision n) s fun u =>
        let a := hostMem (Config.exportAddr s.job.img.hdr.digest n.toNat)
        u.fget (.svcCtrl n) F.svcCtrl_STATE = 2 ∧
        u.bytes a (4 * v.exports.length) = v.exports.flatMap (fun x => leBytes 4 x.toNat) ∧
        u.row n = { s.row n with decided := true, own := v.own, kept := v.kept, rm := v.m, rs := v.s, flags := v.flags } ∧ others u ∧
        Only { regs := fun r => r = .svcCtrl n ∨ errs r, mem := fun k => a ≤ k ∧ k < a + 4 * v.exports.length, parts := [.rows] } s u)) ∧
    (0 < (s.row n).len → ∀ d : DieId,
      Answers (.combRetry d n false) s (fun u => u.flag (.svdFault d) F.svdFault_COMB_RETRY = true ∧
        u.flag (.svdFault d) F.svdFault_COMB_FAIL = s.flag (.svdFault d) F.svdFault_COMB_FAIL ∧ Only { regs := (· = .svdFault d) } s u) ∧
      Answers (.combRetry d n true) s fun u => u.flag (.svdFault d) F.svdFault_COMB_RETRY = true ∧
        u.flag (.svdFault d) F.svdFault_COMB_FAIL = true ∧
        Faulted { code := 0x8D, die := d.toNat, loc := n.toNat } s u ∧ Only (faultScope (· = .svdFault d) []) s u) ∧
    (s.fget (.svcCtrl n) F.svcCtrl_STATE = 2 → (s.row n).decided = true → s.fget (.svcHostTmo n) F.svcHostTmo_MS ≠ 0 → Live s → MemOk s →
      Answers (.hostTimeout n) s fun u =>
        Logged { typ := 9, agent := n.toNat, aux := 2 ^ 64 - 1 } s u ∧ u.fget (.svcCtrl n) F.svcCtrl_STATE = 1 ∧
        res u 6 false (s.row n).flags ∧ u.fget .echoJob F.echoJob_CLASS = 2 ∧ bitOf (u.reg .echoJob) 9 = true ∧
        u.row n = {} ∧ others u ∧
        Only { regs := fun r => echoRegs r ∨ r = .svcCtrl n ∨ r = .svcResult n, mem := echoSlot s, parts := [.rows, .job, .echo] } s u)

/-- Evaluations (R31, R66, R71, R182, R183, R191). -/
def Obligations.LedgerEntriesAddToFields : Prop :=
  ∀ (t : TileId) (s : State), canAct s t = true → RegsOk s → ∀ sp : Nat,
    let τ := s.tile t
    let d := spdOf τ sp
    let sel (es : List Entry) (m : BitVec 16) : List Entry :=
      (es.zipIdx.filter fun p => d.p2.testBit p.2 && m.getLsbD p.2).map Prod.fst
    let es := (τ.fe.entries.drop d.p0).take 16
    let units (u : State) : Tile := { inItsBeat s t with fe := { τ.fe with units := (u.tile t).fe.units } }
    (Answers (.feEval t sp 0 0) s fun u =>
      Evaluated t (d.sub % 4) (d.p1 % 2 ^ 16) (sel es 0xFFFF) s u ∧ u.tile t = units u ∧ Only { tiles := (· = t) } s u) ∧
    (∀ ce, sel es ce ≠ [] → Answers (.feEval t sp ce 0) s fun u =>
      Evaluated t (d.sub % 4) (d.p1 % 2 ^ 16) (sel es 0xFFFF) s u ∧ u.tile t = units u ∧
      u.fget (.tileEcc t) F.tileEcc_LEDGER_CE = min 0xFFFF (s.fget (.tileEcc t) F.tileEcc_LEDGER_CE + (sel es ce).length) ∧
      u.flag (.tileErr t) F.tileErr_LEDGER_CE = true ∧ BitsBut [F.tileErr_LEDGER_CE.lo] (s.reg (.tileErr t)) (u.reg (.tileErr t)) ∧
      Only { regs := codeRegs t, tiles := (· = t) } s u) ∧
    (∀ ue, sel es ue ≠ [] → Answers (.feEval t sp 0 ue) s fun u =>
      TileFaulted t F.tileErr_LEDGER_UE s u ∧ Only (faultScope (codeRegs t) [.free]) s u) ∧
    (∀ st ln x0 left0, streamOf s d.p0 = some st → tget τ.fe.spos (0, 94, 0) d.p0 = (ln, x0, left0) →
      let at_ (n : Nat) : List Byte := lineBytes (s.line t (bufferSlot st n).1 (bufferSlot st n).2)
      let key (n : Nat) : Nat := lineKey (bufferSlot st n).1 (bufferSlot st n).2
      let start := if left0 = 0 then ln + 1 else ln
      let here := (left0 = 0 → τ.full.contains (key ln) = true) ∧ τ.full.contains (key start) = true ∧ τ.full.contains (key (start + 1)) = true
      let right := ∀ n, ln ≤ n → n ≤ start + 1 → tget τ.upset {} (key n) = {}
      let x := if left0 = 0 then leAt (at_ ln) 0 1 else x0
      let left := if left0 = 0 then min 256 (leAt (at_ ln) 2 2) else left0
      let es := (List.range (min 16 left)).map fun i => entryOf x (leAt (at_ start ++ at_ (start + 1)) (8 * i) 8)
      let next := if left - 16 = 0 then ceilDiv (start + 2) 33 * 33 else start + 2
      (here → right → Answers (.feSeval t sp 0 0) s fun u =>
        Evaluated t (d.sub % 4) (d.p1 % 2 ^ 16) (sel es 0xFFFF) s u ∧
        u.tile t = { inItsBeat s t with
          full := τ.full.filter fun q => !(((List.range (next - ln)).map fun i => key (ln + i)).contains q),
          fe := { τ.fe with units := (u.tile t).fe.units, spos := tset τ.fe.spos d.p0 (next, x, left - 16) } } ∧
        Only { tiles := (· = t) } s u) ∧
      (¬ here → ∀ ce ue, Answers (.feSeval t sp ce ue) s fun u =>
        let c : Reg := .pgvHlateCount (dieOf t)
        u.tile t = { inItsBeat s t with late := true, waits := τ.waits ++ [.seval d ce ue] } ∧
        u.reg c = (if τ.late then s.reg c else sat32 (s.reg c) 1) ∧
        Only { regs := (· = c), tiles := (· = t) } s u))

/-- Percolator updates (R181, R188-R192, R196, R261). -/
def Obligations.PercolatorUpdatesDrawStates : Prop :=
  ∀ (t : TileId) (s : State), canAct s t = true → RegsOk s → MemOk s → ∀ sp slot : Nat,
    let τ := s.tile t
    let d := spdOf τ sp
    let beta := lane (τ.vreg d.vreg) 0
    let fin := d.p1.testBit 0
    let after (y : FeUnit) : FeUnit := if fin && y.s then { y with cnt := satAdd 0xFFFFFFFF y.cnt 1 } else y
    let done (u : State) : Prop :=
      u.tile t = { inItsBeat s t with fe := { τ.fe with units := (u.tile t).fe.units, ends := τ.fe.ends + b2n fin } } ∧
      (fin = true → u.reg (.feSweepLo (dieOf t)) = BitVec.ofNat 32 (lowestEnds u fun q => dieOf q = dieOf t)) ∧
      Only { regs := fun r => fin = true ∧ (r = .feSweepLo (dieOf t) ∨ r = .feSweepHi (dieOf t)), tiles := (· = t),
             mem := sourceBytesOf t s } s u
    let faulted (u : State) : Prop :=
      u.flag (.feFault (dieOf t)) F.feFault_BETA_INVALID = true ∧ (u.tile t).fe = τ.fe ∧
      Faulted { code := 0x8C, die := (dieOf t).toNat, loc := t.toNat } s u ∧ Only (faultScope (· = .feFault (dieOf t)) []) s u
    let apart := ∀ k k' x x', tfind τ.fe.units k = some x → tfind τ.fe.units k' = some x' → x.chain = x'.chain → x.var = x'.var → k = k'
    let new (x : FeUnit) : Bool := flt (tableEval 3 (unitU24 τ d slot x)) (thresholdOf beta x)
    (betaOk beta = true → (τ.fe.units.map Prod.fst).Nodup → Answers (.pcUpdate t sp slot) s fun u => done u ∧
      (∀ k x, tfind τ.fe.units k = some x → tfind (u.tile t).fe.units k = some (after (
        if k / 16 = d.p0 / 2 ^ 16 % 4 ∧ (d.p0 % 2 ^ 16).testBit (k % 16) = true ∧ x.group = 0 then { x with s := new x, acc := x.base } else x))) ∧
      (apart → ∀ k x j, (k, x) ∈ updateUnits τ d → x.group = 0 → τ.fe.srcs.findIdx? (· = (x.chain, x.var)) = some j → srcBit u t j = new x)) ∧
    (∀ k0 x0 w, betaOk beta = true → (τ.fe.units.map Prod.fst).Nodup →
      ((updateUnits τ d).filter fun p => p.2.group ≠ 0).head? = some (k0, x0) →
      groupWinner ((τ.fe.units.filter fun p => p.2.group = x0.group).map fun p => (p.1, p.2.var, groupKey τ d slot beta p.2)) = some w →
      Answers (.pcOhdraw t sp slot) s fun u => done u ∧
        (∀ k x, tfind τ.fe.units k = some x → tfind (u.tile t).fe.units k = some (after (
          if x.group = x0.group then { x with s := decide (k = w.1), acc := x.base } else x))) ∧
        (apart → ∀ k x j, tfind τ.fe.units k = some x → x.group = x0.group → τ.fe.srcs.findIdx? (· = (x.chain, x.var)) = some j →
          srcBit u t j = decide (k = w.1))) ∧
    (betaOk beta = true → (∀ p ∈ updateUnits τ d, p.2.group = 0) → Answers (.pcOhdraw t sp slot) s fun u => done u ∧
      ∀ k x, tfind τ.fe.units k = some x → tfind (u.tile t).fe.units k = some (after x)) ∧
    (betaOk beta = false → Answers (.pcUpdate t sp slot) s faulted ∧ Answers (.pcOhdraw t sp slot) s faulted)

/-- Blocks and readout (R181, R187, R194-R196, R206, R214, R261, R288). -/
def Obligations.FieldStateRotatesAndIsReadOut : Prop :=
  ∀ (t : TileId) (s : State), canAct s t = true → MemOk s → ∀ sp : Nat,
    let τ := s.tile t
    let d := spdOf τ sp
    let fe := s.job.img.fe
    let base := regionBase s d.p0
    (fe.rotation = [] → Answers (.feRot ⟨t, sp⟩) s fun u => u.tile t = inItsBeat s t ∧ Only { tiles := (· = t) } s u) ∧
    (fe.rotation ≠ [] →
      let len := fe.rotation.length
      let n := τ.fe.entered len
      let block := fe.blockAt (some (n % len))
      let w := s.after (writeOutgoing base n)
      let b := tget s.job.fe.blocks {} (t.toNat, block)
      let right := sha3 (blockForm w block) = tget s.job.fe.digests (sha3 []) block
      let stateBytes (a : Nat) : Prop := ∃ p ∈ s.tiles, ∃ q ∈ p.2.fe.units,
        a = stateAddr base fe.nvar q.2.var q.2.chain ∨
        (pairAddr base fe.nvar q.2.var q.2.chain ≤ a ∧ a < pairAddr base fe.nvar q.2.var q.2.chain + 8)
      let entered (u : State) : Prop :=
        (u.tile t).fe.rot = some (n % len) ∧ (u.tile t).fe.passes = n / len ∧
        u.reg (.feRot (dieOf t)) = BitVec.ofNat 32 (min 0xFFFF (n / len) * 2 ^ 16 + (n % len) % 2 ^ 12) ∧
        (((fe.places.filter fun p => p.tile = t.toNat && p.block = block).map Place.unit).Nodup →
          ∀ p ∈ fe.places, p.tile = t.toNat → p.block = block → ∃ x, tfind (u.tile t).fe.units p.unit = some x ∧
            x.var = p.var ∧ x.chain = p.chain ∧ x.colour = p.colour ∧ x.group = p.group ∧ x.acc = x.base ∧
            x.cnt = (match tfind τ.fe.units p.unit with
              | some y => y.cnt
              | none => tget τ.fe.idle 0 p.unit) ∧
            (x.s, x.x, x.y) = vectorVal w fe.mode fe.nvar base p.var p.chain)
      (right → Answers (.feRot ⟨t, sp⟩) s fun u => entered u ∧
        (u.tile t).fe.entries = readForm (w.bytes b.addr b.len) (b.len / 2112) ∧ (u.tile t).fe.srcs = b.srcs ∧
        (u.tile t).fe.streamed = b.streamed ∧ u.tile t = { inItsBeat s t with fe := (u.tile t).fe } ∧
        Only { regs := (· = .feRot (dieOf t)), tiles := (· = t),
               mem := fun a => stateBytes a ∨ (srcBase s t ≤ a ∧ a < srcBase s t + 4 * b.srcs.length) } s u) ∧
      (¬ right → Answers (.feRot ⟨t, sp⟩) s fun u => entered u ∧ u.flag (.feFault (dieOf t)) F.feFault_LEDGER_CHANGED = true ∧
        Faulted { code := 0x8B, die := (dieOf t).toNat, loc := t.toNat } s u ∧
        Only { faultScope (fun r => r = .feRot (dieOf t) ∨ r = .feFault (dieOf t)) [] with
          mem := fun a => stateBytes a ∨ sourceBytesOf t s a } s u)) ∧
    (let us := storeUnits τ d
      let bit (x : FeUnit) : Nat := stateAddr base fe.nvar x.var x.chain
      let cnt (x : FeUnit) : Nat := hbm (base + (x.var + x.chain * fe.nvar) * 4)
      let pair (x : FeUnit) : Nat := pairAddr base fe.nvar x.var x.chain
      (∀ p ∈ us, p.2.var < fe.nvar) → (∀ p ∈ us, ∀ q ∈ us, p.2.var = q.2.var → p.2.chain = q.2.chain → p.1 = q.1) →
      Answers (.feStore t sp) s fun u =>
        (u.job.written.any fun p => p.1 = d.p0) = true ∧ u.tile t = inItsBeat s t ∧
        (d.sub = 0 → (∀ p ∈ us, (u.byte (bit p.2)).getLsbD (p.2.var % 8) = p.2.up fe.mode) ∧
          (∀ a i, i < 8 → (∀ p ∈ us, ¬ (a = bit p.2 ∧ i = p.2.var % 8)) → (u.byte a).getLsbD i = (s.byte a).getLsbD i) ∧
          Only { tiles := (· = t), mem := fun a => ∃ p ∈ us, a = bit p.2, parts := [.job] } s u) ∧
        (d.sub = 1 → (∀ p ∈ us, u.bytes (cnt p.2) 4 = leBytes 4 p.2.cnt) ∧
          Only { tiles := (· = t), mem := fun a => ∃ p ∈ us, cnt p.2 ≤ a ∧ a < cnt p.2 + 4, parts := [.job] } s u) ∧
        (2 ≤ d.sub → (∀ p ∈ us, u.bytes (pair p.2) 8 = leBytes 4 p.2.x.toNat ++ leBytes 4 p.2.y.toNat) ∧
          Only { tiles := (· = t), mem := fun a => ∃ p ∈ us, pair p.2 ≤ a ∧ a < pair p.2 + 8, parts := [.job] } s u)) ∧
    (let named (k : Nat) : Bool := decide (k / 16 = d.p1 / 2 ^ 16 % 4) && (d.p1 % 2 ^ 16).testBit (k % 16);
      Answers (.feMagclr t sp) s fun u =>
        u.tile t = { inItsBeat s t with fe := { τ.fe with units := (u.tile t).fe.units, idle := (u.tile t).fe.idle } } ∧
        (∀ k x, tfind τ.fe.units k = some x → tfind (u.tile t).fe.units k = some (if named k then { x with cnt := 0 } else x)) ∧
        (∀ k, tget (u.tile t).fe.idle 0 k = if named k then 0 else tget τ.fe.idle 0 k) ∧
        Only { tiles := (· = t) } s u)

/-- The Roaster (R181, R196, R201-R206, R208, R211-R213). -/
def Obligations.RoasterMovesAndSamples : Prop :=
  (∀ (t : TileId) (s : State), canAct s t = true → RegsOk s → MemOk s → ∀ sp slot : Nat,
    let τ := s.tile t
    let d := spdOf τ sp
    let us := updateUnits τ d
    let fin := d.p1.testBit 0
    let apart := ∀ k k' x x', tfind τ.fe.units k = some x → tfind τ.fe.units k' = some x' → x.chain = x'.chain → x.var = x'.var → k = k'
    let after (y : FeUnit) : FeUnit := if fin && y.up 2 then { y with cnt := satAdd 0xFFFFFFFF y.cnt 1 } else y
    let moved (k : Nat) (x : FeUnit) : FeUnit :=
      if k / 16 = d.p0 / 2 ^ 16 % 4 ∧ (d.p0 % 2 ^ 16).testBit (k % 16) = true then
        match (unitUpdate s τ d slot x).1 with
        | some v => { x with x := v.1, y := v.2, acc := x.base }
        | none => x
      else x
    let fault (f : Fld) (code : Nat) (u : State) : Prop := u.flag (.rsStatus (dieOf t)) f = true ∧
      Faulted { code, die := (dieOf t).toNat, loc := t.toNat } s u
    let ended (r : Reg) : Prop := fin = true ∧ ∃ e, r = .rsIter e
    (¬ (fin = true ∧ 2 ^ 32 ≤ τ.fe.ends + 1) → Answers (.rsUpdate t sp slot) s fun u =>
      (∀ k x, tfind τ.fe.units k = some x → tfind (u.tile t).fe.units k = some (after (moved k x))) ∧
      (u.tile t).fe.ends = τ.fe.ends + b2n fin ∧ FpRaised t (us.foldl (fun fl p => fl.or (unitUpdate s τ d slot p.2).2) {}) s u ∧
      (fin = true → ∀ e, u.reg (.rsIter e) = BitVec.ofNat 32 (lowestEnds u fun _ => true)) ∧
      (apart → ∀ k x v j, (k, x) ∈ us → (unitUpdate s τ d slot x).1 = some v → τ.fe.srcs.findIdx? (· = (x.chain, x.var)) = some j →
        srcPos u t j = v.1) ∧
      ((∀ p ∈ us, (unitUpdate s τ d slot p.2).1.isSome = true) →
        u.tile t = { inItsBeat s t with fe := { τ.fe with units := (u.tile t).fe.units, ends := τ.fe.ends + b2n fin } } ∧
        Only { regs := fun r => ended r ∨ r = .tileErr t, tiles := (· = t), mem := sourceBytesOf t s } s u) ∧
      ((∃ p ∈ us, (unitUpdate s τ d slot p.2).1 = none) → fault F.rsStatus_NONFINITE 0x82 u ∧
        Only { faultScope (fun r => ended r ∨ r = .tileErr t ∨ r = .rsStatus (dieOf t)) [] with mem := sourceBytesOf t s } s u)) ∧
    (fin = true → 2 ^ 32 ≤ τ.fe.ends + 1 → Answers (.rsUpdate t sp slot) s fun u =>
      (u.tile t).fe = τ.fe ∧ fault F.rsStatus_ITER_WRAP 0x83 u ∧
      Only (faultScope (· = .rsStatus (dieOf t)) []) s u)) ∧
  (∀ (e : DieId) (s : State), s.job.phase ≠ .none → s.job.img.fe.mode = 2 → Answers (.profileParams e) s fun u =>
    (u.reg (.rsParamT e), u.reg (.rsParamA e), u.reg (.rsParamG e)) = roastParams s.job.fe s.job.img.fe.roaster.dt (highestEnds s e) ∧
    Only { regs := fun r => r = .rsParamT e ∨ r = .rsParamA e ∨ r = .rsParamG e } s u) ∧
  (∀ (t : TileId) (s : State), canAct s t = true → RegsOk s → MemOk s →
    let τ := s.tile t
    let r := s.job.img.fe.roaster
    let i := τ.fe.ends
    let n := s.job.fe.trace
    let a := hbm (r.traceBase + 64 * n)
    let own := (List.range s.job.img.fe.nchain).map fun ch => (i, ch, t.toNat, tileEnergy s t r.cont ch)
    let sums := (s.job.fe.sums.filter fun p => !(p.1 = i && p.2.2.1 = t.toNat)) ++ own
    let parts := sums.filter fun p => p.1 = i
    let block := s.job.img.fe.blockAt (((energyTiles s).head?.map fun t => (s.tile (BitVec.ofNat 11 t)).fe.rot).getD none)
    let sample (xs : List (Nat × Nat × Nat × Int × Int)) (ch : Nat) (at_ : Option Nat) : List Byte :=
      let mine := xs.filter fun p => p.2.1 = ch
      sampleBytes τ.step i ch block (b2n r.cont + 2 * b2n (!s.job.img.fe.rotation.isEmpty)) at_
        (mine.foldl (fun x p => x + p.2.2.2.1) 0) (mine.foldl (fun x p => x + p.2.2.2.2) 0)
    let chains := List.range s.job.img.fe.nchain
    let samples := if r.traceRaw
      then (energyTiles s).flatMap fun t' => chains.map fun ch => sample (parts.filter fun p => p.2.2.1 = t') ch (some t')
      else chains.map fun ch => sample parts ch none
    let fits := min samples.length (r.traceCap - n)
    let reloaded (u : State) : Prop := u.tile t = { inItsBeat s t with fe := { τ.fe with
      units := τ.fe.units.map fun p => (p.1, { p.2 with acc := p.2.base }) } }
    (r.traceInt = 0 → Answers (.rsEnergy t) s fun u => reloaded u ∧ Only { tiles := (· = t) } s u) ∧
    (r.traceInt ≠ 0 → (∃ t' ∈ energyTiles s, ∀ p ∈ parts, p.2.2.1 ≠ t') → Answers (.rsEnergy t) s fun u =>
      reloaded u ∧ u.job = { s.job with fe := { s.job.fe with sums } } ∧ Only { tiles := (· = t), parts := [.job] } s u) ∧
    (r.traceInt ≠ 0 → (∀ t' ∈ energyTiles s, ∃ p ∈ parts, p.2.2.1 = t') → Answers (.rsEnergy t) s fun u =>
      reloaded u ∧ u.bytes a (64 * fits) = (samples.take fits).flatten ∧
      u.job = { s.job with fe := { s.job.fe with sums := sums.filter fun p => p.1 ≠ i, trace := n + fits } } ∧
      u.reg (.rsTraceCount 0) = (if fits = 0 then s.reg (.rsTraceCount 0) else BitVec.ofNat 32 (n + fits)) ∧
      u.reg (.rsTraceDrop 0) = sat32 (s.reg (.rsTraceDrop 0)) (samples.length - fits) ∧
      u.flag (.rsStatus 0) F.rsStatus_TRACE_FULL = (s.flag (.rsStatus 0) F.rsStatus_TRACE_FULL || decide (fits < samples.length)) ∧
      BitsBut [F.rsStatus_TRACE_FULL.lo] (s.reg (.rsStatus 0)) (u.reg (.rsStatus 0)) ∧
      Only { regs := fun q => q = .rsTraceCount 0 ∨ q = .rsTraceDrop 0 ∨ q = .rsStatus 0, tiles := (· = t),
             mem := fun k => a ≤ k ∧ k < a + 64 * fits, parts := [.job] } s u))

/-- Exchanges of boundary positions (R216, R217, R295, R298, R355, R365-R369). -/
def Obligations.ExchangesSendBoundaryPositions : Prop :=
  ∀ (t : TileId) (s : State), canAct s t = true → Settled s → MemOk s → s.net.outgoing = [] → ∀ (sp : Nat) (r : Region),
    let τ := s.tile t
    let d := spdOf τ sp
    let lay := Config.xchgLayout s.job.img.hdr.digest d.p1
    let inRegion (a : Nat) : Prop := hbm r.base ≤ a ∧ a < hbm r.base + r.len
    let stored (u : State) : Prop := ∀ p ∈ lay.zipIdx, ∀ x, ownPosition s p.1 = some x → 4 * p.2 + 4 ≤ r.len →
      u.bytes (hbm (r.base + 4 * p.2)) 4 = leBytes 4 x.toNat
    let frame (q : Nat) (f : Frame) : List Frame :=
      match portFor s q with
      | none => []
      | some port => [dress s port (rosterAddr s q) f]
    let frames (u : State) (q : Nat) : List Frame :=
      let n := fragCount r.len
      (List.range n).flatMap fun i => frame q (jobFrame s q (if d.p0.testBit 15 then 3 else 2) (4 * b2n (i + 1 = n)) d.p0
        ((s.chan q d.p0).txNext + i) (fragment d.p1 (u.bytes (hbm r.base) r.len) i))
    let series (u : State) (q : Nat) : Prop :=
      u.chan q d.p0 = { s.chan q d.p0 with txNext := (s.chan q d.p0).txNext + fragCount r.len, sent := (s.chan q d.p0).sent + 1 }
    let named (q : Nat) : Nat := if d.p0.testBit 15 then d.p0 else d.p0 / 4096 * 4096 + q
    let armed (q : Nat) : Bool := s.net.arrivals.any fun a => a.async && a.channel = named q
    let peers := (chanRanks s d.p0).filter (· ≠ s.job.rank)
    let skips := (peers.filter fun q => !hasCredit s q d.p0).length
    let arms := (armRanks s d.p0).filter (· ≠ s.job.rank)
    regionOf s d.p1 = some r →
    (τ.fe.ends % max 1 s.job.img.fe.roaster.e ≠ 0 → Answers (.annealXchgLock t sp) s fun u =>
      u.tile t = inItsBeat s t ∧ Only { tiles := (· = t) } s u) ∧
    (τ.fe.ends % max 1 s.job.img.fe.roaster.e = 0 → s.job.alone = true → Answers (.annealXchgLock t sp) s fun u =>
      stored u ∧ u.tile t = inItsBeat s t ∧ (handleOf τ d.p2).toNat ∈ u.net.closing ∧ u.net.sent = s.net.sent ∧
      Only { tiles := (· = t), mem := inRegion, parts := [.net] } s u) ∧
    (τ.fe.ends % max 1 s.job.img.fe.roaster.e = 0 → s.job.alone = false → chanRanks s d.p0 ≠ [] →
      (∀ q ∈ chanRanks s d.p0, q ≠ s.job.rank ∧ (s.chan q d.p0).acked ≤ (s.chan q d.p0).txNext) →
      Answers (.annealXchgLock t sp) s fun u =>
        let qs := (chanRanks s d.p0).filter fun q => hasCredit s q d.p0
        stored u ∧ (∀ q ∈ qs, series u q) ∧ u.net.sent = s.net.sent ++ qs.flatMap (frames u) ∧
        (handleOf τ d.p2).toNat ∈ u.net.closing ∧
        u.tile t = { inItsBeat s t with waits := if (chanRanks s d.p0).all fun q => hasCredit s q d.p0 then [] else [.bxSend d] } ∧
        Only { tiles := (· = t), mem := inRegion, parts := [.net] } s u) ∧
    (setMissing s = true → Answers (.annealXchgAsync t sp) s fun u => u = s) ∧
    (s.echo.replay = false → (∀ q ∈ otherRanks s, setFor s d.p1 q = none) →
      ((∀ q ∈ arms, armed q = true) → Answers (.annealXchgAsync t sp) s fun u =>
        stored u ∧ (∀ q ∈ peers, hasCredit s q d.p0 = true → series u q) ∧
        u.net.sent = s.net.sent ++ (peers.filter fun q => hasCredit s q d.p0).flatMap (frames u) ∧
        u.reg (.rsXchgSkip 0) = sat32 (s.reg (.rsXchgSkip 0)) skips ∧ u.tile t = inItsBeat s t ∧
        Only { regs := fun x => x = .rsXchgSkip 0 ∧ skips ≠ 0, tiles := (· = t), mem := inRegion, parts := [.net] } s u) ∧
      (∀ q, arms = [q] → armed q = false → (∀ p ∈ peers, hasCredit s p d.p0 = false) → Answers (.annealXchgAsync t sp) s fun u =>
        stored u ∧ { channel := named q, region := d.p1, counter := none, async := true } ∈ u.net.arrivals ∧
        (u.chan q (named q)).armed = (s.chan q (named q)).armed + 1 ∧
        u.net.sent = s.net.sent ++ frame q { jobFrame s q 2 1 (named q) 0 [] with credit := ((s.chan q (named q)).armed + 1) % 2 ^ 16 } ∧
        u.reg (.rsXchgSkip 0) = sat32 (s.reg (.rsXchgSkip 0)) skips ∧ u.tile t = inItsBeat s t ∧
        Only { regs := fun x => x = .rsXchgSkip 0 ∧ skips ≠ 0, tiles := (· = t), mem := inRegion, parts := [.net] } s u)) ∧
    (∀ (q seq region : Nat) (bs : List Byte), Live s → (∀ p ∈ peers, hasCredit s p d.p0 = false) → (∀ p ∈ arms, armed p = true) →
      otherRanks s = [q] → setFor s d.p1 q = some (seq, region, bs) →
      (∀ p ∈ s.tiles, ∀ a, sourceBytesOf p.1 s a → ¬ echoSlot s a) →
      Answers (.annealXchgAsync t sp) s fun u =>
        Logged { typ := 0x0A, agent := q, aux := seq, payload := τ.fe.ends } s u ∧
        u.net.sets = s.net.sets.filter (fun p => !(p.1.1 = q && decide (p.1.2 ≤ seq))) ∧
        tfind u.job.fe.taken q = some (seq, region, bs) ∧ u.tile t = inItsBeat s t ∧
        Only { regs := fun x => echoRegs x ∨ (x = .rsXchgSkip 0 ∧ skips ≠ 0), tiles := (· = t),
               mem := fun a => inRegion a ∨ echoSlot s a ∨ ∃ p ∈ s.tiles, sourceBytesOf p.1 s a, parts := [.net, .job, .echo] } s u)

/-- Bexir operations of the SP slot (R295, R357, R365-R367, R369). -/
def Obligations.BexirSlotsSendAndArm : Prop :=
  ∀ (t : TileId) (s : State), canAct s t = true → Settled s → MemOk s → s.net.outgoing = [] → ∀ sp : Nat,
    let τ := s.tile t
    let d := spdOf τ sp
    let rs := chanRanks s d.p0
    let c := handleOf τ d.p2
    (s.job.alone = true → Answers (.bxSend t sp) s fun u => u.tile t = inItsBeat s t ∧ Only { tiles := (· = t) } s u) ∧
    (∀ r, s.job.alone = false → regionOf s d.p1 = some r → rs ≠ [] → (∀ q ∈ rs, q ≠ s.job.rank ∧ (s.chan q d.p0).acked ≤ (s.chan q d.p0).txNext) →
      Answers (.bxSend t sp) s fun u =>
        let n := fragCount r.len
        let qs := rs.filter fun q => hasCredit s q d.p0
        let frames (q : Nat) : List Frame := match portFor s q with
          | none => []
          | some port => (List.range n).map fun i => dress s port (rosterAddr s q) (jobFrame s q (if d.p0.testBit 15 then 3 else 2)
              (4 * b2n (i + 1 = n)) d.p0 ((s.chan q d.p0).txNext + i) (fragment d.p1 (s.bytes (hbm r.base) r.len) i))
        u.net.sent = s.net.sent ++ qs.flatMap frames ∧
        (∀ q, u.chan q d.p0 = if q ∈ qs then { s.chan q d.p0 with
          txNext := (s.chan q d.p0).txNext + n, sent := (s.chan q d.p0).sent + 1 } else s.chan q d.p0) ∧
        (u.net.outgoing.map fun o => (o.channel, o.region, o.counter, o.targets, o.unsent)) =
          [(d.p0, d.p1, some c.toNat, rs, rs.filter fun q => !hasCredit s q d.p0)] ∧
        u.tile t = { inItsBeat s t with waits := if rs.all fun q => hasCredit s q d.p0 then [] else [.bxSend d] } ∧
        Only { tiles := (· = t), parts := [.net] } s u) ∧
    (∀ r (a : Arrival) k, let me := s.job.rank
      let x := s.chan me d.p0
      regionOf s d.p1 = some r → rs = [me] → hasCredit s me d.p0 = true → arrivalFor s me d.p0 = some a → a.region = d.p1 → a.async = false →
      a.counter = some k → isXchgRegion s d.p1 = false → s.net.barriers = [] →
      s.job.alone = false → (∀ n, tget s.echo.given 0 n = 0) → Live s → Room 3 s → BitVec.ofNat 13 k ≠ c →
      (s.reg (.syncCnt c)).toNat + 1 < 2 ^ 32 → (s.reg (.syncCnt (BitVec.ofNat 13 k))).toNat + 1 < 2 ^ 32 →
      (∀ b, hbm r.base ≤ b ∧ b < hbm r.base + r.len → ¬ echoSlots 3 s b) →
      Answers (.bxSend t sp) s fun u =>
        LoggedAll [
          { typ := 6, agent := me + 2 ^ 16 * d.p0, aux := x.txNext, len := r.len, payload := digestNum (s.bytes (hbm r.base) r.len) },
          { typ := 7, agent := k, aux := 1 }, { typ := 7, agent := c.toNat, aux := 1 }] s u ∧
        u.net.outgoing = [] ∧ u.net.arrivals = s.net.arrivals.erase a ∧ u.chan me d.p0 = { x with
          txNext := x.txNext + 1, sent := x.sent + 1, arrived := x.arrived + 1, acked := x.txNext + 1, rxNext := x.txNext + 1 } ∧
        (u.reg (.syncCnt c)).toNat = (s.reg (.syncCnt c)).toNat + 1 ∧
        (u.reg (.syncCnt (BitVec.ofNat 13 k))).toNat = (s.reg (.syncCnt (BitVec.ofNat 13 k))).toNat + 1 ∧
        u.net.sent = s.net.sent ∧ u.tile t = inItsBeat s t ∧
        Only { regs := fun q => echoRegs q ∨ q = .syncCnt c ∨ q = .syncCnt (BitVec.ofNat 13 k), tiles := (· = t), mem := echoSlots 3 s,
               parts := [.net, .job, .echo] } s u) ∧
    Answers (.bxArrive t sp) s fun u =>
      u.net.arrivals = s.net.arrivals ++ [{ channel := d.p0, region := d.p1, counter := some c.toNat }] ∧
      (∀ q, u.chan q d.p0 = if q ∈ armRanks s d.p0 then { s.chan q d.p0 with armed := (s.chan q d.p0).armed + 1 } else s.chan q d.p0) ∧
      u.net.sent = s.net.sent ++ ((armRanks s d.p0).filter (· ≠ s.job.rank)).flatMap (fun q => match portFor s q with
        | none => []
        | some port => [dress s port (rosterAddr s q) { jobFrame s q 2 1 d.p0 0 [] with credit := ((s.chan q d.p0).armed + 1) % 2 ^ 16 }]) ∧
      u.tile t = inItsBeat s t ∧ Only { tiles := (· = t), parts := [.net] } s u

/-- DMA operations of the SP slot (R344-R346). -/
def Obligations.DmaSlotsTakeDescriptors : Prop :=
  ∀ (t : TileId) (s : State), canAct s t = true → ∀ sp : Nat,
    let τ := s.tile t
    let d := spdOf τ sp
    let g := ringOf d
    let op (kind : Nat) : Instr := match kind with | 0 => .dmaRd t sp | 1 => .dmaWr t sp | _ => .hostScatterAdd t sp
    let moved (u : State) : Prop := tget u.hif.ringNext 0 g.toNat = (tget s.hif.ringNext 0 g.toNat + 1) % ringSize s g
    ∀ kind < 3,
      (nextDescriptor s g = none → Answers (op kind) s fun u =>
        u.tile t = { inItsBeat s t with waits := τ.waits ++ [.dma kind d] } ∧ Only { tiles := (· = t) } s u) ∧
      (∀ bs r, nextDescriptor s g = some bs → regionOf s d.p1 = some r → descriptorOk kind bs (some r) = true → d.p0 < 32 →
        Answers (op kind) s fun u => moved u ∧
          u.hif.transfers = s.hif.transfers ++ [{
            kind, ring := d.p0, host := leAt bs 0 8, len := leAt bs 8 4, addr := r.base + leAt bs 16 8, region := d.p1,
            prov := leAt bs 24 8, counter := some (handleOf τ d.p2).toNat, stream := Config.streamBuffer s.job.img.hdr.digest d.p1, tries := 0 }] ∧
          u.tile t = inItsBeat s t ∧ Only { tiles := (· = t), parts := [.hif] } s u) ∧
      (∀ bs, nextDescriptor s g = some bs → (descriptorOk kind bs (regionOf s d.p1) && decide (d.p0 < 32)) = false →
        Answers (op kind) s fun u => moved u ∧ u.hif.transfers = s.hif.transfers ∧ u.flag .hifErr F.hifErr_DMA_DESC = true ∧
          Faulted { code := 0x8F, loc := d.p0 } s u ∧ (jobLoaded s = true → Stopping u) ∧
          Only (faultScope (· = .hifErr) [.hif]) s u)

/-- ADMIT (R168, R295, R341-R343, R345). -/
def Obligations.AdmitReleasesAdmitsAndReports : Prop :=
  ∀ (t : TileId) (s : State), canAct s t = true → Settled s → MemOk s → Live s → Room 2 s → ∀ (sp : Nat) (fails : BitVec 4),
    let τ := s.tile t
    let d := spdOf τ sp
    let q := d.p0 % 2 ^ 16
    let named := ((lanes (τ.vreg d.vreg)).take 8).filter fun w => w.getLsbD 31 && decide (w.toNat % 512 < 384)
    let ctlOf (r : Reg) : Prop := ∃ w ∈ named, r = .svcCtrl (w.extractLsb' 0 9)
    let report (vals : List (U32 × U32)) (u : State) : Prop :=
      u.tile t = { inItsBeat s t with writes := τ.writes ++ (admitReport vals).zipIdx.map fun p => .lane d.vreg (8 + p.2) p.1 }
    let image (r : Request) : Option (List Byte) := if r.ctx = 0 then none else some (s.bytes (hostMem r.ctx) 128)
    let entries (r : Request) (n : Nat) : List EchoEntry :=
      (if r.ctx = 0 then [] else [{ typ := 5, agent := 0xFF, aux := r.ctx, len := 128, payload := digestNum (s.bytes (hostMem r.ctx) 128) }]) ++
        [{ typ := 8, agent := n, aux := r.tag, len := 2, payload := r.queue }]
    let admitted (r : Request) (n : BitVec 9) (ok : Bool) (u : State) : Prop :=
      LoggedAll (entries r n.toNat) s u ∧ report [admitLanes n r.tag (!ok)] u ∧ u.hif.pool = s.hif.pool.erase r ∧
      (qOn s r.queue = true → (u.qp r.queue).ready = (s.qp r.queue).ready ++
        [{ queue := r.queue, cid := r.cid, head := r.head, result0 := n.toNat, code := if ok then 0 else 0x75, typ := 0 }]) ∧
      u.fget (.svcCtrl n) F.svcCtrl_STATE = b2n ok ∧
      (ok = true → ∀ bs, image r = some bs → ∀ p ∈ ctxFields n bs, p.1 ≠ .svcCtrl n → u.reg p.1 = p.2 &&& p.1.impl)
    let scope (n : BitVec 9) (more : Reg → Prop) : Scope := {
      regs := fun r => echoRegs r ∨ r ∈ (ctxFields n []).map Prod.fst ∨ more r, tiles := (· = t), mem := echoSlots 2 s, parts := [.hif, .job, .echo] }
    (s.hif.admMode = 0 → (∀ r ∈ s.hif.pool, r.queue ≠ q) → Answers (.poolAdmit t sp fails) s fun u =>
      (∀ w ∈ named, streamFree u (w.extractLsb' 0 9) = true) ∧ Logged { typ := 8, agent := 0xFFFFFFFF } s u ∧ report [] u ∧
      Only { regs := fun r => echoRegs r ∨ ctlOf r, tiles := (· = t), mem := echoSlot s, parts := [.job, .echo] } s u) ∧
    (s.hif.admMode = 1 → s.flag .admStatus F.admStatus_LAST_SEEN = true → Answers (.poolAdmit t sp fails) s fun u =>
      (∀ w ∈ named, streamFree u (w.extractLsb' 0 9) = true) ∧ report [] u ∧ Only { regs := ctlOf, tiles := (· = t) } s u) ∧
    (∀ r n, named = [] → s.hif.admMode = 0 → s.hif.pool.filter (·.queue = q) = [r] → chooseStream s r.prefixId [] = some n →
      (r.ctx ≠ 0 → fails.getLsbD 0 = false) → Answers (.poolAdmit t sp fails) s fun u =>
        admitted r n (bindOk s (bindFields s n (image r)) n) u ∧ Only (scope n (fun x => r.last = true ∧ x = .admStatus)) s u) ∧
    (∀ r, let n : BitVec 9 := BitVec.ofNat 9 ((s.reg .admNextTag).toNat % 384)
      named = [] → s.hif.admMode = 1 → s.flag .admStatus F.admStatus_LAST_SEEN = false → streamFree s n = true →
      s.hif.pool.find? (fun r => r.queue = q && r.tag = (s.reg .admNextTag).toNat) = some r → r.last = true →
      (r.ctx ≠ 0 → fails.getLsbD 0 = false) → Answers (.poolAdmit t sp fails) s fun u =>
        admitted r n (bindOk s (bindFields s n (image r)) n) u ∧ u.reg .admNextTag = BitVec.ofNat 32 (r.tag + 1) ∧
        u.flag .admStatus F.admStatus_LAST_SEEN = true ∧ Only (scope n fun x => x = .admStatus ∨ x = .admNextTag) s u) ∧
    (named = [] → s.hif.admMode = 1 → s.flag .admStatus F.admStatus_LAST_SEEN = false →
      streamFree s (BitVec.ofNat 9 ((s.reg .admNextTag).toNat % 384)) = true →
      s.hif.pool.find? (fun r => r.queue = q && r.tag = (s.reg .admNextTag).toNat) = none → Answers (.poolAdmit t sp fails) s fun u =>
        u.tile t = { inItsBeat s t with waits := [.admission d [] (some (4, fails))] } ∧ Only { tiles := (· = t) } s u) ∧
    (∀ r n, named = [] → s.hif.admMode = 0 → s.hif.pool.filter (·.queue = q) = [r] → chooseStream s r.prefixId [] = some n →
      r.ctx ≠ 0 → fails.getLsbD 0 = true → Answers (.poolAdmit t sp fails) s fun u =>
        u.hif.pool = s.hif.pool.erase r ∧
        (qOn s r.queue = true → (u.qp r.queue).ready = (s.qp r.queue).ready ++
          [{ queue := r.queue, cid := r.cid, head := r.head, result0 := 0, code := 7, typ := 1 }]) ∧
        Logged { typ := 8, agent := 0xFFFFFFFF } s u ∧ report [] u ∧
        Only { regs := echoRegs, tiles := (· = t), mem := echoSlot s, parts := [.hif, .job, .echo] } s u)

/-- Values from outside (R293, R295, R298, R376, R397). -/
def Obligations.ReadsOfTimeAndTelemetryAreLogged : Prop :=
  ∀ (t : TileId) (s : State), canAct s t = true → Settled s → MemOk s → ∀ sp : Nat,
    let τ := s.tile t
    let d := spdOf τ sp
    let lanes (vals : List U32) : Tile := { inItsBeat s t with writes := τ.writes ++ vals.zipIdx.map fun p => .lane d.vreg p.2 p.1 }
    let two (v : Nat) : List U32 := [BitVec.ofNat 32 v, BitVec.ofNat 32 (v / 2 ^ 32)]
    let time (r : Reg) : Prop := r = .ptpTimeLo ∨ r = .ptpTimeHi
    (∀ now : U64, Live s → Answers (.timestampRead t sp now) s fun u =>
      let v := if d.sub = 0 then now.toNat else s.pair .ptpPpsInLo .ptpPpsInHi
      u.pair .ptpTimeLo .ptpTimeHi = now.toNat ∧ Logged { typ := 0x0B, agent := d.sub, aux := v } s u ∧ u.tile t = lanes (two v) ∧
      Only { regs := fun r => echoRegs r ∨ time r, tiles := (· = t), mem := echoSlot s, parts := [.job, .echo] } s u) ∧
    (Live s → Answers (.telemetryRead t sp) s fun u =>
      let v := telemetry s (dieOf t) d.sub
      Logged { typ := 0x0C, agent := d.sub, aux := v } s u ∧ u.tile t = lanes [BitVec.ofNat 32 v] ∧
      Only { regs := echoRegs, tiles := (· = t), mem := echoSlot s, parts := [.job, .echo] } s u) ∧
    (∀ (now : U64) seq (e : EchoEntry), s.echo.replay = true → s.echo.stopped = false → s.echo.late = [] → nextSource s = some (seq, e) →
      (∃ p, nextSource { s with echo := { s.echo with pos := s.echo.pos + 1 } } = some p ∧ p.2.typ = 8) → e.agent = d.sub →
      (e.typ = 0x0B → Answers (.timestampRead t sp now) s fun u => u.echo.pos = s.echo.pos + 1 ∧ u.echo.last = seq ∧ u.tile t = lanes (two e.aux) ∧
        Only { regs := time, tiles := (· = t), parts := [.job, .echo] } s u) ∧
      (e.typ = 0x0C → Answers (.telemetryRead t sp) s fun u => u.echo.pos = s.echo.pos + 1 ∧ u.echo.last = seq ∧
        u.tile t = lanes [BitVec.ofNat 32 e.aux] ∧ Only { tiles := (· = t), parts := [.job, .echo] } s u))

/-- Windows (R11, R12, R51, R168, R246, R436). -/
def Obligations.WindowsOfTilesStreamsAndCounters : Prop :=
  ∀ s : State, RegsOk s → MemOk s →
    (∀ t : TileId, Powered s (.tileSpmData t) →
      let a := spm t 0 0 + (s.reg (.tileSpmAddr t)).toNat
      let reached := (tileSpm t s).pass
      let moved (u : State) : Prop := u.reg (.tileSpmAddr t) = BitVec.ofNat 32 (((s.reg (.tileSpmAddr t)).toNat + 4) % 0x100000)
      let busy (u : State) : Prop := u.flag (.tileErr t) F.tileErr_CTL_BUSY = true ∧
        BitsBut [F.tileErr_CTL_BUSY.lo] (s.reg (.tileErr t)) (u.reg (.tileErr t))
      ((jobLoaded s = true → 2 ≤ s.sec.session) → reached = true → Answers (.tileSpmDataRead t) s fun u =>
        leBytes 4 u.out.read.toNat = s.bytes a 4 ∧ moved u ∧ Only { regs := (· = .tileSpmAddr t), parts := [.out] } s u) ∧
      ((jobLoaded s = true → 2 ≤ s.sec.session) → reached = false → Answers (.tileSpmDataRead t) s fun u =>
        u.out.read = 0xACCE55ED ∧ busy u ∧ Only { regs := (· = .tileErr t), parts := [.out] } s u) ∧
      (jobLoaded s = true → s.sec.session < 2 → Answers (.tileSpmDataRead t) s fun u => u.out.read = 0 ∧ Only { parts := [.out] } s u) ∧
      (∀ v, (jobLoaded s = true → 3 ≤ s.sec.session) → reached = true → Answers (.tileSpmDataWrite t v) s fun u =>
        u.bytes a 4 = leBytes 4 v.toNat ∧ moved u ∧
        (let k := (s.reg (.tileSpmAddr t)).toNat
        u.tile t = (s.tile t).mended (k / 64) (1#8 <<< (k % 64 / 8))) ∧
        Only { regs := (· = .tileSpmAddr t), tiles := (· = t), mem := fun b => a ≤ b ∧ b < a + 4 } s u) ∧
      (∀ v, (jobLoaded s = true → 3 ≤ s.sec.session) → reached = false → Answers (.tileSpmDataWrite t v) s fun u =>
        busy u ∧ Only { regs := (· = .tileErr t) } s u) ∧
      (∀ v, jobLoaded s = true → s.sec.session < 3 → Answers (.tileSpmDataWrite t v) s fun u => busy u ∧
        u.fget .secDbgStatus F.secDbgStatus_DENIED = min 0xFFFF (s.fget .secDbgStatus F.secDbgStatus_DENIED + 1) ∧
        Only { regs := fun r => r = .tileErr t ∨ r = .secDbgStatus } s u)) ∧
    (∀ (n : BitVec 9) (v : U32), n.toNat < 384 → Powered s (.svcCtrl n) →
      let c : Reg := .svcCtrl n
      let rej (u : State) (b : Bool) : Prop := u.flag c F.svcCtrl_WR_REJ = b ∧ BitsBut [F.svcCtrl_WR_REJ.lo] (s.reg c) (u.reg c)
      (streamFree s n = true → Answers (.svcCtrlWrite n v) s fun u => u.reg c = c.written (s.reg c) v ∧ Only { regs := (· = c) } s u) ∧
      (streamFree s n = false → Answers (.svcCtrlWrite n v) s fun u => Only { regs := (· = c) } s u ∧
        rej u (if v &&& c.rw ≠ s.reg c &&& c.rw then true else if F.svcCtrl_WR_REJ.get v = 1 then false else s.flag c F.svcCtrl_WR_REJ)) ∧
      (∀ off r, 4 ≤ off → off < 0x80 → regAt s (c.addr + off) = some r → offBlock s (c.addr + off) = false →
        (streamFree s n = false → Answers (.svcContextWrite n off v) s fun u => rej u true ∧ Only { regs := (· = c) } s u) ∧
        (streamFree s n = true → r.pairHi = none → r.pairLo = none → Answers (.svcContextWrite n off v) s fun u =>
          u.reg r = r.written (s.reg r) v ∧ Only { regs := (· = r) } s u) ∧
        (∀ h, streamFree s n = true → r.pairHi = some h → Answers (.svcContextWrite n off v) s fun u =>
          tfind u.held r = some v ∧ (∀ q, q ≠ r → tfind u.held q = tfind s.held q) ∧ Only { parts := [.held] } s u) ∧
        (∀ l, streamFree s n = true → r.pairLo = some l → Answers (.svcContextWrite n off v) s fun u =>
          u.reg l = (tfind s.held l).getD (s.reg l) ∧ u.reg r = r.written (s.reg r) v ∧ tfind u.held l = none ∧
          Only { regs := fun q => q = l ∨ q = r, parts := [.held] } s u))) ∧
    (∀ (c : BitVec 13) (v : U32), Powered s (.syncCnt c) →
      let f : Reg := .syncFault (c.extractLsb' 10 3)
      (jobLoaded s = false → Answers (.syncCntWrite c v) s fun u => u.reg (.syncCnt c) = v ∧ Only { regs := (· = .syncCnt c) } s u) ∧
      (jobLoaded s = true → Answers (.syncCntWrite c v) s fun u => u.flag f F.syncFault_CTL_WR = true ∧
        BitsBut [F.syncFault_CTL_WR.lo] (s.reg f) (u.reg f) ∧ Only { regs := (· = f) } s u))

/-- Accesses over BAR0 (R10-R12, R236, R237, R245, R352, R374, R378, R389). -/
def Obligations.BusAccessesActByRegister : Prop :=
  ∀ s : State, RegsOk s →
    (∀ off write mc, pstate s < 4 → offBlock s off = true → Answers (.poweredOffAccess off write mc) s fun u =>
      u.fget .offCount F.offCount_COUNT = min (2 ^ 31 - 1) (s.fget .offCount F.offCount_COUNT + 1) ∧
      u.fget (.offAddr 0) F.offAddr_OFFSET = off % 2 ^ 26 ∧ u.flag (.offAddr 0) F.offAddr_WRITE = write ∧
      u.flag (.offAddr 0) F.offAddr_SRC = mc ∧
      (∀ i < 7, u.reg (.offAddr (BitVec.ofNat 3 (i + 1))) = s.reg (.offAddr (BitVec.ofNat 3 i))) ∧
      (write = false → u.out.read = offValue) ∧
      Only { regs := fun r => r = .offCount ∨ ∃ i, r = .offAddr i, parts := if write then [] else [.out] } s u) ∧
    (Powered s .offCount → Answers .offaccessClear s fun u => u.reg .offCount = 0 ∧ (∀ i, u.reg (.offAddr i) = 0) ∧
      Only { regs := fun r => r = .offCount ∨ ∃ i, r = .offAddr i } s u) ∧
    (∀ off lo hi (now : U64), pstate s < 4 → offBlock s off = false → regAt s off = some lo → lo.pairHi = some hi →
      (lo ≠ .ptpTimeLo → Answers (.pairLoRead off now) s fun u => u.out.read = readReg s lo ∧ tget u.latched 0 hi = readReg s hi ∧
        Only { parts := [.latched, .out] } s u) ∧
      (lo = .ptpTimeLo → Answers (.pairLoRead off now) s fun u => u.out.read.toNat + 2 ^ 32 * (tget u.latched 0 hi).toNat = now.toNat ∧
        Only { regs := fun r => r = lo ∨ r = hi, parts := [.latched, .out] } s u) ∧
      (∀ v, ownWrite lo = false → writeLocked s lo = false → (∀ n, lo.ctxOf = some n → streamFree s n = true) →
        Answers (.pairLoWrite off v) s fun u => tfind u.held lo = (if lo.pairRw then some v else tfind s.held lo) ∧
          (∀ q, q ≠ lo → tfind u.held q = tfind s.held q) ∧ Only { parts := [.held] } s u)) ∧
    (∀ off lo hi v, pstate s < 4 → offBlock s off = false → regAt s off = some hi → hi.pairLo = some lo → writeLocked s hi = false →
      (∀ n, hi.ctxOf = some n → streamFree s n = true) →
      let l := (tfind s.held lo).getD (s.reg lo)
      (lo.pairRw = false → Answers (.pairHiWrite off v) s fun u => u = s) ∧
      (lo.pairRw = true → hi ≠ .hifBar2BaseHi → hi ≠ .echoDrainHi → Answers (.pairHiWrite off v) s fun u =>
        u.reg lo = lo.written (s.reg lo) l &&& lo.impl ∧ u.reg hi = hi.written (s.reg hi) v &&& hi.impl ∧ tfind u.held lo = none ∧
        (∀ q, q ≠ lo → tfind u.held q = tfind s.held q) ∧ Only { regs := fun q => q = lo ∨ q = hi, parts := [.held] } s u) ∧
      (hi = .hifBar2BaseHi → Answers (.pairHiWrite off v) s fun u =>
        u.pair lo hi = (l.toNat + 2 ^ 32 * (v.toNat % 512)) / s.hif.bar2Size * s.hif.bar2Size ∧
        Only { regs := fun q => q = lo ∨ q = hi, parts := [.held] } s u) ∧
      (hi = .echoDrainHi → s.echo.waiting = [] → s.echo.late = [] → s.echo.replay = false → Answers (.pairHiWrite off v) s fun u =>
        u.pair lo hi = l.toNat + 2 ^ 32 * v.toNat ∧
        Only { regs := fun q => q = lo ∨ q = hi ∨ q = .echoStatus, parts := [.held] } s u)) ∧
    (∀ off v a, let o := off / 4 * 4
      (∀ en, en ≠ 15 ∨ 4 ≤ pstate s → Answers (.registerWrite off v en a) s fun u => u = s) ∧
      (offBlock s o = false → regAt s o = none → Answers (.registerWrite off v 15 a) s fun u => u = s) ∧
      (∀ r, pstate s < 4 → offBlock s o = false → regAt s o = some r → ownWrite r = false → r.ctxOf = none →
        (writeLocked s r = true → Answers (.registerWrite off v 15 a) s fun u => u = s) ∧
        (writeLocked s r = false → r.pairHi = none → r.pairLo = none → Answers (.registerWrite off v 15 a) s fun u =>
          u.reg r = r.written (s.reg r) v &&& r.impl ∧ Only { regs := (· = r) } s u)))

/-- The register map (R461, R462, R465). -/
def Obligations.EveryRegisterAnswersAtItsOffset : Prop :=
  ∀ (s : State) (r : Reg),
    (∀ n, r.ctxOf = some n → n.toNat < 384) →
    (∀ d l, r = .d2dStat d l ∨ r = .d2dRetry d l → l ≠ 3) →
    (∀ j, r = .imgStatus j ∨ r = .imgWhere j ∨ r = .imgWhereItem j ∨ r = .imgWrdrop j → j.toNat = s.fget .imgSel F.imgSel_SLOT) →
    regAt s r.addr = some r ∧ r.addr % 4 = 0

/-- The governors (R18-R26, R33, R34, R309, R328, R395, R396). -/
def Obligations.GovernorsHoldAndPace : Prop :=
  ∀ (d : DieId) (s : State), RegsOk s →
    let g : Reg := .pgvStatus d
    let inService (x : Nat) : Prop := (d.toNat, x) ∉ s.pwr.retiredSensors ∧ (d.toNat, x) ∉ s.pwr.badSensors
    let asserted (u : State) : Prop := BitSet g F.pgvStatus_DROOP_HOLD s u ∧
      u.reg (.pgvDroopCount d) = (if dieHeld s d then s.reg (.pgvDroopCount d) else sat32 (s.reg (.pgvDroopCount d)) 1)
    let ended (ns : Nat) (u : State) : Prop := dieHeld u d = false ∧ BitsBut [F.pgvStatus_DROOP_HOLD.lo] (s.reg g) (u.reg g) ∧
      u.pair (.pgvHoldNsLo d) (.pgvHoldNsHi d) = min (2 ^ 64 - 1) (s.pair (.pgvHoldNsLo d) (.pgvHoldNsHi d) + ns)
    let holdRegs (r : Reg) : Prop := r = g ∨ r = .pgvHoldNsLo d ∨ r = .pgvHoldNsHi d
    (∀ x uv, inService x → 16 < sagOf (setpointUv s) uv → Answers (.droopHoldAssert d ⟨x, uv⟩) s fun u => asserted u ∧ d.toNat ∈ u.pwr.droop ∧
      Only { regs := fun r => r = g ∨ r = .pgvDroopCount d, parts := [.pwr] } s u) ∧
    (∀ x uv, ¬ inService x ∨ sagOf (setpointUv s) uv ≤ 16 → Answers (.droopHoldAssert d ⟨x, uv⟩) s fun u => u = s) ∧
    (∀ uv ns, d.toNat ∈ s.pwr.droop → dieHeld s d = true → (∀ p ∈ s.pwr.badSensors, p.1 ≠ d.toNat) → sagOf (setpointUv s) uv ≤ 8 →
      Answers (.droopHoldRelease d ⟨uv, ns⟩) s fun u =>
      ended ns u ∧ d.toNat ∉ u.pwr.droop ∧ Only { regs := holdRegs, parts := [.pwr] } s u) ∧
    (∀ uv ns, 8 < sagOf (setpointUv s) uv → Answers (.droopHoldRelease d ⟨uv, ns⟩) s fun u => u = s) ∧
    (∀ uv ns x, d.toNat ∈ s.pwr.droop → (d.toNat, x) ∈ s.pwr.badSensors → sagOf (setpointUv s) uv ≤ 8 → Answers (.droopHoldRelease d ⟨uv, ns⟩) s fun u =>
      d.toNat ∉ u.pwr.droop ∧ Only { parts := [.pwr] } s u) ∧
    (dieHeld s d = true → d.toNat ∈ s.pwr.droop → Answers (.droopStuck d) s fun u => BitSet (.pgvFault d) F.pgvFault_DROOP_STUCK s u ∧
      Faulted { code := 0x8A, die := d.toNat } s u ∧ Only (faultScope (· = .pgvFault d) []) s u) ∧
    (∀ x, inService x → Answers (.sensorFail d x) s fun u => asserted u ∧ BitSet (.pgvFault d) F.pgvFault_SENSOR_FAIL s u ∧
      (d.toNat, x) ∈ u.pwr.badSensors ∧ Only { regs := fun r => r = g ∨ r = .pgvDroopCount d ∨ r = .pgvFault d, parts := [.pwr] } s u) ∧
    (∀ x ns, s.pwr.badSensors = [(d.toNat, x)] → s.flt.mcAbsent = false → Answers (.sensorRetire d x ns) s fun u =>
      u.pwr.badSensors = [] ∧ u.pwr.retiredSensors = (d.toNat, x) :: s.pwr.retiredSensors ∧ Recorded 0x92 0 d.toNat x s u ∧
      (dieHeld s d = true → d.toNat ∉ s.pwr.droop → ended ns u) ∧ (d.toNat ∈ s.pwr.droop → u.reg g = s.reg g) ∧
      u.hif = s.hif.signalled 1 ∧ Only { regs := fun r => recRegs r ∨ holdRegs r, parts := [.pwr, .hif] } s u) ∧
    (s.job.phase = .running → dieStopped s d = false → (∀ p ∈ s.tiles, p.2.mode ≠ .halted) →
      (∃ p ∈ s.tiles, dieOf p.1 = d ∧ internalWait s p.1 = true) → Answers (.stallWatchdogExpiry d) s fun u =>
        BitSet (.pgvFault d) F.pgvFault_STALL s u ∧ Faulted { code := 0x89, die := d.toNat } s u ∧
        Only (faultScope (· = .pgvFault d) []) s u) ∧
    (∀ demand avg peak, Answers (.budgetDivide demand avg peak) s fun u =>
      u.fget .pwrInputW F.pwrInputW_AVG_W = min avg 0xFFFF ∧
      u.fget .pwrPeakW F.pwrPeakW_PEAK = max (s.fget .pwrPeakW F.pwrPeakW_PEAK) (min peak 0xFFFF) ∧
      (s.flt.mcAbsent = false → u.pwr = { s.pwr with
        budget := match capInForce s with
          | none => []
          | some c => demand.zipIdx.map fun x => (x.2, 1000 * c * x.1 / max 1 (demand.foldl (· + ·) 0)) }) ∧
      Only { regs := fun r => r = .pwrInputW ∨ r = .pwrPeakW, parts := if s.flt.mcAbsent then [] else [.pwr] } s u) ∧
    (∀ power rate (tj : BitVec 16) (vsense : BitVec 8) (hold : Bool),
      let r := if s.flag g F.pgvStatus_PARKED then 0 else min rate 0xFFFF
      let h := holdDensity ((tfind s.pwr.budget d.toNat).getD power) power r
      Answers (.pacingAdjust d power ⟨rate, hold⟩ tj vsense) s fun u =>
        u.fget (.pgvBeatrate d) F.pgvBeatrate_MBEAT = r ∧ u.fget (.pgvTj d) F.pgvTj_TJ = tj.toNat ∧
        u.fget g F.pgvStatus_VSENSE = vsense.toNat ∧ tfind u.pwr.density d.toNat = some (u.fget g F.pgvStatus_PACE_DUTY) ∧
        (d.toNat ∉ s.pwr.dieLimit → u.fget g F.pgvStatus_PACE_DUTY = h ∧ u.free = s.free) ∧
        (d.toNat ∈ s.pwr.dieLimit → h ≤ u.fget g F.pgvStatus_PACE_DUTY) ∧
        u.flag g F.pgvStatus_PACING = (hold && decide (0 < u.fget g F.pgvStatus_PACE_DUTY)) ∧
        (∀ f ∈ [F.pgvStatus_DROOP_HOLD, F.pgvStatus_PARKED], u.flag g f = s.flag g f) ∧
        Only { regs := fun q => q = g ∨ q = .pgvBeatrate d ∨ q = .pgvTj d, parts := [.pwr, .free] } s u) ∧
    (∀ duty, s.flt.mcAbsent = false → Answers (.vsetAdjust duty) s fun u =>
      let v := s.fget .pwrVset F.pwrVset_VSET
      let top := s.fget .pwrEnvActive F.pwrEnvActive_VCEIL
      u.fget .pwrVset F.pwrVset_VSET = (if 20 < duty then (if 30 < v then max 30 (v - 5) else v)
        else if duty < 5 ∧ v < top then min top (v + 5) else v) ∧ Only { regs := (· = .pwrVset) } s u) ∧
    (∀ v, Powered s .pwrHostCap → Answers (.hostCapWrite v) s fun u =>
      u.reg .pwrHostCap = v &&& Reg.impl .pwrHostCap ∧ Only { regs := (· = .pwrHostCap) } s u)

/-- Links and stacks (R227, R240-R243, R247, R313-R316, R327, R328, R340, R349). -/
def Obligations.LinksAndStacksShowTheirErrors : Prop :=
  (∀ (d : DieId) (l : BitVec 2) (s : State), s.flag (.d2dStat d l) F.d2dStat_UP = true → RegsOk s →
    let r : Reg := .d2dStat d l
    let ends (q : Reg) : Prop := q = r ∨ ∃ p, farEnd d l = some p ∧ q = .d2dStat p.1 p.2
    Answers (.d2dReplay d l true) s (fun u => u.fget r F.d2dStat_REPAIRED = min 15 (s.fget r F.d2dStat_REPAIRED + 1) ∧
      u.flag r F.d2dStat_UP = true ∧ Only { regs := (· = r) } s u) ∧
    Answers (.d2dReplay d l false) s (fun u => u.reg (.d2dRetry d l) = sat32 (s.reg (.d2dRetry d l)) 1 ∧ Only { regs := (· = .d2dRetry d l) } s u) ∧
    Answers (.d2dLinkDown d l) s fun u => (∀ q, ends q → u.flag q F.d2dStat_UP = false ∧ BitsBut [F.d2dStat_UP.lo] (s.reg q) (u.reg q)) ∧
      HwFaulted (usesLink s d l) { code := 0x87, die := d.toNat, loc := l.toNat } { regs := ends } s u) ∧
  (∀ (k : BitVec 5) (s : State), RegsOk s → MemOk s →
    let r : Reg := .hbmStatus k
    let e : Reg := .hbmErr k
    let dead : FaultRec := { code := 0x86, die := k.toNat / 4, loc := k.toNat }
    let spares (q : Reg) : Prop := q = .hbmSpare0 k ∨ q = .hbmSpare1 k
    let errRegs (q : Reg) : Prop := q = r ∨ q = e ∨ q = .hbmErrAddrLo k ∨ q = .hbmErrAddrHi k
    let shown (t : BitVec 8) (u : State) : Prop :=
      u.fget r F.hbmStatus_TEMP = t.toNat ∧ u.flag r F.hbmStatus_REFRESH_2X = decide (85 < t.toNat)
    (stackState s k = 2 → ∀ pc < 62, ∀ (t : BitVec 8),
      Answers (.hbmRefresh k pc t [] []) s (fun u => shown t u ∧ stackState u k = 2 ∧ Only { regs := (· = r) } s u) ∧
      (∀ a, a / 2 ^ 36 = k.toNat → Answers (.hbmRefresh k pc t [a] []) s (fun u => shown t u ∧ stackState u k = 2 ∧ BitSet e F.hbmErr_CE s u ∧
          u.pair (.hbmErrAddrLo k) (.hbmErrAddrHi k) = a ∧ u.reg (.hbmCeCount k) = sat32 (s.reg (.hbmCeCount k)) 1 ∧
          Only { regs := fun q => errRegs q ∨ q = .hbmCeCount k } s u) ∧
        Answers (.hbmRefresh k pc t [] [a]) s fun u => shown t u ∧ u.flag e F.hbmErr_UE = true ∧ u.pair (.hbmErrAddrLo k) (.hbmErrAddrHi k) = a ∧
          (jobLoaded s = true → stackState u k = 2 ∧ BitSet e F.hbmErr_UE s u ∧ Faulted dead s u ∧ Only (faultScope errRegs []) s u) ∧
          (jobLoaded s = false → s.flt.mcAbsent = false → ueOf s k = [] → Noted 0x86 0 dead.die dead.loc s u ∧
            (spareFree s k = true → u.flag e F.hbmErr_REMAP = true ∧ stackState u k = 2) ∧
            u.bytes (hbm (a / 64 * 64)) 64 = List.replicate 64 memDefault ∧
            Only { regs := fun q => errRegs q ∨ spares q ∨ recRegs q, parts := [.flt, .hif, .boot],
                   mem := fun x => tableByte s x ∨ (hbm (a / 64 * 64) ≤ x ∧ x < hbm (a / 64 * 64 + 64)) } s u))) ∧
    (stackState s k = 2 → Answers (.retrainPend k) s fun u => Only { regs := (· = r) } s u ∧
      (jobLoaded s = true → BitSet r F.hbmStatus_RETRAIN_PEND s u) ∧
      (jobLoaded s = false → stackState u k = 4 ∧ u.flag r F.hbmStatus_RETRAIN_PEND = false ∧
        BitsBut [0, 1, 2, F.hbmStatus_RETRAIN_PEND.lo] (s.reg r) (u.reg r))) ∧
    (stackState s k = 4 → let kept (u : State) : Prop := BitsBut [0, 1, 2] (s.reg r) (u.reg r)
      Answers (.hbmFullRetrain k true) s (fun u => stackState u k = 2 ∧ kept u ∧ Only { regs := (· = r) } s u) ∧
      Answers (.hbmFullRetrain k false) s fun u => stackState u k = 5 ∧ kept u ∧ BitSet e F.hbmErr_RETRAIN_FAIL s u ∧
        k.toNat ∈ u.boot.table.badStacks ∧ HwFaulted true { dead with code := 0x91 }
          { regs := fun q => q = r ∨ q = e, mem := tableByte s, parts := [.boot] } s u) ∧
    (stackState s k = 2 → s.flt.mcAbsent = false → ∀ pc < 62,
      let job := jobLoaded s = true
      let held := s.flag .fltCtrl F.fltCtrl_HOLD = true
      let regs (q : Reg) : Prop := q = r ∨ q = e ∨ spares q ∨ (job ∧ recRegs q)
      let parts : List Part := if jobLoaded s then [.hif] else []
      let recorded (u : State) : Prop := job → Noted 0 1 dead.die dead.loc s u
      let used (q : Reg) (u : State) : Prop := recorded u ∧ u.flag q F.hbmSpare0_USED = true ∧ u.fget q F.hbmSpare0_LPC = pc ∧
        BitSet e F.hbmErr_REMAP s u ∧ u.fget r F.hbmStatus_SPARES_LEFT = s.fget r F.hbmStatus_SPARES_LEFT - 1 ∧
        u.boot.table.remaps = (k.toNat, pc, pcMap u k pc) :: s.boot.table.remaps ∧ stackState u k = 2 ∧
        Only { regs, mem := tableByte s, parts := .boot :: parts } s u
      let failed (u : State) : Prop := ∀ q, spares q → s.flag q F.hbmSpare0_USED = true → s.fget q F.hbmSpare0_LPC = pc →
        u.flag q F.hbmSpare0_FAILED = true
      (¬ (job ∧ held) → s.flag (.hbmSpare0 k) F.hbmSpare0_USED = false → Answers (.pcRemap k pc) s fun u => used (.hbmSpare0 k) u ∧ failed u) ∧
      (¬ (job ∧ held) → s.flag (.hbmSpare0 k) F.hbmSpare0_USED = true → s.flag (.hbmSpare1 k) F.hbmSpare1_USED = false →
        Answers (.pcRemap k pc) s fun u => used (.hbmSpare1 k) u ∧ failed u) ∧
      (¬ (job ∧ held) → spareFree s k = false → s.flag e F.hbmErr_NOSPARE = false → Answers (.pcRemap k pc) s fun u =>
        BitSet e F.hbmErr_NOSPARE s u ∧ failed u ∧ stackState u k = 2 ∧ recorded u ∧ Only { regs, parts } s u) ∧
      (¬ (job ∧ held) → spareFree s k = false → s.flag e F.hbmErr_NOSPARE = true → Answers (.pcRemap k pc) s fun u =>
        stackState u k = 5 ∧ k.toNat ∈ u.boot.table.badStacks ∧ failed u ∧ recorded u ∧ Faulted dead s u ∧
        (job → Only { faultScope regs [.boot, .hif] with mem := tableByte s } s u) ∧
        (¬ job → Only { regs, mem := tableByte s, parts := [.boot] } s u)) ∧
      (job → held → s.hif.events.length < 64 → Answers (.pcRemap k pc) s fun u =>
        u.flt = { s.flt with heldRemaps := s.flt.heldRemaps ++ [(k.toNat, pc)] } ∧
        u.hif = Hif.signalled { s.hif with events := s.hif.events ++ [{ typ := 3, words := [k.toNat, pc] }] } 0 ∧
        u.flag .mbxStatus F.mbxStatus_EVT = true ∧ BitsBut [F.mbxStatus_EVT.lo] (s.reg .mbxStatus) (u.reg .mbxStatus) ∧
        (s.fget .fltStatus F.fltStatus_STATE = 0 → u.fget .fltStatus F.fltStatus_STATE = 3) ∧
        Only { regs := fun q => q = .mbxStatus ∨ q = .fltStatus, parts := [.flt, .hif] } s u)))

/-- Streams (R31, R32, R45, R49, R240, R247, R269). -/
def Obligations.StreamsIssueAndDeliver : Prop :=
  ∀ (n : Nat) (s : State) (d : StreamDesc), streamOf s n = some d → MemOk s → RegsOk s →
    let p := streamPos s n
    let t : TileId := BitVec.ofNat 11 d.tile
    let τ := s.tile t
    let a := elementAddr d p.2
    let q := bufferSlot d p.2
    let k : BitVec 5 := BitVec.ofNat 5 (a / 2 ^ 36)
    let e : Reg := .hbmErr k
    let data := s.bytes (hbm a) 64
    let errRegs (r : Reg) : Prop := r = e ∨ r = .hbmErrAddrLo k ∨ r = .hbmErrAddrHi k
    let addressed (u : State) : Prop := u.pair (.hbmErrAddrLo k) (.hbmErrAddrHi k) = a % 2 ^ 41
    let room := s.job.phase = .running ∧ p.1 < elements d ∧ hasRoom s d = true
    let arrived (u : State) : Prop := u.job = { s.job with strm := tset s.job.strm n (p.1, p.2 + 1) }
    let late := τ.mode = .run ∧ τ.mid = false ∧ τ.bfilled ≤ τ.bpos ∧ τ.bpos < 2 * p.2 + 2
    let c : Reg := .pgvHlateCount (dieOf t)
    let inFlight := s.job.phase ≠ .none ∧ p.2 < p.1
    let corrected (bad : Nat) (u : State) : Prop := bad = 1 → BitSet e F.hbmErr_CE s u ∧ addressed u ∧ u.reg (.hbmCeCount k) = sat32 (s.reg (.hbmCeCount k)) 1
    let ceRegs (bad : Nat) (r : Reg) : Prop := bad = 1 ∧ (errRegs r ∨ r = .hbmCeCount k)
    (room → Answers (.hbmStreamIssue n) s fun u => u.job = { s.job with strm := tset s.job.strm n (p.1 + 1, p.2) } ∧ Only { parts := [.job] } s u) ∧
    (¬ room → Answers (.hbmStreamIssue n) s fun u => u = s) ∧
    (inFlight → d.kind = 1 → ∀ bad < 2, Answers (.hbmStreamElementArrival n bad) s fun u =>
      let b := bundleMem t (2 * p.2 % 4096)
      arrived u ∧ corrected bad u ∧ u.bytes b 64 = data ∧ u.tile t = { τ with bfilled := 2 * p.2 + 2 } ∧
      (late → u.reg c = sat32 (s.reg c) 1) ∧ (¬ late → u.reg c = s.reg c) ∧
      Only { regs := fun r => r = c ∨ ceRegs bad r, tiles := (· = t), mem := fun x => b ≤ x ∧ x < b + 64, parts := [.job] } s u) ∧
    (inFlight → d.kind ≠ 1 → ∀ bad < 2, let b := spm t q.1 q.2
      let right := τ.mended (lineKey q.1 q.2) 255
      let after (τ' : Tile) (bad : Nat) (u : State) : Prop :=
        arrived u ∧ corrected bad u ∧ u.bytes b 64 = data ∧ u.tile t = τ' ∧
        Only { regs := ceRegs bad, tiles := (· = t), mem := fun x => b ≤ x ∧ x < b + 64, parts := [.job] } s u
      (Settled s → Answers (.hbmStreamElementArrival n bad) s (after
        (if d.kind = 2 ∧ p.2 < (tget τ.fe.spos (0, 94, 0) d.id).1 then right else { right with full := lineKey q.1 q.2 :: τ.full }) bad)) ∧
      (∀ reg, (∀ x ∈ s.tiles, x.2.ctl = none ∧ (x.1 ≠ t → x.2.waits = [])) → τ.waits = [.take q.1 q.2 reg false] → d.kind ≠ 2 →
        lineKey q.1 q.2 ∉ τ.full → Answers (.hbmStreamElementArrival n bad) s (after
          { right with waits := [], writes := τ.writes ++ [.vec reg (ofLineBytes data) none] } bad))) ∧
    (inFlight → jobLoaded s = true → Answers (.hbmStreamElementArrival n 2) s fun u => BitSet e F.hbmErr_UE s u ∧ addressed u ∧
      streamPos u n = p ∧ Faulted { code := 0x86, die := a / 2 ^ 38 % 8, loc := a / 2 ^ 36 % 32 } s u ∧ Only (faultScope errRegs []) s u) ∧
    (inFlight → Settled s → ∀ bad, 3 ≤ bad → Answers (.hbmStreamElementArrival n bad) s fun u => arrived u ∧ u.free = s.free + 1 ∧
      (d.kind = 1 → (u.tile t).bfilled = 2 * p.2 + 2) ∧ (d.kind ≠ 1 → d.kind ≠ 2 → lineKey q.1 q.2 ∈ (u.tile t).full) ∧
      Only { regs := (· = c), tiles := (· = t),
             mem := fun x => (d.kind = 1 ∧ bundleMem t (2 * p.2 % 4096) ≤ x ∧ x < bundleMem t (2 * p.2 % 4096) + 64) ∨
               (d.kind ≠ 1 ∧ spm t q.1 q.2 ≤ x ∧ x < spm t q.1 q.2 + 64), parts := [.job, .free] } s u)

/-- Schedule load (R250, R251, R275, R279, R337, R339). -/
def Obligations.ImagesLoadIntoSlots : Prop :=
  (∀ (q : BitVec 6) (c : Cmd) (s : State), (s.qp q.toNat).busy = some c → c.opc = 1 →
    let j := leAt c.bytes 4 1
    let a := leAt c.bytes 8 8
    let k : BitVec 2 := BitVec.ofNat 2 j
    let good := onlyBytes c.bytes [(4, 1), (8, 8)] = true ∧ j ≤ 3 ∧ inHbm s a = true
    let mine := (s.slot j).loading = true ∧ (s.slot j).queue = q.toNat ∧ (s.slot j).cid = c.cid
    let taken := slotState s j = 4 ∨ (s.slot j).loading = true
    (¬ good → Answers (.loadImage q) s (OnlyCompletes q.toNat c 0 2 1 s)) ∧
    (good → deepState s = true → Answers (.loadImage q) s (OnlyCompletes q.toNat c 0 0x0C 0 s)) ∧
    (good → deepState s = false → mine → Answers (.loadImage q) s fun u => u = s) ∧
    (good → deepState s = false → ¬ mine → taken → Answers (.loadImage q) s (OnlyCompletes q.toNat c 0 0x0D 0 s)) ∧
    (good → deepState s = false → ¬ taken → Answers (.loadImage q) s fun u =>
      u.slot j = { loading := true, addr := a, queue := q.toNat, cid := c.cid, head := c.head } ∧ (∀ i, i ≠ j → u.slot i = s.slot i) ∧
      u.reg (.imgStatus k) = 1 ∧ u.reg (.imgWhere k) = 0 ∧ u.reg (.imgWhereItem k) = 0 ∧
      Only { regs := fun r => r = .imgStatus k ∨ r = .imgWhere k ∨ r = .imgWhereItem k, parts := [.slots] } s u)) ∧
  (∀ (k : BitVec 2) (s : State), (s.slot k.toNat).loading = true → RegsOk s →
    let x := s.slot k.toNat
    let v := slotVerdict s k.toNat
    let r := v.refusal.getD { code := 0 }
    let shown (u : State) : Prop :=
      u.slot k.toNat = { x with loading := false, verified := v.refusal.isNone, len := v.img.hdr.imageLen, img := v.img } ∧
      (∀ i, i ≠ k.toNat → u.slot i = s.slot i) ∧
      u.fget (.imgStatus k) F.imgStatus_STATE = (if v.refusal = none then 2 else 3) ∧ u.fget (.imgStatus k) F.imgStatus_CODE = r.code % 256 ∧
      u.fget (.imgStatus k) F.imgStatus_INFO_COUNT = min 0xFF v.info ∧ u.fget (.imgStatus k) F.imgStatus_CLASS = v.cls % 4 ∧
      u.fget (.imgWhere k) F.imgWhere_SECTION = r.sect % 2 ^ 16 ∧ u.fget (.imgWhere k) F.imgWhere_TILE = r.tile % 2 ^ 16 ∧
      u.reg (.imgWhereItem k) = BitVec.ofNat 32 r.item
    let regs (r : Reg) : Prop := r = .imgStatus k ∨ r = .imgWhere k ∨ r = .imgWhereItem k
    (∀ c, (s.qp x.queue).busy = some c → c.opc = 1 → c.cid = x.cid → Answers (.scheduleLoadComplete k) s fun u =>
      shown u ∧ Completed x.queue c (v.cls + 2 ^ 8 * min 0xFF v.info) ((v.refusal.map ImgRefusal.code).getD 0) 0 s u ∧
      Only { regs, parts := [.slots, .hif] } s u) ∧
    ((∀ c, (s.qp x.queue).busy = some c → c.opc ≠ 1 ∨ c.cid ≠ x.cid) → Answers (.scheduleLoadComplete k) s fun u =>
      shown u ∧ Only { regs, parts := [.slots] } s u))

/-- Job load (R25, R27, R70, R123, R128, R130, R228, R250, R258, R279, R337-R339, R345, R362). -/
def Obligations.JobsLoadAndBegin : Prop :=
  (∀ (q : BitVec 6) (c : Cmd) (s : State), (s.qp q.toNat).busy = some c → c.opc = 2 →
    let block := s.bytes (hostMem (leAt c.bytes 8 8)) 512
    let good := onlyBytes c.bytes [(8, 8)] = true
    let want := { wantedJob s block (leAt block 0 1) q.toNat false with jobId := s.job.jobId }
    let asked : State := { s with job := want }
    let refused (u : State) : Prop := u.job = { jobId := s.job.jobId } ∧ u.net = { s.net with waitJoin := false }
    (¬ good → ∀ unread, Answers (.jobLoad q unread) s (OnlyCompletes q.toNat c 0 2 1 s)) ∧
    (good → s.job.phase = .loading → s.job.queue = q.toNat → ∀ unread, Answers (.jobLoad q unread) s fun u => u = s) ∧
    (good → s.job.phase ≠ .none → ¬ (s.job.phase = .loading ∧ s.job.queue = q.toNat) → ∀ unread,
      Answers (.jobLoad q unread) s (OnlyCompletes q.toNat c 0 4 1 s)) ∧
    (good → s.job.phase = .none → Answers (.jobLoad q true) s (OnlyCompletes q.toNat c 0 7 1 s)) ∧
    (good → s.job.phase = .none → blockOk block = false → Answers (.jobLoad q false) s (OnlyCompletes q.toNat c 0 2 1 s)) ∧
    (∀ code, good → s.job.phase = .none → blockOk block = true → loadStop asked = some (.code code) → Answers (.jobLoad q false) s fun u =>
      Completed q.toNat c 0 code 0 s u ∧ refused u ∧ (∀ r, loadResults r = true → u.reg r = r.reset) ∧
      Only { regs := fun r => loadResults r = true, parts := [.hif, .job, .net] } s u) ∧
    (∀ e, good → s.job.phase = .none → blockOk block = true → loadStop asked = some (.fe e) → Answers (.jobLoad q false) s fun u =>
      let d : DieId := BitVec.ofNat 3 e.die
      Completed q.toNat c 0 e.code 0 s u ∧ refused u ∧
      (∀ r, loadResults r = true → r ≠ .feLoadStatus d → r ≠ .feLoadRec d → u.reg r = r.reset) ∧
      u.fget (.feLoadStatus d) F.feLoadStatus_ERR = e.code % 256 ∧ u.reg (.feLoadRec d) = BitVec.ofNat 32 e.loc ∧
      Only { regs := fun r => loadResults r = true, parts := [.hif, .job, .net] } s u) ∧
    (∀ n, good → s.job.phase = .none → blockOk block = true → loadStop asked = some (.ctx n) → Answers (.jobLoad q false) s fun u =>
      Completed q.toNat c 0 2 1 s u ∧ refused u ∧ u.fget .echoRestore F.echoRestore_REASON = n % 16 ∧
      (∀ r, loadResults r = true → u.reg r = r.reset) ∧
      Only { regs := fun r => r = .echoRestore ∨ loadResults r = true, parts := [.hif, .job, .net] } s u) ∧
    (good → s.job.phase = .none → blockOk block = true → loadStop asked = none → Answers (.jobLoad q false) s fun u =>
      u.job = want ∧ u.net.waitJoin = !(otherRanks asked).isEmpty ∧
      (∀ r ∈ otherRanks asked, (s.peer r).hello = true →
        ∃ f ∈ u.net.unacked, f.dst = r ∧ f.typ = 6 ∧ f.payload = joinPayload asked) ∧
      Only { parts := [.job, .net] } s u)) ∧
  (∀ (c : Cmd) (s : State), canComplete s = true → s.job.count = 1 → (s.qp s.job.queue).busy = some c → RegsOk s →
    (∀ code, loadStop s = some (.code code) → s.job.standing = false → Answers .jobLoadComplete s fun u =>
      Completed s.job.queue c 0 code 0 s u ∧ u.job = { jobId := s.job.jobId } ∧ (∀ r, loadResults r = true → u.reg r = r.reset) ∧
      Only { regs := fun r => loadResults r = true, parts := [.hif, .job, .net] } s u) ∧
    (loadStop s = none → s.job.img.fe.mode = 0 → leAt s.job.block 8 8 = 0 → s.fget .echoCtrl F.echoCtrl_REPLAY = 0 →
      s.job.standing = false → (s.job.img.syncs.map SyncAlloc.index).Nodup → (∀ x ∈ s.job.img.syncs, x.index < 2 ^ 13) → qOn s s.job.queue = true →
      Answers .jobLoadComplete s fun u =>
        u.job.phase = .running ∧ u.job.step = 0 ∧ u.job.jobId = s.hif.jobCount + 1 ∧ u.job.img = s.job.img ∧
        u.hif.jobCount = s.hif.jobCount + 1 ∧ u.rows = [] ∧
        u.tiles = s.job.img.recs.map (fun r => (BitVec.ofNat 11 r.coord, freshTile r)) ∧
        (∀ (d : DieId) (n : BitVec 4), seedValid u d n = (blockMask s.job.block).testBit n.toNat ∧
          seedEntry u d n = if (blockMask s.job.block).testBit n.toNat then blockSeed s.job.block n.toNat else 0) ∧
        (∀ x ∈ s.job.img.syncs, u.reg (.syncCnt (BitVec.ofNat 13 x.index)) = BitVec.ofNat 32 x.init) ∧
        u.reg .admNextTag = 0 ∧ u.fget (.imgStatus (BitVec.ofNat 2 s.job.slot)) F.imgStatus_STATE = 4 ∧
        u.fget .pwrEnvActive F.pwrEnvActive_PROFILE = s.job.profile % 16 ∧
        (u.fget .pwrEnvActive F.pwrEnvActive_VCEIL, u.fget .pwrEnvActive F.pwrEnvActive_CAP_W) = profileLimits s.job.profile ∧
        u.fget .pwrVset F.pwrVset_VSET = (profileLimits s.job.profile).1 ∧
        (∀ d, u.flag (.pgvStatus d) F.pgvStatus_PARKED = decide (s.job.profile = 4 ∧ 4 ≤ d.toNat)) ∧
        u.flt.good = none ∧ u.flt.pending = [] ∧ u.job.alone = false ∧ s.echo.seq ≤ u.echo.seq ∧
        (u.qp s.job.queue).busy = none ∧ (u.qp s.job.queue).ready = (s.qp s.job.queue).ready ++
          [{ queue := s.job.queue, cid := c.cid, head := c.head, result0 := s.hif.jobCount + 1, code := 0, typ := 0 }] ∧
        Only { regs := jobRegs, tiles := fun _ => True, mem := fun a => inRing u a ∨ tailByte u a, parts := [.rows, .job, .echo, .flt, .hif, .net] } s u))

/-- Commands on jobs (R128, R130, R279, R288, R293, R295, R302, R337, R339, R341, R343). -/
def Obligations.JobsEndPauseAndTakeRequests : Prop :=
  ∀ (q : BitVec 6) (c : Cmd) (s : State), (s.qp q.toNat).busy = some c → Settled s →
    let bad := OnlyCompletes q.toNat c 0 2 1 s
    let noJob := OnlyCompletes q.toNat c 0 3 1 s
    (c.opc = 3 → (onlyBytes c.bytes [] = false → Answers (.jobEnd q) s bad) ∧
      (onlyBytes c.bytes [] = true → jobLoaded s = false → Answers (.jobEnd q) s noJob) ∧
      (onlyBytes c.bytes [] = true → jobLoaded s = true → s.job.pauseQ = none → s.echo.waiting = [] → qOn s q.toNat = true →
        (∀ r ∈ s.hif.pool, r.queue ≠ q.toNat) → Answers (.jobEnd q) s fun u =>
          u.job = { jobId := s.job.jobId } ∧ u.rows = [] ∧ u.hif.pool = [] ∧ u.hif.transfers = [] ∧ u.echo.waiting = [] ∧ u.echo.late = [] ∧ u.flt.pending = [] ∧
          (∀ n : BitVec 9, n.toNat < 384 → streamFree u n = true) ∧ (∀ (d : DieId) n, seedValid u d n = false ∧ seedEntry u d n = 0) ∧
          (∀ t, (u.tile t).mid = false ∧ (u.tile t).waits = [] ∧ (u.tile t).ctl = none ∧
            (u.tile t).keys = [] ∧ (u.tile t).mode = if (s.tile t).mode = .retired then .retired else .idle) ∧
          u.reg .pwrEnvActive = 0 ∧
          (∀ k, s.flag (.hbmStatus k) F.hbmStatus_RETRAIN_PEND = true → stackState u k ≠ 2) ∧
          (slotState s s.job.slot = 4 → slotState u s.job.slot = 2) ∧
          (∀ r ∈ s.hif.pool, qOn s r.queue = true → { queue := r.queue, cid := r.cid, head := r.head, result0 := 0, code := 6, typ := 1 } ∈ (u.qp r.queue).ready) ∧
          (u.qp q.toNat).busy = none ∧ (u.qp q.toNat).ready = (s.qp q.toNat).ready ++
            [{ queue := q.toNat, cid := c.cid, head := c.head, result0 := moduleStep s, code := 0, typ := 0 }] ∧
          Only { regs := fun r => jobRegs r ∨ stackRegs r, tiles := fun _ => True,
                 mem := fun a => (s.job.digInt ≠ 0 ∧ (inRing s a ∨ tailByte s a)) ∨ remapByte s a ∨ ∃ p ∈ s.job.written, ∃ r, regionOf s p.1 = some r ∧
                   hbm (r.base + r.len - 512) ≤ a ∧ a < hbm (r.base + r.len - 512) + 512,
                 parts := [.rows, .job, .echo, .flt, .hif, .net, .boot] } s u)) ∧
    (c.opc = 4 → let t := leAt c.bytes 8 6
      let good := onlyBytes c.bytes [(8, 6)] = true ∧ (t = 2 ^ 48 - 1 → s.job.count ≤ 1)
      let k := if t = 2 ^ 48 - 1 then topStep s + 1 else max t (topStep s + 1)
      let now := allDone s = true ∧ s.job.phase = .running ∧ s.job.ckptBusy = false ∧ s.job.digestBusy = false ∧ pauseBlocked s = false
      (¬ good → Answers (.pause q) s bad) ∧ (good → jobLoaded s = false → Answers (.pause q) s noJob) ∧
      (good → jobLoaded s = true → s.job.pauseQ = some q.toNat → Answers (.pause q) s fun u => u = s) ∧
      (good → jobLoaded s = true → s.job.pauseQ = none → ¬ now → Answers (.pause q) s fun u =>
        u.job = { s.job with pauseAt := some k, pauseQ := some q.toNat } ∧ Only { parts := [.job] } s u) ∧
      (good → jobLoaded s = true → s.job.pauseQ = none → now → Answers (.pause q) s fun u =>
        u.job = { s.job with pauseAt := some k, pauseQ := some q.toNat, phase := .saving, holds := moduleStep s :: s.job.holds } ∧
        u.flt = { s.flt with saving := some (takeSnap s s.job.gen) } ∧ Only { parts := [.job, .flt] } s u)) ∧
    (c.opc = 5 → let tag := leAt c.bytes 4 4
      let good := onlyBytes c.bytes [(4, 4), (8, 1), (16, 8), (24, 8)] = true ∧ leAt c.bytes 8 1 ≤ 1
      let dup := s.hif.admMode = 1 ∧ (tag < (s.reg .admNextTag).toNat ∨ (s.hif.pool.any fun r => r.tag = tag) = true)
      (¬ good → Answers (.submit q) s bad) ∧ (good → jobLoaded s = false → Answers (.submit q) s noJob) ∧
      (good → jobLoaded s = true → 4096 ≤ s.hif.pool.length → Answers (.submit q) s (OnlyCompletes q.toNat c 0 5 1 s)) ∧
      (good → jobLoaded s = true → s.hif.pool.length < 4096 → dup → Answers (.submit q) s (OnlyCompletes q.toNat c 0 8 1 s)) ∧
      (good → jobLoaded s = true → s.hif.pool.length < 4096 → ¬ dup → Answers (.submit q) s fun u =>
        u.hif.pool = s.hif.pool ++ [{
          queue := q.toNat, cid := c.cid, head := c.head, tag, last := decide (leAt c.bytes 8 1 = 1), ctx := leAt c.bytes 16 8,
          prefixId := leAt c.bytes 24 8 }] ∧
        (u.qp q.toNat) = { s.qp q.toNat with busy := none } ∧ (∀ k, k ≠ q.toNat → u.qp k = s.qp k) ∧ Only { parts := [.hif] } s u)) ∧
    (c.opc = 6 → let k := leAt c.bytes 4 2
      let n := leAt c.bytes 8 1
      let m := leAt c.bytes 6 2
      let a := leAt c.bytes 16 8
      let data := (c.bytes.drop 32).take n
      let x : Reg := .syncCnt (BitVec.ofNat 13 k)
      let good := onlyBytes c.bytes [(4, 2), (6, 2), (8, 1), (16, 8), (32, 32)] = true ∧ n ≤ 32
      let named := isExternal s (BitVec.ofNat 13 k) = true ∧ k < 8192 ∧ counterAgent s k = 1 ∧ postOk s a n = true
      s.echo.waiting = [] →
      (¬ good → Answers (.post q) s bad) ∧ (good → jobLoaded s = false → Answers (.post q) s noJob) ∧
      (good → jobLoaded s = true → ¬ named → Answers (.post q) s bad) ∧
      (good → named → Live s → Room 2 s → MemOk s → (s.reg x).toNat + m < 2 ^ 32 → c.bytes.length = 64 →
        (∀ b, hbm a ≤ b ∧ b < hbm a + n → ¬ echoSlots 2 s b) → Answers (.post q) s fun u =>
          LoggedAll [{ typ := 4, agent := q.toNat, len := n, payload := ofLe data }, { typ := 7, agent := k, aux := m }] s u ∧
          u.bytes (hbm a) n = data ∧ (u.reg x).toNat = (s.reg x).toNat + m ∧ Completed q.toNat c 0 0 0 s u ∧
          Only { regs := fun r => echoRegs r ∨ r = x, mem := fun b => echoSlots 2 s b ∨ (hbm a ≤ b ∧ b < hbm a + n),
                 parts := [.job, .echo, .hif] } s u))

/-- Step boundaries (R128, R286-R288, R291, R292, R296, R302, R303, R317, R320). -/
def Obligations.StepBoundariesAreKept : Prop :=
  ∀ (s : State), MemOk s → s.echo.waiting = [] → s.echo.late = [] →
    let free := s.job.ckptBusy = false ∧ s.job.digestBusy = false
    let due (k : Nat) := ∃ p, s.job.pauseAt = some p ∧ p ≤ k
    let stall : Reg → Prop := (· = .echoStatus)
    (∀ ms, s.job.phase = .running → s.job.step < moduleStep s → rowsOpen s s.job.step = false → free → s.job.suspendAt = none →
      s.echo.replay = false ∨ s.echo.stopped = true →
      let k := s.job.step + 1
      let i := s.job.img.ckpt.interval
      let ckpt := i ≠ 0 ∧ k % i = 0
      let digest := s.job.digInt ≠ 0 ∧ k % s.job.digInt = 0
      let stepped := { s.job with step := k, written := [], digInt := s.fget .echoCtrl F.echoCtrl_DIGEST_INTERVAL }
      let records (a : Nat) : Prop := ∃ p ∈ s.job.written, ∃ r, regionOf s p.1 = some r ∧ hbm (r.base + r.len - 512) ≤ a ∧ a < hbm (r.base + r.len)
      let apart := ∀ p ∈ s.job.written, ∀ p' ∈ s.job.written, ∀ r r', regionOf s p.1 = some r → regionOf s p'.1 = some r' →
        p = p' ∨ r.base + r.len ≤ r'.base ∨ r'.base + r'.len ≤ r.base
      let recorded (u : State) : Prop := apart → ∀ p ∈ s.job.written, ∀ r, regionOf s p.1 = some r → r.kind = 4 → 512 ≤ r.len →
        u.bytes (hbm (r.base + r.len - 512)) (provRecord s p.2 ++ provAnnex s p.2).length = provRecord s p.2 ++ provAnnex s p.2
      let blocked := pauseBlocked { s with job := { s.job with step := k } }
      (s.flt.phase6 = false → ¬ ckpt → ¬ digest → ¬ due k → Answers (.stepBoundary ms) s fun u =>
        u.job = { stepped with holds := [] } ∧ u.echo = { s.echo with stepSeq := s.echo.seq } ∧ recorded u ∧
        Only { mem := records, parts := [.job, .echo] } s u) ∧
      (s.flt.phase6 = false → ckpt → ¬ digest → Answers (.stepBoundary ms) s fun u =>
        u.job = { stepped with gen := s.job.gen + 1, ckptBusy := true, holds := k :: s.job.holds } ∧ recorded u ∧
        (∃ x, u.flt = { s.flt with writing := some x } ∧ x.gen = s.job.gen + 1 ∧ x.step = moduleStep s ∧ x.tiles = s.tiles ∧ x.seq = s.echo.seq) ∧
        Only { mem := records, parts := [.job, .echo, .flt] } s u) ∧
      (s.flt.phase6 = false → ¬ ckpt → digest → s.echo.replay = false → Answers (.stepBoundary ms) s fun u =>
        u.job.step = k ∧ u.job.digestBusy = true ∧ u.job.holds = k :: s.job.holds ∧ (echoRoom s = .put 0 → s.echo.seq < u.echo.seq) ∧
        Only { regs := echoRegs, mem := fun a => records a ∨ inRing s a ∨ tailByte s a, parts := [.job, .echo] } s u) ∧
      (s.flt.phase6 = false → ¬ ckpt → ¬ digest → due k → blocked = true → Answers (.stepBoundary ms) s fun u =>
        u.job = { stepped with holds := k :: s.job.holds } ∧ recorded u ∧ Only { mem := records, parts := [.job, .echo] } s u) ∧
      (s.flt.phase6 = false → ¬ ckpt → ¬ digest → due k → blocked = false → Answers (.stepBoundary ms) s fun u =>
        u.job.phase = .saving ∧ u.job.step = k ∧ recorded u ∧ (∃ x, u.flt = { s.flt with saving := some x } ∧ x.step = moduleStep s) ∧
        Only { mem := records, parts := [.job, .echo, .flt] } s u) ∧
      (s.flt.phase6 = true → s.flt.failStep ≤ k → ¬ ckpt → ¬ digest → ¬ due k → Answers (.stepBoundary ms) s fun u =>
        u.flt = { s.flt with phase6 := false, mended := [], seen := [] } ∧ u.hif = s.hif.signalled 1 ∧ u.fget .fltStatus F.fltStatus_STATE = 0 ∧
        u.fget .fltStatus F.fltStatus_OUTCOME = (if s.flt.fellBack then 2 else 1) ∧ u.reg .fltLastMs = BitVec.ofNat 32 ms ∧
        u.fget .fltCount F.fltCount_RECOVERED = min 0xFFFF (s.fget .fltCount F.fltCount_RECOVERED + 1) ∧
        u.fget .fltCount F.fltCount_FALLBACK = min 0xFF (s.fget .fltCount F.fltCount_FALLBACK + b2n s.flt.fellBack) ∧
        u.job = { stepped with holds := [] } ∧
        Only { regs := fun r => r = .fltStatus ∨ r = .fltCount ∨ r = .fltLastMs, mem := records, parts := [.job, .echo, .flt, .hif] } s u)) ∧
    (s.job.digestBusy = true → s.job.phase = .running → s.job.ckptBusy = false → s.job.suspendAt = none → ¬ due s.job.step →
      Answers .stepDigestComplete s fun u => u.job = { s.job with digestBusy := false, holds := [] } ∧ Only { parts := [.job] } s u) ∧
    (∀ x, s.job.ckptBusy = true → s.flt.writing = some x →
      let body := snapBody s.job.img x
      let copy := copyHeader x body ++ body
      let a (m : Nat) : Nat := slotAddr s m (x.gen % 2)
      let slots (b : Nat) : Prop := ∃ m < 2, a m ≤ b ∧ b < a m + copy.length
      let goesOn := s.job.phase = .running ∧ s.job.digestBusy = false ∧ s.job.suspendAt = none ∧ ¬ due s.job.step
      let ckptRegs (r : Reg) : Prop := r = .fltCkptGen ∨ r = .fltCkptStepLo ∨ r = .fltCkptStepHi ∨ r = .fltCount ∨ stall r
      let written (u : State) : Prop := u.job = { s.job with ckptBusy := false, holds := [] } ∧ u.flt.writing = none ∧ u.flt.copies = s.flt.copies ++ [x]
      goesOn → a 0 + copy.length ≤ a 1 ∨ a 1 + copy.length ≤ a 0 →
      Answers (.checkpointComplete false) s (fun u => written u ∧ (∀ m < 2, u.bytes (a m) copy.length = copy) ∧ u.flt.good = some x ∧
        u.reg .fltCkptGen = BitVec.ofNat 32 x.gen ∧ u.pair .fltCkptStepLo .fltCkptStepHi = x.step % 2 ^ 64 ∧
        Only { regs := ckptRegs, mem := slots, parts := [.flt, .job] } s u) ∧
      Answers (.checkpointComplete true) s fun u => written u ∧ u.bytes (a 0) copy.length = copy ∧ u.free = s.free + 1 ∧
        (u.flt.good = some x ∨ u.flt.good = s.flt.good ∧
          u.fget .fltCount F.fltCount_SPLIT = min 0xFF (s.fget .fltCount F.fltCount_SPLIT + 1)) ∧
        Only { regs := ckptRegs, mem := slots, parts := [.flt, .job, .free] } s u) ∧
    (∀ x (q : BitVec 6) c, (s.job.phase = .saving ∧ s.flt.saving = some x) ∨ (pauseDue s = true ∧ x = takeSnap s s.job.gen) → s.job.pauseQ = some q.toNat → (s.qp q.toNat).busy = some c →
      qOn s q.toNat = true → s.hif.pool = [] →
      let body := snapBody s.job.img x
      let context := contextHeader x body ++ body
      let a := slotAddr s 0 ((s.job.gen + 1) % 2)
      (∀ b, a ≤ b ∧ b < a + context.length → ¬ remapByte s b) → Answers .savedContextWritten s fun u =>
        u.bytes a context.length = context ∧ u.job = { jobId := s.job.jobId } ∧ u.flt.copies = s.flt.copies ++ [x] ∧
        (u.qp q.toNat).busy = none ∧ (u.qp q.toNat).ready = (s.qp q.toNat).ready ++
          [{ queue := q.toNat, cid := c.cid, head := c.head, result0 := x.step, code := 0, typ := 0 }] ∧
        Only { regs := fun r => jobRegs r ∨ stackRegs r, tiles := fun _ => True,
               mem := fun b => (a ≤ b ∧ b < a + context.length) ∨ remapByte s b, parts := [.rows, .job, .echo, .flt, .hif, .net, .boot] } s u)

/-- The Echo log's registers and the host ring (R286, R289, R292-R297, R348). -/
def Obligations.EchoCommandsReleaseHeldDeliveries : Prop :=
  ∀ s : State, MemOk s → RegsOk s → s.echo.late = [] → (∀ a, tailByte s a → ¬ entryByte s a) →
    let x := s.echo
    let chained (e : EchoEntry) : Digest :=
      if isInput e.typ then sha3 (digestBytes s.job.chain ++ (e.bytes x.seq (moduleStep s)).drop 8) else s.job.chain
    let passed (d : Delivery) (u : State) : Prop :=
      Logged d.entry s u ∧ u.echo.waiting = [] ∧ u.echo.last = x.seq ∧ u.job = { s.job with chain := chained d.entry } ∧
      u.flag .echoStatus F.echoStatus_STALLED = false
    let ring : Scope := { regs := echoRegs, mem := echoSlot s, parts := [.job, .echo] }
    let fits (v : Nat) : Prop := echoCap s ≠ 0 ∧ (x.mode = 1 ∧ x.seq < v + echoCap s ∨
      x.mode ≠ 1 ∧ (x.seq < x.tail + echoCap s ∨ echoKept s x.tail = false ∧ x.tail < v))
    (∀ d, x.replay = false → x.waiting = [d] → echoRoom s = .put 0 →
      (d.acts = [] → d.entry.typ ≠ 4 → Answers .echoDeliveryResume s fun u => passed d u ∧ Only ring s u) ∧
      (∀ a bs, d.acts = [.payload a bs] → d.entry.typ = 4 → (∀ b, a ≤ b ∧ b < a + bs.length → ¬ echoSlot s b) →
        Answers .echoDeliveryResume s fun u => passed d u ∧ u.bytes a bs.length = bs ∧ tfind u.echo.posts x.seq = some (a, d.entry) ∧
          Only { ring with mem := fun b => echoSlot s b ∨ (a ≤ b ∧ b < a + bs.length) } s u) ∧
      (∀ (c : BitVec 13) n, d.acts = [.count c.toNat n] → d.entry.typ = 7 → Settled s →
        (s.net.barriers.any fun b => b.desc.ext = c.toNat && s.net.closing.contains b.desc.counter) = false →
        (s.reg (.syncCnt c)).toNat + n < 2 ^ 32 → Answers .echoDeliveryResume s fun u =>
          passed d u ∧ (u.reg (.syncCnt c)).toNat = (s.reg (.syncCnt c)).toNat + n ∧
          Only { ring with regs := fun r => echoRegs r ∨ r = .syncCnt c } s u)) ∧
    (x.replay = false → x.waiting ≠ [] → echoRoom s = .wait → Answers .echoDeliveryResume s fun u =>
      BitSet .echoStatus F.echoStatus_STALLED s u ∧ Only { regs := (· = .echoStatus) } s u) ∧
    (x.waiting = [] → x.replay = false ∨ x.stopped = true → Answers .echoDeliveryResume s fun u =>
      u.flag .echoStatus F.echoStatus_STALLED = false ∧ BitsBut [F.echoStatus_STALLED.lo] (s.reg .echoStatus) (u.reg .echoStatus) ∧
      Only { regs := (· = .echoStatus) } s u) ∧
    (∀ v : U64, Powered s .echoDrainLo →
      (x.waiting = [] → x.replay = false ∨ x.stopped = true → Answers (.echoDrainWrite v) s fun u => echoDrain u = v.toNat ∧
        Only { regs := fun r => r = .echoDrainLo ∨ r = .echoDrainHi ∨ r = .echoStatus } s u) ∧
      (∀ d, x.replay = false → x.waiting = [d] → d.acts = [] → d.entry.typ ≠ 4 → fits v.toNat → Answers (.echoDrainWrite v) s fun u =>
        echoDrain u = v.toNat ∧ passed d u ∧ Only { ring with regs := fun r => echoRegs r ∨ r = .echoDrainLo ∨ r = .echoDrainHi } s u)) ∧
    (∀ v, Powered s .echoCtrl → Answers (.echoCtrlWrite v) s fun u =>
      u.reg .echoCtrl = v &&& Reg.impl .echoCtrl ∧ Only { regs := (· = .echoCtrl) } s u) ∧
    (s.job.phase ≠ .none → x.mode = 1 → Answers .echoHostFail s fun u => BitSet .echoStatus F.echoStatus_HOST_FAIL s u ∧
      Faulted { code := 0x90 } s u ∧ Only (faultScope (· = .echoStatus) []) s u) ∧
    (s.job.phase = .none ∨ x.mode ≠ 1 → Answers .echoHostFail s fun u => u = s) ∧
    (let on := x.mode = 1 ∧ x.hostLen ≠ 0 ∧ s.hif.linkUp = true
     let a := hostMem x.hostTail
     (on → Answers .echoTailWriteback s fun u => u.bytes a 8 = leBytes 8 x.seq ∧ Only { mem := fun b => a ≤ b ∧ b < a + 8 } s u) ∧
     (¬ on → Answers .echoTailWriteback s fun u => u = s))

/-- Diagnosis and repair (R38, R309, R311, R313-R316, R318, R320-R323, R328, R340, R349). -/
def Obligations.FaultsAreDiagnosedAndRepaired : Prop :=
  ∀ s : State, RegsOk s → MemOk s →
    let status (n : Nat) (u : State) : Prop := u.fget .fltStatus F.fltStatus_STATE = n
    let stopped (n : Nat) (h : Hif) (u : State) : Prop := status 1 u ∧ u.fget .fltStatus F.fltStatus_OUTCOME = n ∧
      u.job = { s.job with phase := .frozen } ∧ u.flt.ended = true ∧ u.flt.pending = [] ∧ u.flt.cur = [] ∧ u.hif = h.signalled 1 ∧ Stopping u
    let event (typ : Nat) (words : List Nat) (h : Hif) (u : State) : Prop := u.hif = withEvent h typ words ∧ u.flag .mbxStatus F.mbxStatus_EVT = true
    let asks (c : Copy) (h : Hif) (u : State) : Prop :=
      u.flt.need = some (c.gen, c.mirror, c.seq) ∧ status 5 u ∧ event 2 [c.seq, c.seq / 2 ^ 32] h u
    let split (k : Nat) (u : State) : Prop :=
      u.fget .fltCount F.fltCount_SPLIT = min 0xFF (s.fget .fltCount F.fltCount_SPLIT + k)
    let regs (r : Reg) : Prop := recRegs r ∨ r = .fltStatus ∨ r = .fltCount
    let ends (more : Reg → Prop) (mem : Nat → Prop) (parts : List Part) : Scope :=
      { regs := fun r => regs r ∨ more r, tiles := fun _ => True, mem, parts := [.flt, .job, .hif] ++ parts }
    let waits (more : Reg → Prop) (mem : Nat → Prop) (parts : List Part) : Scope :=
      { regs := fun r => regs r ∨ r = .mbxStatus ∨ more r, mem, parts := [.flt, .hif] ++ parts }
    let noReg (_ : Reg) : Prop := False
    let noByte (_ : Nat) : Prop := False
    let spared (k : BitVec 5) (pc : Nat) (u : State) : Prop :=
      u.flag (.hbmSpare0 k) F.hbmSpare0_USED = true ∧ u.fget (.hbmSpare0 k) F.hbmSpare0_LPC = pc ∧
      u.boot.table.remaps = (k.toNat, pc, pcMap u k pc) :: s.boot.table.remaps
    let spareRegs (k : BitVec 5) (r : Reg) : Prop := r = .hbmSpare0 k ∨ r = .hbmSpare1 k ∨ r = .hbmStatus k ∨ r = .hbmErr k
    let picked := pickCopy { s with flt := { s.flt with skipGens := [] } }
    let h := s.hif.signalled 1
    let active := jobLoaded s = true ∧ s.flt.mcAbsent = false ∧ s.flt.ended = false
    let one := s.job.count ≤ 1
    (∀ fixed up lost now, ¬ active ∨ s.flt.pending = [] → Answers (.faultRecovery fixed up lost now) s fun u => u = s) ∧
    (∀ f fixed up lost now, active → s.flt.pending = [f] → s.flt.mended = [] →
      let t := treatment s f now
      let seen (u : State) : Prop := Recorded f.code 0 f.die f.loc s u
      let twice := (f.code = 0x8A ∨ (f.code = 0x88 ∧ f.bit = F.tileErr_FLIT_FAIL.lo)) ∧ recentlySeen s f.code (repeatPlace s f) now = true
      let waiting (u : State) : Prop := ∃ g, u.flt.cur = s.flt.cur ++ [g] ∧ (g.again = true ↔ twice) ∧ g = { f with again := g.again }
      let repair := t = .recover ∧ one ∧ s.flag .fltCtrl F.fltCtrl_HOLD = false ∧ s.flt.cur = [] ∧ s.flt.rebuild = []
      let ue := f.code = 0x88 ∧ (f.bit = F.tileErr_SPM_UE.lo ∨ f.bit = F.tileErr_LEDGER_UE.lo)
      (∀ n, t = .stop n → Answers (.faultRecovery fixed up lost now) s fun u => seen u ∧ stopped n h u ∧
        (f.code = 0x8A → n = 3 → f.die ∈ u.boot.table.dies ∧ Only (ends noReg (tableByte s) [.boot]) s u) ∧
        (¬ (f.code = 0x8A ∧ n = 3) → Only (ends noReg noByte []) s u)) ∧
      (t = .inspect → Answers (.faultRecovery fixed up lost now) s fun u => seen u ∧ status 1 u ∧ u.flt.pending = [] ∧
        u.flt.cur = s.flt.cur ∧ u.hif = h ∧ Only { regs, parts := [.flt, .hif] } s u) ∧
      (t = .peers → Answers (.faultRecovery fixed up lost now) s fun u => status 2 u ∧ u.flt.pending = [] ∧
        waiting u ∧ u.flt.phase6 = false ∧ Only { regs := (· = .fltStatus), parts := [.flt] } s u) ∧
      (t = .recover → one → s.flag .fltCtrl F.fltCtrl_HOLD = true → (∀ g ∈ s.flt.cur, g.code ≠ 0) →
        Answers (.faultRecovery fixed up lost now) s fun u =>
          seen u ∧ status 3 u ∧ event 3 [f.code] h u ∧ u.flt.pending = [] ∧ waiting u ∧ Only (waits noReg noByte []) s u) ∧
      (∀ k, repair → f.code = 0x89 ∨ f.code = 0x8D ∨ (ue ∧ fixed = true) →
        (picked = (k, .nothing) → Answers (.faultRecovery fixed up lost now) s fun u =>
          seen u ∧ stopped 4 h u ∧ split k u ∧ Only (ends noReg noByte []) s u) ∧
        (∀ c, picked = (k, .need c) → Answers (.faultRecovery fixed up lost now) s fun u => seen u ∧ asks c h u ∧ split k u ∧
          u.flt.cur = [] ∧ u.flt.mended = [{ f with again := false }] ∧ Only (waits noReg noByte []) s u)) ∧
      (∀ t : TileId, repair → ue → fixed = false → f.loc = t.toNat →
        let d := dieOf t
        let row := physRow s d (rowOf t).toNat
        let col := physCol s d row (colOf t).toNat
        let r : Reg := .dieRowmap d row
        let gone := coord d (BitVec.ofNat 4 (s.fget r F.dieRowmap_LROW)) (BitVec.ofNat 4 col)
        (s.flag r F.dieRowmap_NOSPARE = false → col ≠ s.fget r F.dieRowmap_UNMAPPED → topGen s = 0 →
          Answers (.faultRecovery fixed up lost now) s fun u => seen u ∧ stopped 4 h u ∧ u.fget r F.dieRowmap_UNMAPPED = col ∧
            u.flag r F.dieRowmap_SHIFTED = true ∧ u.flag r F.dieRowmap_NOSPARE = true ∧
            u.fget (.utileStatus d row) F.tileStatus_STATE = 7 ∧ (d.toNat, row.toNat, col) ∈ u.boot.table.tiles ∧
            (utileRegs d row).map u.reg = (tileRegs gone).map s.reg ∧
            (∀ i < 0x100000, u.byte (spmUnmapped d row + i) = s.byte (spm gone 0 0 + i)) ∧
            Only (ends (shiftRegs s d row) (fun a => tableByte s a ∨ shiftByte s d row a) [.boot]) s u) ∧
        (s.flag r F.dieRowmap_NOSPARE = true → col ≠ s.fget r F.dieRowmap_UNMAPPED → s.fget .glbId F.glbId_GRADE ≠ 1 →
          (∀ i < 16, rowRetired s d i = false) → Answers (.faultRecovery fixed up lost now) s fun u =>
            seen u ∧ stopped 3 h u ∧ (d.toNat, row.toNat) ∈ u.boot.table.rows ∧ u.flag .glbStatus F.glbStatus_GRADE_EFF = true ∧
            u.flag r F.dieRowmap_RETIRED = true ∧
            Only (ends (fun q => q = .glbStatus ∨ ∃ d i, q = .dieRowmap d i) flashByte [.boot]) s u)) ∧
      (repair → f.code = 0x87 →
        let d : DieId := BitVec.ofNat 3 f.die
        let l : BitVec 2 := BitVec.ofNat 2 f.loc
        let ends2 (q : Reg) : Prop := q = .d2dStat d l ∨ ∃ p, farEnd d l = some p ∧ q = .d2dStat p.1 p.2
        (up = false → Answers (.faultRecovery fixed up lost now) s fun u => seen u ∧ stopped 3 h u ∧
          (f.die ∈ u.boot.table.dies ∨ farEnd d l = none ∧ u.boot = s.boot) ∧ Only (ends noReg (tableByte s) [.boot]) s u) ∧
        (∀ k c, up = true → picked = (k, .need c) → Answers (.faultRecovery fixed up lost now) s fun u => seen u ∧ asks c h u ∧
          (∀ q, ends2 q → u.flag q F.d2dStat_UP = true) ∧ Only (waits ends2 noByte []) s u)) ∧
      (∀ r b, repair → f.code = 0x86 →
        let k : BitVec 5 := BitVec.ofNat 5 f.loc
        ueOf s k = [b] → s.flag (.hbmSpare0 k) F.hbmSpare0_USED = false → s.job.hostCkpt = true →
        s.job.img.regions.find? (fun r => r.base ≤ b && b < r.base + r.len) = some r → r.kind ≤ 2 →
        Answers (.faultRecovery fixed up lost now) s fun u => seen u ∧ status 4 u ∧ spared k (lpcOf b) u ∧ u.flt.rebuild = [(b, 64)] ∧
          ueOf u k = [] ∧ event 1 [b, b / 2 ^ 32, 64, 0] h u ∧ Only (waits (spareRegs k) (tableByte s) [.boot]) s u)) ∧
    (∀ fixed up lost now, Powered s .fltCtrl →
      (inHold s = false → Answers (.approve fixed up lost now) s (fun u => u = s) ∧ Answers .decline s fun u => u = s) ∧
      (inHold s = true → s.flt.mended = [] →
        Answers .decline s (fun u => stopped 6 s.hif u ∧ Only (ends noReg noByte []) s u) ∧
        (s.flt.heldRemaps = [] → s.flt.cur = [] → Answers (.approve fixed up lost now) s fun u => status 0 u ∧
          Only { regs := (· = .fltStatus) } s u) ∧
        (∀ (k : BitVec 5) pc, pc < 62 → s.flt.heldRemaps = [(k.toNat, pc)] → s.flt.cur = [] → jobLoaded s = true → stackState s k = 2 →
          s.flag (.hbmSpare0 k) F.hbmSpare0_USED = false → Answers (.approve fixed up lost now) s fun u =>
            status 0 u ∧ spared k pc u ∧ u.flt = { s.flt with heldRemaps := [] } ∧ Noted 0 1 (k.toNat / 4) k.toNat s u ∧
            Only { regs := fun r => regs r ∨ spareRegs k r, mem := tableByte s, parts := [.flt, .boot, .hif] } s u) ∧
        (∀ f k, s.flt.heldRemaps = [] → s.flt.cur = [f] → f.code = 0x89 ∨ f.code = 0x8D → one → s.flt.rebuild = [] →
          (pickCopy s = (k, .nothing) → Answers (.approve fixed up lost now) s fun u =>
            stopped 4 s.hif u ∧ split k u ∧ Only (ends noReg noByte []) s u) ∧
          (∀ c, pickCopy s = (k, .need c) → Answers (.approve fixed up lost now) s fun u => asks c s.hif u ∧ split k u ∧
            u.flt.cur = [] ∧ u.flt.mended = [{ f with again := false }] ∧ Only (waits noReg noByte []) s u)))) ∧
    (s.flt.mcAbsent = true ∨ (s.flt.rebuild = [] ∧ s.flt.need = none) → Answers .rebuildTimeout s fun u => u = s) ∧
    (s.flt.mcAbsent = false → s.flt.rebuild ≠ [] → Answers .rebuildTimeout s fun u => stopped 4 s.hif u ∧ Only (ends noReg noByte []) s u) ∧
    (∀ n k, s.flt.mcAbsent = false → s.flt.rebuild = [] → s.flt.need = some n →
      let later := pickCopy { s with flt := { s.flt with need := none, skipGens := n.1 :: s.flt.skipGens } }
      (s.net.recovering = true → Answers .rebuildTimeout s fun u => stopped 4 s.hif u ∧
        (∀ q ∈ otherRanks s, ∃ g ∈ u.net.unacked, g.dst = q ∧ g.typ = 6 ∧ g.payload = leBytes 8 2) ∧ Only (ends noReg noByte [.net]) s u) ∧
      (s.net.recovering = false → later = (k, .nothing) → Answers .rebuildTimeout s fun u =>
        stopped 4 s.hif u ∧ split k u ∧ Only (ends noReg noByte []) s u) ∧
      (∀ c, s.net.recovering = false → later = (k, .need c) → Answers .rebuildTimeout s fun u =>
        asks c s.hif u ∧ split k u ∧ Only (waits noReg noByte []) s u))

/-- Restoring a checkpoint (R305, R317, R318, R320, R321, R328). -/
def Obligations.RecoveryRestoresTheCheckpoint : Prop :=
  ∀ (s : State) (f : FaultRec) (up lost : Bool) (now : Nat) (c : Copy) (y : Snap), MemOk s → RegsOk s →
    jobLoaded s = true → s.flt.mcAbsent = false → s.flt.ended = false → s.flt.pending = [f] → s.flt.cur = [] → s.flt.mended = [] → s.flt.rebuild = [] →
    s.job.count ≤ 1 → s.flag .fltCtrl F.fltCtrl_HOLD = false → treatment s f now = .recover →
    f.code = 0x89 ∨ f.code = 0x8D ∨ (f.code = 0x88 ∧ (f.bit = F.tileErr_SPM_UE.lo ∨ f.bit = F.tileErr_LEDGER_UE.lo)) →
    pickCopy { s with flt := { s.flt with skipGens := [] } } = (0, .take c) →
    readBody s.job.img s.flt.copies (s.bytes (c.addr + 64) (bodyLen s.job.img)) = some y →
    let x := { y with gen := c.gen, step := leAt (s.bytes c.addr 64) 12 6, seq := c.seq }
    let n := if c.gen = s.flt.attemptGen then s.fget .fltStatus F.fltStatus_ATTEMPT + 1 else 1
    let e := s.echo.seq
    let inRange (a : Nat) : Prop := ∃ p ∈ x.ranges, p.1 ≤ a ∧ a < p.1 + p.2.length
    let regs (r : Reg) : Prop := recRegs r ∨ r = .fltStatus ∨ r = .fltCount ∨ r = .fltLastMs ∨ r = .mbxStatus
    (3 < n → Answers (.faultRecovery true up lost now) s fun u => Recorded f.code 0 f.die f.loc s u ∧
      u.fget .fltStatus F.fltStatus_STATE = 1 ∧ u.fget .fltStatus F.fltStatus_OUTCOME = 5 ∧ u.job = { s.job with phase := .frozen } ∧
      u.flt.ended = true ∧ u.hif = (s.hif.signalled 1).signalled 1 ∧ Stopping u ∧
      Only { regs, tiles := fun _ => True, parts := [.flt, .job, .hif] } s u) ∧
    (n ≤ 3 → s.flt.phase6 = false → moduleStep s ≤ x.step → x.srcPos = none → s.job.img.fe.mode = 0 → s.echo.mode ≠ 1 →
      s.echo.waiting = [] → s.echo.late = [] → s.echo.seq < s.echo.tail + echoCap s → e = c.seq → (∀ p ∈ x.regs, savedReg p.1 = true) →
      Answers (.faultRecovery true up lost now) s fun u =>
        Recorded f.code 0 f.die f.loc s u ∧
        u.job.phase = .running ∧ u.job.step = x.step ∧ u.job.chain = x.chain ∧ u.job.img = s.job.img ∧ u.job.gen = c.gen ∧
        (∀ r v, savedReg r = true → (∀ p ∈ x.rows, p.2.decided = true → r ≠ .svcCtrl p.1) → tfind x.regs r = some v → u.reg r = v &&& r.impl) ∧ u.rows = x.rows ∧
        (∀ t z w, tfind s.tiles t = some z → tfind x.tiles t = some w →
          (u.tile t).sv = w.sv ∧ (u.tile t).vr = w.vr ∧ (u.tile t).mo = w.mo ∧ (u.tile t).step = w.step ∧ (u.tile t).trec = z.trec) ∧
        (∀ a bs, x.ranges = [(a, bs)] → (∀ b, a ≤ b ∧ b < a + bs.length → ¬ echoSlot s b) → u.bytes a bs.length = bs) ∧
        u.echo.seq = e + 1 ∧ u.echo.replay = false ∧ leAt (u.bytes (echoAddr s e) 64) 14 1 = 0x10 ∧
        leAt (u.bytes (echoAddr s e) 64) 20 8 = c.seq % 2 ^ 64 ∧
        u.flt.pending = [] ∧ u.flt.cur = [] ∧ u.flt.phase6 = false ∧ u.flt.attemptGen = c.gen ∧
        u.fget .fltStatus F.fltStatus_STATE = 0 ∧ u.fget .fltStatus F.fltStatus_ATTEMPT = n ∧
        u.fget .fltStatus F.fltStatus_OUTCOME = (if some c.gen = s.flt.good.map Snap.gen then 1 else 2) ∧
        u.fget .fltCount F.fltCount_RECOVERED = min 0xFFFF (s.fget .fltCount F.fltCount_RECOVERED + 1) ∧
        Only { regs := fun r => regs r ∨ savedReg r = true ∨ echoRegs r, tiles := fun _ => True, mem := fun a => inRange a ∨ echoSlot s a,
               parts := [.rows, .job, .echo, .flt, .hif, .net, .free] } s u)

/-- Self-tests and the management controller (R26, R242, R311, R314, R324, R326-R328, R421). -/
def Obligations.SelftestsAndControllerResetsAct : Prop :=
  ∀ s : State, RegsOk s → MemOk s →
    let r : Reg := .fltSelftest
    let result (n : Nat) (u : State) : Prop := u.fget r F.fltSelftest_RESULT = n
    (∀ p ∈ [(0, Instr.bist), (1, Instr.hbmRetrainRequest), (2, Instr.sensorRecalibration)], Powered s r →
      let later := { s.flt with deferred := s.flt.deferred ||| 2 ^ p.1 }
      let trains := (s.flt.testing ||| 2 ^ p.1).testBit 1 = true
      (∀ force, s.job.phase = .none → Answers (p.2 force) s fun u =>
        u.flt = { s.flt with testing := s.flt.testing ||| 2 ^ p.1 } ∧ result 1 u ∧
        (trains → ∀ k, stackState u k = (if stackState s k = 2 then 4 else stackState s k) ∧
          (stackState s k = 2 → u.flag (.hbmStatus k) F.hbmStatus_RETRAIN_PEND = false)) ∧
        Only { regs := fun q => q = r ∨ (trains ∧ ∃ k, stackState s k = 2 ∧ q = .hbmStatus k), parts := [.flt] } s u) ∧
      (s.job.phase ≠ .none → Answers (p.2 false) s fun u => u.flt = later ∧ result 4 u ∧ Only { regs := (· = r), parts := [.flt] } s u) ∧
      (s.job.phase ≠ .none → allDone s = false → Answers (p.2 true) s fun u =>
        u.flt = later ∧ u.job = { s.job with suspendAt := some (topStep s + 1) } ∧ Only { parts := [.flt, .job] } s u) ∧
      (s.job.phase ≠ .none → allDone s = true → Answers (p.2 true) s fun u =>
        u.job = { s.job with suspendAt := some s.job.step, gen := s.job.gen + 1, ckptBusy := true, holds := s.job.step :: s.job.holds } ∧
        (∃ x, u.flt = { later with writing := some x } ∧ x.gen = s.job.gen + 1 ∧ x.step = moduleStep s ∧ x.tiles = s.tiles) ∧
        Only { parts := [.flt, .job] } s u)) ∧
    (∀ ok ts xs ks, s.flt.testing = 0 → Answers (.selftestResult ok ts xs ks) s fun u => u = s) ∧
    (s.flt.testing ≠ 0 →
      let retrained := s.flt.testing.testBit 1 = true
      let done (n : Nat) (u : State) : Prop := result n u ∧ u.flt.testing = 0
      let regs (q : Reg) : Prop := q = r ∨ (retrained ∧ ∃ k, stackState s k = 4 ∧ q = .hbmStatus k)
      let kept (ks : List Nat) (u : State) : Prop := ∀ k : BitVec 5, k.toNat ∉ ks →
        stackState u k = if s.flt.testing.testBit 1 = true ∧ stackState s k = 4 then 2 else stackState s k
      (s.job.phase ≠ .suspended → ∀ ts xs ks, Answers (.selftestResult true ts xs ks) s fun u =>
        done 2 u ∧ kept [] u ∧ Only { regs, parts := [.flt] } s u) ∧
      (∀ x ts xs ks, s.job.phase = .suspended → s.flt.copies.getLast? = some x → (∀ p ∈ x.regs, savedReg p.1 = true) →
        Answers (.selftestResult true ts xs ks) s fun u => done 2 u ∧ kept [] u ∧
          u.job.phase = .running ∧ u.job.holds = [] ∧ u.job.step = x.step ∧ u.job.chain = x.chain ∧ u.rows = x.rows ∧
          (∀ q v, savedReg q = true → tfind x.regs q = some v → u.reg q = v &&& q.impl) ∧
          (∀ t z w, tfind s.tiles t = some z → tfind x.tiles t = some w →
            (u.tile t).sv = w.sv ∧ (u.tile t).vr = w.vr ∧ (u.tile t).step = w.step ∧ (u.tile t).trec = z.trec) ∧
          Only { regs := fun q => regs q ∨ savedReg q = true, tiles := fun _ => True,
                 mem := fun a => ∃ p ∈ x.ranges, p.1 ≤ a ∧ a < p.1 + p.2.length, parts := [.rows, .job, .flt, .net] } s u) ∧
      (∀ t : TileId, s.job.phase ≠ .suspended →
        let d := dieOf t
        let row := physRow s d (rowOf t).toNat
        let col := physCol s d row (colOf t).toNat
        let m : Reg := .dieRowmap d row
        s.flag m F.dieRowmap_NOSPARE = false → col ≠ s.fget m F.dieRowmap_UNMAPPED → Answers (.selftestResult false [t] [] []) s fun u =>
          done 3 u ∧ kept [] u ∧ Noted 0 2 d.toNat t.toNat s u ∧ u.fget m F.dieRowmap_UNMAPPED = col ∧
          u.flag m F.dieRowmap_SHIFTED = true ∧ u.flag m F.dieRowmap_NOSPARE = true ∧ (d.toNat, row.toNat, col) ∈ u.boot.table.tiles ∧
          Only { regs := fun q => regs q ∨ recRegs q ∨ shiftRegs s d row q, mem := fun a => tableByte s a ∨ shiftByte s d row a,
                 parts := [.flt, .boot, .hif] } s u) ∧
      (∀ x < 128, s.job.phase ≠ .suspended →
        let m : Reg := .dieRowmap (BitVec.ofNat 3 (x / 16)) (BitVec.ofNat 4 x)
        Answers (.selftestResult false [] [x] []) s fun u => done 3 u ∧ kept [] u ∧ u.flag m F.dieRowmap_NOSPARE = true ∧
          u.fget m F.dieRowmap_UNMAPPED = s.fget m F.dieRowmap_UNMAPPED ∧ 
          Only { regs := fun q => regs q ∨ q = m, mem := tableByte s, parts := [.flt, .boot] } s u) ∧
      (∀ k : BitVec 5, k.toNat ∉ s.boot.table.badStacks → Answers (.selftestResult false [] [] [k.toNat]) s fun u =>
        done 3 u ∧ kept [k.toNat] u ∧ stackState u k = 5 ∧ k.toNat ∈ u.boot.table.badStacks ∧ Noted 0 2 (k.toNat / 4) k.toNat s u ∧
        (stackState s k = 4 → BitSet (.hbmErr k) F.hbmErr_RETRAIN_FAIL s u) ∧
        (s.job.phase = .suspended → u.fget .fltStatus F.fltStatus_OUTCOME = 3) ∧
        Only { regs := fun q => regs q ∨ recRegs q ∨ q = .hbmStatus k ∨ (stackState s k = 4 ∧ q = .hbmErr k) ∨ (s.job.phase = .suspended ∧ q = .fltStatus),
               mem := tableByte s, parts := [.flt, .boot, .hif] } s u)) ∧
    (∀ copy now, Answers (.mcSramUe ⟨false, copy, now⟩) s fun u => BitSet .fltMc F.fltMc_SRAM_CE s u ∧ Only { regs := (· = .fltMc) } s u) ∧
    (∀ c ∈ [(false, Instr.mcWatchdogExpiry), (false, fun n => .mcSramUe ⟨true, false, n⟩), (true, fun n => .mcSramUe ⟨true, true, n⟩)], ∀ now : Nat,
      let again := ∃ t, s.flt.mcLastReset = some t ∧ now < t + 60000
      let reset (u : State) : Prop := Noted 0 4 8 0 s u ∧ u.flt = { s.flt with mcAbsent := true, mcLastReset := some now, copyBad := c.1 || s.flt.copyBad } ∧
        u.fget .fltMc F.fltMc_RESETS = min 0xFFFF (s.fget .fltMc F.fltMc_RESETS + 1)
      let regs (q : Reg) : Prop := recRegs q ∨ q = .fltMc
      (s.flt.mcAbsent = true → Answers (c.2 now) s fun u => u = s) ∧
      (s.flt.mcAbsent = false → ¬ again → Answers (c.2 now) s fun u =>
        reset u ∧ u.flag .fltMc F.fltMc_STOPPED = s.flag .fltMc F.fltMc_STOPPED ∧ Only { regs, parts := [.flt, .hif] } s u) ∧
      (s.flt.mcAbsent = false → again → Answers (c.2 now) s fun u =>
        reset u ∧ u.flag .fltMc F.fltMc_STOPPED = true ∧ u.pins.alertN = false ∧
        u.job = { s.job with phase := if s.job.phase = .none then .none else .frozen } ∧
        (∀ t, (u.tile t).mode = .run → (u.tile t).freezeReq = true) ∧
        Only { regs, tiles := fun _ => True, parts := [.flt, .pins, .job, .hif] } s u)) ∧
    (let back := s.flt.mcAbsent = true ∧ s.flag .fltMc F.fltMc_STOPPED = false
     let quiet := s.flt.notes = [] ∧ s.net.mcFrames = [] ∧ s.net.mcLost = [] ∧ s.net.recovering = false
     let faults := (s.flt.mended ++ (s.flt.cur.map fun f : FaultRec => { f with again := false }) ++ s.flt.pending).eraseDups
     let a := (flashRegion s 2).1
     let e := firmwareErr (fun o n => s.bytes (flash (a + o)) n) s.otp.keys (s.fget .secKeyslot F.secKeyslot_REVOKED) none false
     let head := s.bytes (flash a) 4096
     let taken (u : State) : Prop := u.flt = { s.flt with mcAbsent := false, copyBad := false, pending := faults, cur := [], need := none, phase6 := false } ∧
       u.ent = { s.ent with waiting := s.ent.waiting ++ s.ent.mcQueue.take (64 - s.ent.waiting.length),
                            mcQueue := s.ent.mcQueue.drop (64 - s.ent.waiting.length) } ∧
       u.fget .entStatus F.entStatus_WAITING = u.ent.waiting.length % 256
     let live := s.flt.phase6 = false
     let good := s.flt.copyBad = false
     let bad := s.flt.copyBad = true
     let pend := s.hif.mbxPending
     let regs (q : Reg) : Prop := q = .entStatus ∨ (pend ≠ none ∧ q = .mbxStatus)
     let mailed (u : State) : Prop := (pend = none → u.hif = s.hif) ∧
       (pend = some 0 → u.hif = Hif.signalled { s.hif with mbxPending := none } 0 ∧ u.fget .mbxStatus F.mbxStatus_CODE = 1 ∧
         u.flag .mbxStatus F.mbxStatus_DONE = true ∧ u.flag .mbxStatus F.mbxStatus_BUSY = false)
     (¬ back → Answers .mcRestart s fun u => u = s) ∧
     (back → quiet → good → live → pend = none ∨ pend = some 0 → Answers .mcRestart s fun u => taken u ∧ mailed u ∧
       Only { regs, parts := [.flt, .ent, .hif] } s u) ∧
     (back → quiet → good → s.flt.phase6 = true → pend = none ∨ pend = some 0 → Answers .mcRestart s fun u => taken u ∧ mailed u ∧
       u.job = { s.job with phase := .frozen } ∧ Stopping u ∧ u.fget .fltStatus F.fltStatus_STATE = 1 ∧
       Only { regs := fun q => regs q ∨ q = .fltStatus, tiles := fun _ => True, parts := [.flt, .ent, .hif, .job] } s u) ∧
     (back → quiet → bad → live → e = 0 → pend = none ∨ pend = some 0 → Answers .mcRestart s fun u => taken u ∧ mailed u ∧
       u.fget .bootStatus F.bootStatus_FW_ERR = 0 ∧ u.reg .bootFwVer = BitVec.ofNat 32 (leAt head 8 4) ∧
       (∀ i, u.reg (.bootFwDigest i) = (sha3 head).extractLsb' (224 - 32 * i.toNat) 32) ∧
       u.fget .secKeyslot F.secKeyslot_RUNNING = leAt head 16 1 ∧ u.flag .hifPolicy F.hifPolicy_FW = false ∧
       Only { regs := fun q => regs q ∨ q = .bootStatus ∨ q = .bootFwVer ∨ (∃ i, q = .bootFwDigest i) ∨ q = .secKeyslot ∨ q = .hifPolicy,
              parts := [.flt, .ent, .hif] } s u) ∧
     (back → quiet → bad → e ≠ 0 → pend = none → Answers .mcRestart s fun u => u.flt.mcAbsent = false ∧ u.fget .bootStatus F.bootStatus_FW_ERR = e ∧
       u.fget .bootStatus F.bootStatus_PHASE = 0xF ∧ u.flag .glbStatus F.glbStatus_RECOVERY = true ∧
       u.flag .glbStatus F.glbStatus_READY = false ∧ u.tiles = [] ∧ u.rows = [] ∧ u.slots = [] ∧
       (jobLoaded s = true → u.job = { jobId := s.job.jobId }))) ∧
    (s.flt.mcAbsent = true → Answers .governorFallback s fun u =>
      u.pwr = { s.pwr with budget := (List.range 8).map fun d => (d, 150000) } ∧ Only { parts := [.pwr] } s u) ∧
    (s.flt.mcAbsent = false → Answers .governorFallback s fun u => u = s)

/-- Doorbells and queue pairs (R171-R173, R333-R337, R339, R340, R345, R349, R352, R389, R410). -/
def Obligations.DoorbellsAndQueuesAct : Prop :=
  ∀ s : State, MemOk s → RegsOk s →
    let awake := pstate s = 0 ∧ s.pwr.req = none
    (∀ (q : BitVec 6) (v : U32) (now : U64),
      let p := s.qp q.toNat
      let others (u : State) : Prop := (∀ k, k ≠ q.toNat → u.qp k = s.qp k) ∧ u.hif = { s.hif with queues := u.hif.queues }
      let range (u : State) : Prop := BitSet .hifErr F.hifErr_DB_RANGE s u ∧ Only { regs := (· = .hifErr) } s u
      let held (kind : Nat) (u : State) : Prop :=
        u.hif = { s.hif with heldBells := s.hif.heldBells ++ [(kind, q.toNat, v)] } ∧ Only { parts := [.hif] } s u
      (awake → isReady s = true → qOn s q.toNat = true →
        (v.toNat < sqSize s q → Answers (.sqTailDoorbell q v now) s fun u =>
          u.qp q.toNat = { p with tail := v.toNat } ∧ others u ∧ Only { parts := [.hif] } s u) ∧
        (sqSize s q ≤ v.toNat → Answers (.sqTailDoorbell q v now) s range) ∧
        (v.toNat < cqSize s q → Answers (.cqHeadDoorbell q v now) s fun u =>
          u.qp q.toNat = { p with cqHead := v.toNat } ∧ others u ∧ Only { parts := [.hif] } s u) ∧
        (cqSize s q ≤ v.toNat → Answers (.cqHeadDoorbell q v now) s range)) ∧
      (3 ≤ pstate s ∨ (awake ∧ isReady s = true ∧ qOn s q.toNat = false) →
        Answers (.sqTailDoorbell q v now) s (fun u => u = s) ∧ Answers (.cqHeadDoorbell q v now) s fun u => u = s) ∧
      (awake → isReady s = false →
        Answers (.sqTailDoorbell q v now) s (held 0) ∧ Answers (.cqHeadDoorbell q v now) s (held 1))) ∧
    (∀ (n : BitVec 9) (v : U32) (now : U64),
      let i := v.toNat % 2 ^ 20
      let asked := n.toNat < 384 ∧ s.fget (.svcCtrl n) F.svcCtrl_STATE = 2
      let idle := n.toNat < 384 ∧ s.fget (.svcCtrl n) F.svcCtrl_STATE ≠ 2
      let row := s.row n
      let own := i = row.own
      let ended (status : Nat) (diff : Prop) (u : State) : Prop :=
        Logged { typ := 9, agent := n.toNat, aux := i } s u ∧ u.fget (.svcCtrl n) F.svcCtrl_STATE = 1 ∧
        u.fget (.svcResult n) F.svcResult_STATUS = status ∧ (u.flag (.svcResult n) F.svcResult_HOST_DIFF = true ↔ diff) ∧
        u.row n = {} ∧ ∀ m, m ≠ n → u.row m = s.row m
      let regs (r : Reg) : Prop := echoRegs r ∨ r = .svcCtrl n ∨ r = .svcResult n
      (awake → isReady s = true → idle → Answers (.sieveAnswer n v now) s fun u =>
        BitSet .hifErr F.hifErr_ANSWER_DROP s u ∧ Only { regs := (· = .hifErr) } s u) ∧
      (3 ≤ pstate s ∨ (awake ∧ isReady s = true ∧ 384 ≤ n.toNat) → Answers (.sieveAnswer n v now) s fun u => u = s) ∧
      (awake → isReady s = false → Answers (.sieveAnswer n v now) s fun u =>
        u.hif = { s.hif with heldBells := s.hif.heldBells ++ [(2, n.toNat, v)] } ∧ Only { parts := [.hif] } s u) ∧
      (awake → isReady s = true → asked → row.decided = true → Live s → Settled s →
        (∀ y, row.kept.find? (fun x => x.1 = i && decide (i < row.len)) = some (i, y) → Answers (.sieveAnswer n v now) s fun u =>
          ended 0 (¬ own) u ∧ u.fget (.svcResult n) F.svcResult_INDEX = i ∧ u.reg (.svcYSel n) = y ∧ u.reg (.svcM n) = row.rm ∧
          u.reg (.svcS n) = row.rs ∧ svcPos u n = (svcPos s n + 1) % 2 ^ 48 ∧
          (¬ own → u.fget .echoJob F.echoJob_CLASS = 2 ∧ bitOf (u.reg .echoJob) 8 = true) ∧
          Only { regs := fun r => regs r ∨ r = .svcYSel n ∨ r = .svcM n ∨ r = .svcS n ∨ r = .svcPosLo n ∨ r = .svcPosHi n,
                 mem := echoSlot s, parts := [.rows, .job, .echo] } s u) ∧
        (row.kept.find? (fun x => x.1 = i && decide (i < row.len)) = none → Answers (.sieveAnswer n v now) s fun u =>
          ended 7 False u ∧ u.fget (.svcResult n) F.svcResult_INDEX = s.fget (.svcResult n) F.svcResult_INDEX ∧
          Only { regs, mem := echoSlot s, parts := [.rows, .job, .echo] } s u))) ∧
    (∀ q : BitVec 6,
      let p := s.qp q.toNat
      let on := qOn s q.toNat = true ∧ isReady s = true ∧ s.hif.linkUp = true ∧ pstate s < 4 ∧ p.busy = none ∧ p.tail ≠ p.head
      let head := (p.head + 1) % sqSize s q
      let c : Cmd := { queue := q.toNat, bytes := s.bytes (hostMem (s.pair (.qSqbaseLo q) (.qSqbaseHi q) + 64 * p.head)) 64, head }
      let others (u : State) : Prop := (∀ k, k ≠ q.toNat → u.qp k = s.qp k) ∧ u.hif = { s.hif with queues := u.hif.queues }
      (∀ fails, ¬ on → Answers (.sqFetch q fails) s fun u => u = s) ∧
      (on → 1 ≤ c.opc → c.opc ≤ 6 → Answers (.sqFetch q false) s fun u =>
        u.qp q.toNat = { p with head, busy := some c } ∧ others u ∧ Only { parts := [.hif] } s u) ∧
      (on → c.opc = 0 ∨ 6 < c.opc → Answers (.sqFetch q false) s fun u =>
        u.qp q.toNat = { p with head, ready := p.ready ++ [{ queue := q.toNat, cid := c.cid, head, result0 := 0, code := 1, typ := 1 }] } ∧
        others u ∧ Only { parts := [.hif] } s u) ∧
      (on → Answers (.sqFetch q true) s fun u => BitSet .hifErr F.hifErr_DMA_FAIL s u ∧
        u.hif = withEvent s.hif 7 [q.toNat] ∧ u.flag .mbxStatus F.mbxStatus_EVT = true ∧ Faulted { code := 0x8E, loc := q.toNat } s u ∧
        Only (faultScope (fun r => r = .hifErr ∨ r = .mbxStatus) [.hif]) s u)) ∧
    (∀ q : BitVec 6,
      let p := s.qp q.toNat
      let a := hostMem (s.pair (.qCqbaseLo q) (.qCqbaseHi q) + 16 * p.cqTail)
      let next := (p.cqTail + 1) % cqSize s q
      let vec := s.fget (.qCfg q) F.qCfg_VEC
      let goes := s.hif.linkUp = true ∧ qOn s q.toNat = true ∧ cqRoom s q = true
      let posted (c : Completion) (u : State) : Prop :=
        u.bytes a 16 = c.bytes p.phase ∧ u.hif = { (if 64 ≤ vec then s.hif.signalled vec else s.hif) with queues := u.hif.queues }
      let here (b : Nat) : Prop := a ≤ b ∧ b < a + 16
      (∀ c cs, goes → p.ready = c :: cs → Answers (.cqPost q) s fun u => posted c u ∧
        u.qp q.toNat = { p with ready := cs, cqTail := next, phase := if next = 0 then !p.phase else p.phase } ∧
        (∀ k, k ≠ q.toNat → u.qp k = s.qp k) ∧ Only { mem := here, parts := [.hif] } s u) ∧
      (¬ goes ∨ p.ready = [] → Answers (.cqPost q) s fun u => u = s) ∧
      (∀ v : U32, Powered s (.qCfg q) →
        let cfg : Reg := .qCfg q
        let fits := s.pair (.qSqbaseLo q) (.qSqbaseHi q) % 4096 = 0 ∧ s.pair (.qCqbaseLo q) (.qCqbaseHi q) % 4096 = 0 ∧
          4 ≤ F.qCfg_SQSZ.get v ∧ 4 ≤ F.qCfg_CQSZ.get v
        let still := s.echo.waiting = [] ∧ s.job.pauseQ ≠ some q.toNat ∧ (∀ r ∈ s.hif.pool, r.queue ≠ q.toNat) ∧
          ¬ (s.job.phase = .loading ∧ s.job.queue = q.toNat) ∧ ∀ j, (s.slot j).queue = q.toNat → (s.slot j).loading = false
        let word (en : Nat) (u : State) : Prop := u.reg cfg = F.qCfg_EN.put v en &&& Reg.impl cfg
        let down (u : State) : Prop := u.qp q.toNat = {} ∧ ∀ k, k ≠ q.toNat → u.qp k = s.qp k
        (fits → qOn s q.toNat = false → Answers (.queueEnable q v) s fun u => word 1 u ∧ down u ∧ Only { regs := (· = cfg), parts := [.hif] } s u) ∧
        (fits → qOn s q.toNat = true → Answers (.queueEnable q v) s fun u => word 1 u ∧ Only { regs := (· = cfg) } s u) ∧
        (¬ fits → still → qOn s q.toNat = false → p = {} → Answers (.queueEnable q v) s fun u =>
          u.flag cfg F.qCfg_EN = false ∧ BitSet .hifErr F.hifErr_Q_CFG s u ∧ down u ∧
          Only { regs := fun r => r = cfg ∨ r = .hifErr, parts := [.hif] } s u) ∧
        (qOn s q.toNat = false → Answers (.queueDisable q v) s fun u => word 0 u ∧ Only { regs := (· = cfg) } s u) ∧
        (∀ c, still → qOn s q.toNat = true → p.busy = some c → p.ready = [] →
          (s.hif.linkUp = false → Answers (.queueDisable q v) s fun u =>
            word 0 u ∧ down u ∧ Only { regs := (· = cfg), parts := [.hif] } s u) ∧
          (s.hif.linkUp = true → cqRoom s q = true → Answers (.queueDisable q v) s fun u => word 0 u ∧ down u ∧
            posted { queue := q.toNat, cid := c.cid, head := c.head, result0 := 0, code := 6, typ := 1 } u ∧
            Only { regs := (· = cfg), mem := here, parts := [.hif] } s u))))

/-- DMA rings and transfers (R230, R286-R290, R293-R295, R340, R344-R347, R349). -/
def Obligations.TransfersCompleteOrFail : Prop :=
  ∀ s : State, MemOk s → RegsOk s →
    (∀ (g : BitVec 5) (v : U32), Powered s (.dmaTail g) →
      let n := tget s.hif.ringNext 0 g.toNat
      let bs := s.bytes (hostMem (s.pair (.dmaBaseLo g) (.dmaBaseHi g) + 32 * n)) 32
      (Settled s → Answers (.dmaTailWrite g v) s fun u => u.reg (.dmaTail g) = v ∧ Only { regs := (· = .dmaTail g) } s u) ∧
      (∀ t kind d r, (s.tiles.map Prod.fst).Nodup → (∀ x ∈ s.tiles, x.2.ctl = none ∧ (x.1 ≠ t → x.2.waits = [])) →
        (s.tile t).waits = [.dma kind d] → d.p0 = g.toNat → s.flag (.dmaCfg g) F.dmaCfg_EN = true → n ≠ v.toNat % ringSize s g →
        regionOf s d.p1 = some r → descriptorOk kind bs (some r) = true → Answers (.dmaTailWrite g v) s fun u =>
          u.reg (.dmaTail g) = v ∧ u.tile t = { s.tile t with waits := [] } ∧
          u.hif = { s.hif with
            ringNext := tset s.hif.ringNext g.toNat ((n + 1) % ringSize s g)
            transfers := s.hif.transfers ++ [{
              kind, ring := g.toNat, host := leAt bs 0 8, len := leAt bs 8 4, addr := r.base + leAt bs 16 8, region := d.p1,
              prov := leAt bs 24 8, counter := some (handleOf (s.tile t) d.p2).toNat, 
              stream := Config.streamBuffer s.job.img.hdr.digest d.p1, tries := 0 }] } ∧
          Only { regs := (· = .dmaTail g), tiles := (· = t), parts := [.hif] } s u)) ∧
    (∀ place, s.hif.linkUp = false ∨ s.hif.transfers[place]? = none → Answers (.dmaComplete place) s fun u => u = s) ∧
    (∀ place x (c : Option (BitVec 13)), s.hif.linkUp = true → s.hif.transfers[place]? = some x → x.counter = c.map BitVec.toNat →
      Live s → Room 2 s → Settled s → (∀ k, c = some k → (s.reg (.syncCnt k)).toNat + 1 < 2 ^ 32 ∧ tget s.echo.given 0 k.toNat = 0 ∧
        (s.net.barriers.any fun b => b.desc.ext = k.toNat && s.net.closing.contains b.desc.counter) = false) →
      let here := s.bytes (hbm x.addr) x.len
      let there := s.bytes (hostMem x.host) x.len
      let vec := s.fget (.dmaCfg (BitVec.ofNat 5 x.ring)) F.dmaCfg_VEC
      let counts : List EchoEntry := match c with | none => [] | some k => [{ typ := 7, agent := k.toNat, aux := 1 }]
      let ended (u : State) : Prop :=
        u.hif = { (if 64 ≤ vec then s.hif.signalled vec else s.hif) with transfers := s.hif.transfers.eraseIdx place, gens := u.hif.gens } ∧
        (∀ k, c = some k → (u.reg (.syncCnt k)).toNat = (s.reg (.syncCnt k)).toNat + 1)
      let regs (r : Reg) : Prop := echoRegs r ∨ ∃ k, c = some k ∧ r = .syncCnt k
      let host (b : Nat) : Prop := hostMem x.host ≤ b ∧ b < hostMem x.host + x.len
      let dest (b : Nat) : Prop := hbm x.addr ≤ b ∧ b < hbm x.addr + x.len
      let record := provRecord s x.stream ++ provAnnex s x.stream
      let prov (b : Nat) : Prop := x.prov ≠ 0 ∧ hostMem x.prov ≤ b ∧ b < hostMem x.prov + record.length
      (x.kind = 0 → 0 < x.len → (∀ b, dest b → ¬ echoSlots 2 s b) → Answers (.dmaComplete place) s fun u => ended u ∧
        LoggedAll ({ typ := 5, agent := x.ring, aux := x.host, len := x.len, payload := digestNum there } :: counts) s u ∧
        u.bytes (hbm x.addr) x.len = there ∧ (∃ p ∈ u.job.written, p.1 = x.region) ∧
        (∀ g, tget u.hif.gens 0 g = tget s.hif.gens 0 g +
          if x.addr / 2 ^ 30 ≤ g ∧ g ≤ (x.addr + x.len - 1) / 2 ^ 30 then 1 else 0) ∧
        Only { regs, mem := fun b => dest b ∨ echoSlots 2 s b, parts := [.hif, .job, .echo] } s u) ∧
      (x.kind = 1 → (∀ b, host b → ¬ prov b ∧ ¬ echoSlots 2 s b) → (∀ b, prov b → ¬ echoSlots 2 s b) → Answers (.dmaComplete place) s fun u =>
        ended u ∧ LoggedAll counts s u ∧ u.bytes (hostMem x.host) x.len = here ∧
        (x.prov ≠ 0 → u.bytes (hostMem x.prov) record.length = record) ∧
        Only { regs, mem := fun b => host b ∨ prov b ∨ echoSlots 2 s b, parts := [.hif, .job, .echo] } s u) ∧
      (x.kind = 2 → x.len % 4 = 0 → (∀ b, host b → ¬ echoSlots 2 s b) → Answers (.dmaComplete place) s fun u =>
        ended u ∧ LoggedAll counts s u ∧ u.bytes (hostMem x.host) x.len = scatterSums there here ∧
        Only { regs, mem := fun b => host b ∨ echoSlots 2 s b, parts := [.hif, .job, .echo] } s u)) ∧
    (∀ place, s.hif.transfers[place]? = none → ¬ (place = s.hif.transfers.length ∧ sourceInHost s = true) →
      Answers (.dmaRequestTimeout place) s fun u => u = s) ∧
    (sourceInHost s = true →
      (s.echo.tries < 3 → Answers (.dmaRequestTimeout s.hif.transfers.length) s fun u =>
        u.echo = { s.echo with tries := s.echo.tries + 1 } ∧ Only { parts := [.echo] } s u) ∧
      (3 ≤ s.echo.tries → Answers (.dmaRequestTimeout s.hif.transfers.length) s fun u => u.echo = { s.echo with tries := 0 } ∧
        BitSet .hifErr F.hifErr_DMA_FAIL s u ∧ u.hif = withEvent s.hif 7 [0xFF] ∧ Faulted { code := 0x8E, loc := 0xFF } s u ∧
        Only (faultScope (fun r => r = .hifErr ∨ r = .mbxStatus) [.hif, .echo]) s u)) ∧
    (∀ place x, s.hif.transfers[place]? = some x →
      (x.tries < 3 → Answers (.dmaRequestTimeout place) s fun u =>
        u.hif = { s.hif with transfers := s.hif.transfers.set place { x with tries := x.tries + 1 } } ∧ Only { parts := [.hif] } s u) ∧
      (3 ≤ x.tries → Answers (.dmaRequestTimeout place) s fun u =>
        u.hif = withEvent { s.hif with transfers := s.hif.transfers.eraseIdx place } 7 [x.ring] ∧
        BitSet .hifErr F.hifErr_DMA_FAIL s u ∧ Faulted { code := 0x8E, loc := x.ring } s u ∧
        u.flag .mbxStatus F.mbxStatus_EVT = true ∧
        Only (faultScope (fun r => r = .hifErr ∨ r = .mbxStatus) [.hif]) s u))

/-- The mailbox of the management controller (R289, R316, R318, R322, R327, R348, R349, R352, R402, R403, R412, R413, R416, R423). -/
def Obligations.MailboxCommandsRunAndEventsPop : Prop :=
  ∀ s : State, MemOk s → RegsOk s →
    let m : Reg := .mbxStatus
    let cmdRegs (r : Reg) : Prop := r = .mbxCmd ∨ r = m
    let free := Powered s .mbxCmd ∧ s.flag m F.mbxStatus_BUSY = false
    let present := s.flt.mcAbsent = false
    let on := free ∧ present ∧ inRecovery s = false
    let rec_ := free ∧ present ∧ inRecovery s = true
    let said (cmd len : Nat) (u : State) : Prop := u.fget .mbxCmd F.mbxCmd_CMD = cmd % 256 ∧ u.fget .mbxCmd F.mbxCmd_LEN = len % 256
    let done (code : Nat) (u : State) : Prop := u.fget m F.mbxStatus_CODE = code ∧ u.flag m F.mbxStatus_DONE = true ∧
      u.flag m F.mbxStatus_BUSY = false
    let rang (u : State) : Prop := u.hif = s.hif.signalled 0
    let ran (cmd len code : Nat) (u : State) : Prop := said cmd len u ∧ done code u ∧ rang u
    let only (cmd len code : Nat) (u : State) : Prop := ran cmd len code u ∧ Only { regs := cmdRegs, parts := [.hif] } s u
    let arg := mbxArg s
    let data (k n : Nat) := ((mbxBytes s).drop k).take n
    let stopped (n : Nat) (u : State) : Prop := u.fget .fltStatus F.fltStatus_STATE = 1 ∧ u.fget .fltStatus F.fltStatus_OUTCOME = n ∧
      u.job = { s.job with phase := .frozen } ∧ u.flt.ended = true ∧ u.flt.need = none ∧ u.flt.pending = [] ∧
      u.hif = (s.hif.signalled 0).signalled 1 ∧ Stopping u
    let ends (parts : List Part) : Scope :=
      { regs := fun r => cmdRegs r ∨ r = .fltStatus ∨ r = .fltCount, tiles := fun _ => True, parts := [.hif, .flt, .job] ++ parts }
    let fw := firmwareErr (fun o n => s.bytes (staging o) n) s.otp.keys (s.fget .secKeyslot F.secKeyslot_REVOKED) (some (arg 0)) false
    let head := s.bytes (staging 0) 4096
    (∀ p ∈ [(1, Instr.echoRing), (2, Instr.ckptHost), (3, Instr.fwPush), (4, Instr.fwCommit), (5, Instr.rebuildDone),
        (6, Instr.echoSupply), (7, Instr.drbgInput)], ∀ len,
      (Powered s .mbxCmd → s.flag m F.mbxStatus_BUSY = true → Answers (p.2 len) s fun u =>
        BitSet m F.mbxStatus_OVERRUN s u ∧ Only { regs := (· = m) } s u) ∧
      (free → s.flt.mcAbsent = true → Answers (p.2 len) s fun u => said p.1 len u ∧ u.flag m F.mbxStatus_BUSY = true ∧
        u.hif = { s.hif with mbxPending := some p.1 } ∧ Only { regs := cmdRegs, parts := [.hif] } s u) ∧
      (rec_ → p.1 ≠ 3 → p.1 ≠ 4 → Answers (p.2 len) s (only p.1 len 1))) ∧
    (∀ cmd, cmd = 0 ∨ 7 < cmd → free → present → Answers (.unknownCommand cmd) s (only cmd 0 1)) ∧
    (∀ len,
      (on → arg 0 % 4096 = 0 → (∃ i < 17, arg 1 = 2 ^ (10 + i)) → Answers (.echoRing len) s fun u => ran 1 len 0 u ∧
        u.echo = { s.echo with hostBase := arg 0, hostLen := arg 1, hostTail := arg 2 } ∧
        Only { regs := cmdRegs, parts := [.hif, .echo] } s u) ∧
      (on → arg 0 % 4096 ≠ 0 ∨ (∀ i < 17, arg 1 ≠ 2 ^ (10 + i)) → Answers (.echoRing len) s (only 1 len 1)) ∧
      (on → Answers (.ckptHost len) s fun u => said 2 len u ∧ done 0 u ∧
        u.hif = Hif.signalled { s.hif with ckptHost := some (arg 0, arg 1, arg 2) } 0 ∧
        Only { regs := cmdRegs, parts := [.hif] } s u) ∧
      (let fits := arg 1 ≤ 224 ∧ arg 0 + arg 1 ≤ 0x401000
       (rec_ → fits → Answers (.fwPush len) s fun u => ran 3 len 0 u ∧ u.bytes (staging (arg 0)) (arg 1) = data 16 (arg 1) ∧
         Only { regs := cmdRegs, mem := fun a => staging (arg 0) ≤ a ∧ a < staging (arg 0) + arg 1, parts := [.hif] } s u) ∧
       (free → present → inRecovery s = false ∨ ¬ fits → Answers (.fwPush len) s (only 3 len 1))) ∧
      (on → Answers (.fwCommit len) s (only 4 len 1)) ∧
      (rec_ → fw ≠ 0 → Answers (.fwCommit len) s fun u => ran 4 len 0 u ∧ u.fget .bootStatus F.bootStatus_FW_ERR = fw ∧
        (∀ a, staging 0 ≤ a → a < staging 0 + 2 ^ 64 → u.byte a = memDefault) ∧
        Only { regs := fun r => cmdRegs r ∨ r = .bootStatus, mem := fun a => staging 0 ≤ a ∧ a < staging 0 + 2 ^ 64, parts := [.hif] } s u) ∧
      (rec_ → fw = 0 → s.flag .bootCtrl F.bootCtrl_FW_WRITE = true → Answers (.fwCommit len) s fun u => said 4 len u ∧
        u.flag m F.mbxStatus_BUSY = true ∧ u.fget .bootStatus F.bootStatus_FW_ERR = 0 ∧ u.boot = { s.boot with commit := some (arg 0) } ∧
        Only { regs := fun r => cmdRegs r ∨ r = .bootStatus, parts := [.boot] } s u) ∧
      (rec_ → fw = 0 → s.flag .bootCtrl F.bootCtrl_FW_WRITE = false → Answers (.fwCommit len) s fun u => ran 4 len 0 u ∧
        u.fget .bootStatus F.bootStatus_FW_ERR = 0 ∧ bootPhase u = 2 ∧ inRecovery u = false ∧ u.flag .hifPolicy F.hifPolicy_FW = true ∧
        u.reg .bootFwVer = BitVec.ofNat 32 (leAt head 8 4) ∧ regBytes u .bootFwDigest = digestBytes (sha3 head) ∧
        u.fget .secKeyslot F.secKeyslot_RUNNING = leAt head 16 1 % 4 ∧
        Only { regs := fun r => cmdRegs r ∨ r = .bootStatus ∨ r = .glbStatus ∨ r = .hifPolicy ∨ r = .bootFwVer ∨ r = .secKeyslot ∨
                 ∃ i, r = .bootFwDigest i, parts := [.hif] } s u) ∧
      (on → s.flt.rebuild = [] → Answers (.rebuildDone len) s (only 5 len 0)) ∧
      (∀ r, on → s.flt.rebuild = [r] → arg 0 ≤ r.1 → r.1 + r.2 ≤ arg 0 + arg 1 →
        (chunkOk s r.1 = true → s.job.count ≤ 1 → (pickCopy s).2 = .nothing → Answers (.rebuildDone len) s fun u =>
          said 5 len u ∧ done 0 u ∧ u.flt.rebuild = [] ∧ stopped 4 u ∧ Only (ends []) s u) ∧
        (chunkOk s r.1 = false → Answers (.rebuildDone len) s fun u => said 5 len u ∧ done 0 u ∧ u.flt = s.flt ∧
          u.hif = Hif.signalled (withEvent s.hif 1 [r.1, r.1 / 2 ^ 32, r.2, r.2 / 2 ^ 32]) 0 ∧
          u.flag m F.mbxStatus_EVT = true ∧
          Only { regs := cmdRegs, parts := [.hif] } s u)) ∧
      (on → supplyOk s (arg 0) (arg 1) (arg 2) = false → Answers (.echoSupply len) s (only 6 len 1)) ∧
      (on → supplyOk s (arg 0) (arg 1) (arg 2) = true → s.flt.need = none → Answers (.echoSupply len) s (only 6 len 0)) ∧
      (∀ w, on → supplyOk s (arg 0) (arg 1) (arg 2) = true → s.flt.need = some w →
        let echo := { s.echo with supply := (arg 0, arg 1, arg 2) :: s.echo.supply }
        let held := entriesHeld { s with echo } w.2.2
        (held = false → Answers (.echoSupply len) s fun u => ran 6 len 0 u ∧ u.echo = echo ∧
          Only { regs := cmdRegs, parts := [.hif, .echo] } s u) ∧
        (held = true → s.net.recovering = true → s.job.rank ≠ 0 → Answers (.echoSupply len) s fun u => ran 6 len 0 u ∧ u.echo = echo ∧
          u.flt = { s.flt with need := none } ∧ u.fget .fltStatus F.fltStatus_STATE = 6 ∧
          Only { regs := fun r => cmdRegs r ∨ r = .fltStatus, parts := [.hif, .echo, .flt] } s u) ∧
        (∀ c, held = true → s.net.recovering = false → (goodCopies s).find? (fun c => c.gen = w.1 && c.mirror = w.2.1) = some c →
          let body := readBody s.job.img s.flt.copies (s.bytes (c.addr + 64) (bodyLen s.job.img))
          let ending (n : Nat) (u : State) : Prop := said 6 len u ∧ done 0 u ∧ u.echo = echo ∧ stopped n u ∧ Only (ends [.echo]) s u
          (body = none → Answers (.echoSupply len) s (ending 4)) ∧
          (body ≠ none → s.flt.attemptGen = c.gen → s.fget .fltStatus F.fltStatus_ATTEMPT = 3 →
            Answers (.echoSupply len) s (ending 5)))) ∧
      (let n := arg 0
       let policy := (if jobLoaded s then s.job.hostDrbg else s.flag .hifPolicy F.hifPolicy_DRBG) = true
       (on → n = 0 ∨ 64 < n → Answers (.drbgInput len) s (only 7 len 1)) ∧
       (on → n ≠ 0 → n ≤ 64 → ¬ policy → Answers (.drbgInput len) s fun u => ran 7 len 0 u ∧
         u.fget .entHostInput F.entHostInput_IGNORED = min 0xFFFF (s.fget .entHostInput F.entHostInput_IGNORED + 1) ∧
         Only { regs := fun r => cmdRegs r ∨ r = .entHostInput, parts := [.hif] } s u) ∧
       (on → n ≠ 0 → n ≤ 64 → policy → s.ent.alarm = true → Answers (.drbgInput len) s (only 7 len 0x81)) ∧
       (on → n ≠ 0 → n ≤ 64 → policy → s.ent.alarm = false → s.ent.pool = [] → Answers (.drbgInput len) s fun u => said 7 len u ∧
         u.flag m F.mbxStatus_BUSY = true ∧ u.ent = { s.ent with hostInput := some (data 8 n) } ∧
         Only { regs := cmdRegs, parts := [.ent] } s u) ∧
       (∀ d ds, on → n ≠ 0 → n ≤ 64 → policy → s.ent.alarm = false → s.ent.pool = d :: ds → s.fget .entStatus F.entStatus_STATE = 3 →
         Answers (.drbgInput len) s fun u => ran 7 len 0 u ∧
           u.ent = conditionLoop 6 { (s.ent.reseed d (data 8 n)) with pool := ds, hostInput := none } ∧
           u.fget .entReqSince F.entReqSince_REQS = 0 ∧ u.reg .entReseeds = sat32 (s.reg .entReseeds) 1 ∧
           u.fget .entHostInput F.entHostInput_APPLIED = min 0xFFFF (s.fget .entHostInput F.entHostInput_APPLIED + 1) ∧
           Only { regs := fun r => cmdRegs r ∨ r = .entReqSince ∨ r = .entReseeds ∨ r = .entHostInput, parts := [.ent, .hif] } s u))) ∧
    (∀ ok, s.boot.commit = none → Answers (.flashProgramComplete ok) s fun u => u = s) ∧
    (∀ n, s.boot.commit = some n →
      let a := flash (flashRegion s 2).1
      (Answers (.flashProgramComplete true) s fun u => u.boot = { s.boot with commit := none, restartDue := true } ∧
        u.bytes a n = s.bytes (staging 0) n ∧ done 0 u ∧ rang u ∧
        Only { regs := (· = m), mem := fun b => a ≤ b ∧ b < a + n, parts := [.boot, .hif] } s u) ∧
      Answers (.flashProgramComplete false) s fun u => u.boot = { s.boot with commit := none, restartDue := false } ∧
        u.bytes a 4096 = List.replicate 4096 0xFF ∧ u.fget .bootStatus F.bootStatus_FW_ERR = 6 ∧ done 0 u ∧ rang u ∧
        Only { regs := fun r => r = m ∨ r = .bootStatus, mem := fun b => a ≤ b ∧ b < a + 4096, parts := [.boot, .hif] } s u) ∧
    (s.boot.restartDue = true → Answers .fwRestart s fun u => u.boot = { s.boot with restartDue := false, started := true } ∧
      bootPhase u = 1 ∧ inRecovery u = false ∧ u.flag .hifPolicy F.hifPolicy_FW = false ∧
      Only { regs := fun r => r = .bootStatus ∨ r = .glbStatus ∨ r = .hifPolicy, parts := [.boot] } s u) ∧
    (s.boot.restartDue = false → Answers .fwRestart s fun u => u = s) ∧
    (Powered s (.mbxEvt 0) →
      let words := match s.hif.events with | [] => [] | e :: _ => e.typ :: e.words
      Answers .mbxEvtPop s fun u => (∀ i : BitVec 3, u.reg (.mbxEvt i) = BitVec.ofNat 32 (words.getD i.toNat 0)) ∧
        u.out.read = BitVec.ofNat 32 (words.getD 0 0) ∧ u.hif = { s.hif with events := s.hif.events.drop 1 } ∧
        (u.flag m F.mbxStatus_EVT = true ↔ u.hif.events ≠ []) ∧ Only { regs := fun r => r = m ∨ ∃ i, r = .mbxEvt i, parts := [.hif, .out] } s u)

/-- The link, the function and BAR2 (R187, R251, R290, R316, R331, R332, R335, R339, R349, R350, R352, R410). -/
def Obligations.LinkEventsAndBar2WritesAct : Prop :=
  ∀ s : State, MemOk s → RegsOk s →
    let st : Reg := .hifStatus
    let up := s.hif.linkUp = true
    let still := s.echo.waiting = [] ∧ s.job.pauseQ = none ∧ s.job.phase ≠ .loading ∧ ∀ j, (s.slot j).loading = false
    let noJob := jobLoaded s = false ∨ s.flt.ended = true
    let hosted := s.echo.mode = 1 ∨ s.job.hostCkpt = true
    let later := allDone s = false ∨ s.job.phase ≠ .running ∨ s.job.ckptBusy = true ∨ s.job.digestBusy = true ∨ pauseBlocked s = true
    let ended (u : State) : Prop := u.fget .fltStatus F.fltStatus_OUTCOME = 3 ∧ u.fget .fltStatus F.fltStatus_STATE = 1 ∧
      u.job.phase = .frozen ∧ u.flt.ended = true ∧ u.flt.good = s.flt.good ∧ ∀ t, (u.tile t).mode = .run → (u.tile t).freezeReq = true
    let ends (regs : Reg → Prop) : Scope := { regs := fun r => regs r ∨ r = .fltStatus, tiles := fun _ => True, parts := [.hif, .flt, .job] }
    let aborts (u : State) : Prop := u.hif.pool = [] ∧ (∀ q < 64, (u.qp q).busy = none) ∧
      (∀ q < 64, ∀ c, (s.qp q).busy = some c → qOn s q = true →
        { queue := q, cid := c.cid, head := c.head, result0 := 0, code := 6, typ := 1 } ∈ (u.qp q).ready)
    let lost (u : State) : Prop := u.flag st F.hifStatus_LINK_LOST = true ∧ u.fget st F.hifStatus_WIDTH = 0 ∧ u.fget st F.hifStatus_RATE = 0 ∧
      u.hif.linkUp = false ∧ u.hif.transfers = [] ∧ aborts u ∧ u.flag .mbxStatus F.mbxStatus_EVT = true ∧
      u.hif.events = (withEvent s.hif 6 []).events
    let lostRegs (r : Reg) : Prop := r = st ∨ r = .mbxStatus
    let reset (u : State) : Prop := u.hif.queues = [] ∧ u.hif.ringNext = [] ∧ u.hif.bar2Size = 0x10000000 ∧ u.hif.linkUp = true ∧
      u.pwr = { s.pwr with d3hot := false } ∧ (∀ q : BitVec 6, qOn u q.toNat = false) ∧ ∀ g, u.flag (.dmaCfg g) F.dmaCfg_EN = false
    let funRegs (r : Reg) : Prop := (∃ q, r = .qCfg q) ∨ ∃ g, r = .dmaCfg g
    (s.hif.linkUp = false → Answers .linkDown s fun u => u = s) ∧
    ((∀ r ∈ s.hif.pool, r.queue < 64) → up → still →
      (noJob → Answers .linkDown s fun u => lost u ∧ Only { regs := lostRegs, parts := [.hif] } s u) ∧
      (¬ noJob → hosted → Answers .linkDown s fun u => lost u ∧ ended u ∧ Only (ends lostRegs) s u) ∧
      (¬ noJob → ¬ hosted → later → Answers .linkDown s fun u => lost u ∧ u.hif.linkPause = true ∧
        u.job = { s.job with pauseAt := some (topStep s + 1) } ∧ Only { regs := lostRegs, parts := [.hif, .job] } s u)) ∧
    (s.hif.linkPause = false → Answers .linkLossPauseTimeout s fun u => u = s) ∧
    (s.hif.linkPause = true → s.job.phase = .running ∨ s.job.phase = .frozen → Answers .linkLossPauseTimeout s fun u =>
      u.hif = Hif.signalled { s.hif with linkPause := false } 1 ∧ u.job.pauseAt = none ∧ ended u ∧ Only (ends fun _ => False) s u) ∧
    (s.hif.linkPause = true → s.job.phase ≠ .running → s.job.phase ≠ .frozen → Answers .linkLossPauseTimeout s fun u =>
      u.hif = { s.hif with linkPause := false } ∧ Only { parts := [.hif] } s u) ∧
    (∀ width rate,
      (up ∨ s.pins.perstN = false → Answers (.linkReturn width rate) s fun u => u = s) ∧
      (¬ up → s.pins.perstN = true → Answers (.linkReturn width rate) s fun u => reset u ∧
        u.fget st F.hifStatus_WIDTH = width % 16 ∧ u.fget st F.hifStatus_RATE = rate % 16 ∧
        u.flag st F.hifStatus_LINK_LOST = s.flag st F.hifStatus_LINK_LOST ∧
        Only { regs := fun r => r = st ∨ funRegs r, parts := [.hif, .pwr] } s u)) ∧
    (¬ up → Answers .flr s fun u => u = s) ∧
    (let quiet (q : Nat) := (s.qp q).busy = none ∧ (s.qp q).ready = []
     (up → still → s.hif.pool = [] → (∀ q < 64, quiet q) →
      (noJob → Answers .flr s fun u => reset u ∧ u.hif.transfers = [] ∧ Only { regs := funRegs, parts := [.hif, .pwr] } s u) ∧
      (¬ noJob → hosted → Answers .flr s fun u => reset u ∧ ended u ∧
        Only { ends funRegs with parts := [.hif, .flt, .job, .pwr] } s u) ∧
      (¬ noJob → ¬ hosted → later → Answers .flr s fun u => reset u ∧ u.hif.linkPause = true ∧
        u.job = { s.job with pauseAt := some (topStep s + 1) } ∧ Only { regs := funRegs, parts := [.hif, .job, .pwr] } s u)) ∧
     (∀ (q : BitVec 6) c, up → still → s.hif.pool = [] → (∀ k < 64, k ≠ q.toNat → quiet k) → noJob → (s.qp q.toNat).busy = some c →
      (s.qp q.toNat).ready = [] → qOn s q.toNat = true → cqRoom s q = true → Answers .flr s fun u =>
        let a := hostMem (s.pair (.qCqbaseLo q) (.qCqbaseHi q) + 16 * (s.qp q.toNat).cqTail)
        reset u ∧ u.bytes a 16 = Completion.bytes
          { queue := q.toNat, cid := c.cid, head := c.head, result0 := 0, code := 6, typ := 1 } (s.qp q.toNat).phase ∧
        Only { regs := funRegs, mem := fun b => a ≤ b ∧ b < a + 16, parts := [.hif, .pwr] } s u)) ∧
    (∀ ms n,
      (¬ up → Answers (.configRequest ms n) s fun u => u = s) ∧
      (up → ms < 100 ∨ n < 28 ∨ 41 < n → Answers (.configRequest ms n) s fun u =>
        u.out = { s.out with configRetry := decide (ms < 100) } ∧ Only { parts := [.out] } s u) ∧
      (up → 100 ≤ ms → 28 ≤ n → n ≤ 41 → Answers (.configRequest ms n) s fun u =>
        u.out = { s.out with configRetry := false } ∧ u.hif = { s.hif with bar2Size := 2 ^ n } ∧
        u.pair .hifBar2BaseLo .hifBar2BaseHi = s.pair .hifBar2BaseLo .hifBar2BaseHi / 2 ^ n * 2 ^ n % 2 ^ 41 ∧
        Only { regs := fun r => r = .hifBar2BaseLo ∨ r = .hifBar2BaseHi, parts := [.hif, .out] } s u)) ∧
    (∀ off bytes,
      let n := bytes.length
      let a := s.pair .hifBar2BaseLo .hifBar2BaseHi + off
      let arrives := up ∧ pstate s < 4 ∧ off + n ≤ s.hif.bar2Size ∧ bytes ≠ []
      let open_ := arrives ∧ bar2On s = true
      let here (b : Nat) : Prop := hbm a ≤ b ∧ b < hbm a + n
      let stored (u : State) : Prop := u.bytes (hbm a) n = bytes ∧ ∀ g, tget u.hif.gens 0 g = tget s.hif.gens 0 g +
        if a / 2 ^ 30 ≤ g ∧ g ≤ (a + n - 1) / 2 ^ 30 then 1 else 0
      let asked := (s.flt.rebuild.any fun r => decide (r.1 ≤ a) && decide (a + n ≤ r.1 + r.2)) = true
      let met := slotsMet s a n
      let inUse := (met.any (slotInUse s)) = true
      let kept := jobLoaded s = true ∧ ∃ r ∈ s.job.img.regions, meets a n r.base r.len = true ∧ r.kind ≠ 0 ∧ r.kind ≠ 2
      (¬ arrives → Answers (.bar2Write off bytes) s fun u => u = s) ∧
      (arrives → bar2On s = false → Answers (.bar2Write off bytes) s fun u =>
        u.fget .offCount F.offCount_COUNT = min (2 ^ 31 - 1) (s.fget .offCount F.offCount_COUNT + 1) ∧
        u.fget (.offAddr 0) F.offAddr_OFFSET = off % 2 ^ 26 ∧ u.flag (.offAddr 0) F.offAddr_WRITE = true ∧
        u.flag (.offAddr 0) F.offAddr_SRC = false ∧
        (∀ i < 7, u.reg (.offAddr (BitVec.ofNat 3 (i + 1))) = s.reg (.offAddr (BitVec.ofNat 3 i))) ∧
        Only { regs := fun r => r = .offCount ∨ ∃ i, r = .offAddr i } s u) ∧
      (open_ → rangeInHbm s a n = false → Answers (.bar2Write off bytes) s fun u =>
        BitSet .hifErr F.hifErr_HOLE s u ∧ Only { regs := (· = .hifErr) } s u) ∧
      (open_ → rangeInHbm s a n = true →
        (asked → Answers (.bar2Write off bytes) s fun u => stored u ∧ Only { mem := here, parts := [.hif] } s u) ∧
        (¬ asked → inUse → Answers (.bar2Write off bytes) s fun u =>
          (∀ j ∈ met, slotInUse s j = true → u.reg (.imgWrdrop j) = sat32 (s.reg (.imgWrdrop j)) 1) ∧
          Only { regs := fun r => ∃ j ∈ met, slotInUse s j = true ∧ r = .imgWrdrop j } s u) ∧
        (¬ asked → ¬ inUse → kept → Answers (.bar2Write off bytes) s fun u =>
          u.reg .hifBar2Wrdrop = sat32 (s.reg .hifBar2Wrdrop) 1 ∧ Only { regs := (· = .hifBar2Wrdrop) } s u) ∧
        (¬ asked → ¬ inUse → ¬ kept → Answers (.bar2Write off bytes) s fun u => stored u ∧
          (∀ j ∈ met, u.slot j.toNat = {} ∧ u.reg (.imgStatus j) = 0) ∧ (∀ j, j ∉ met → u.slot j.toNat = s.slot j.toNat) ∧
          (∀ j ∈ met, ∀ c, (s.slot j.toNat).loading = true → (s.qp (s.slot j.toNat).queue).busy = some c → c.opc = 1 →
            c.cid = (s.slot j.toNat).cid → (u.qp (s.slot j.toNat).queue).busy = none ∧ (qOn s (s.slot j.toNat).queue = true →
            { queue := (s.slot j.toNat).queue, cid := c.cid, head := c.head, result0 := 0, code := 6, typ := 1 } ∈
              (u.qp (s.slot j.toNat).queue).ready)) ∧
          Only { regs := fun r => ∃ j ∈ met, r = .imgStatus j, mem := here, parts := [.hif, .slots] } s u)))

/-- Ports, LLDP, HELLO and retransmission (R354-R356, R358-R361, R363, R367, R372, R378, R379, R427). -/
def Obligations.PortsAndHellosAct : Prop :=
  ∀ s : State, MemOk s → RegsOk s →
    let lanes := if s.net.cfg1600 then 8 else 4
    let tlv (p : BitVec 4) : Tlv := {
      ident := leAt (deviceId s) 0 16, verMin := s.fget .bxtCfg F.bxtCfg_VER_MIN, verMax := s.fget .bxtCfg F.bxtCfg_VER_MAX,
      nsvMin := s.fget .imgNsv F.imgNsv_MIN, nsvMax := s.fget .imgNsv F.imgNsv_MAX, port := p.toNat, cfg := b2n s.net.cfg1600,
      addr := ownAddr s, pod := s.net.podId }
    let known := Live s ∨ s.job.phase = .none
    let event (rank code : Nat) (u : State) : Prop :=
      u.fget .bxtEvents F.bxtEvents_ALL = min 0xFFFF (s.fget .bxtEvents F.bxtEvents_ALL + 1) ∧
      u.fget .bxtEvents F.bxtEvents_LOST = s.fget .bxtEvents F.bxtEvents_LOST ∧ u.flag .mbxStatus F.mbxStatus_EVT = true ∧
      u.hif = (withEvent s.hif 5 [rank, code]).signalled 3 ∧
      (Live s → Logged { typ := 13, agent := rank, aux := code } s u) ∧ (s.job.phase = .none → u.echo = s.echo ∧ u.job = s.job)
    let evRegs (r : Reg) : Prop := r = .bxtEvents ∨ r = .mbxStatus ∨ echoRegs r
    let evParts : List Part := [.net, .hif, .job, .echo]
    let again (k : Nat) (f : Frame) (p : Nat) : Frame := dress s p (rosterAddr s k) { f with flags := f.flags ||| 2 }
    (∀ (p : BitVec 4), let r : Reg := .bxtPortStatus p
      let up := s.flag r F.bxtPortStatus_UP = true
      let runs (n : Nat) (u : State) : Prop := u.flag r F.bxtPortStatus_UP = true ∧ u.fget r F.bxtPortStatus_LANES = n ∧
        u.fget r F.bxtPortStatus_RATE = match n with | 8 => 3 | 4 => 2 | _ => 1
      let half (bad : Nat) := bad % 2 ^ (lanes / 2) = 0 ∨ bad / 2 ^ (lanes / 2) = 0
      let told (u : State) : Prop := u.net = { s.net with lldp := s.net.lldp ++ [tlv p] }
      let right (n : Bexir) : Bexir := { n with miscabled := n.miscabled.filter (· ≠ p.toNat) }
      let left := (portsUp s).filter (· ≠ p.toNat)
      let loses (i : Instr) (bad : Nat) : Prop :=
        let down (u : State) : Prop := u.fget r F.bxtPortStatus_LANE_FAIL = bad ∧ u.flag r F.bxtPortStatus_UP = false ∧
          u.fget r F.bxtPortStatus_LANES = 0 ∧ u.fget r F.bxtPortStatus_RATE = 0
        let ptp := { s.net.ptp with best := s.net.ptp.best.filter fun m => m.2.2 ≠ p.toNat }
        (otherRanks s = [] → Answers i s fun u => down u ∧ u.net = { s.net with ptp } ∧ Only { regs := (· = r), parts := [.net] } s u) ∧
        (∀ k q f, otherRanks s = [k] → s.net.outgoing = [] → s.net.unacked = [f] → f.dst = k → left[k % left.length]? = some q →
          Answers i s fun u => down u ∧ u.net = { s.net with ptp, sent := s.net.sent ++ [again k f q] } ∧
            u.reg (.bxtPortRetx (BitVec.ofNat 4 q)) = sat32 (s.reg (.bxtPortRetx (BitVec.ofNat 4 q))) 1 ∧
            Only { regs := fun x => x = r ∨ x = .bxtPortRetx (BitVec.ofNat 4 q), parts := [.net] } s u)
      (∀ failed, ¬ (ethOn s = true ∧ portInUse s p = true) → Answers (.portLinkUp p failed) s fun u => u = s) ∧
      (∀ failed, ethOn s = true → portInUse s p = true →
        let bad := failed % 2 ^ lanes
        (half bad → Answers (.portLinkUp p failed) s fun u => u.fget r F.bxtPortStatus_LANE_FAIL = bad ∧
          u.net = { right s.net with lldp := s.net.lldp ++ [tlv p] } ∧ runs (if bad = 0 then lanes else lanes / 2) u ∧
          Only { regs := (· = r), parts := [.net] } s u) ∧
        (¬ half bad → loses (.portLinkUp p failed) bad)) ∧
      (∀ lane, ¬ up → Answers (.portDownrate p lane) s fun u => u = s) ∧
      (∀ lane < lanes, up →
        let bad := s.fget r F.bxtPortStatus_LANE_FAIL ||| 2 ^ lane
        (half bad → Answers (.portDownrate p lane) s fun u => u.fget r F.bxtPortStatus_LANE_FAIL = bad ∧ runs (lanes / 2) u ∧
          Only { regs := (· = r) } s u) ∧
        (¬ half bad → loses (.portDownrate p lane) bad)) ∧
      (up → Answers (.lldpTransmit p) s fun u => told u ∧ Only { parts := [.net] } s u) ∧
      (¬ up → Answers (.lldpTransmit p) s (fun u => u = s) ∧ ∀ x preempt, Answers (.lldp p x preempt) s fun u => u = s) ∧
      (∀ preempt, up → Answers (.lldp p none preempt) s fun u => u.flag r F.bxtPortStatus_PREEMPT = preempt ∧
        u.flag r F.bxtPortStatus_CORKOR = false ∧ u.net = right s.net ∧ Only { regs := (· = r), parts := [.net] } s u) ∧
      (∀ preempt x, up →
        let met (u : State) : Prop := u.flag r F.bxtPortStatus_PREEMPT = preempt ∧ u.flag r F.bxtPortStatus_CORKOR = true ∧
          ∀ i : BitVec 2, u.reg (.bxtPartnerId p i) = BitVec.ofNat 32 (x.ident / 2 ^ (32 * i.toNat))
        let regs (q : Reg) : Prop := q = r ∨ ∃ i, q = .bxtPartnerId p i
        let cabled := s.net.miscabled.contains p.toNat = true
        (x.pod = s.net.podId → Answers (.lldp p (some x) preempt) s fun u => met u ∧
          u.net = right s.net ∧ Only { regs, parts := [.net] } s u) ∧
        (x.pod ≠ s.net.podId → cabled → Answers (.lldp p (some x) preempt) s fun u => met u ∧ Only { regs } s u) ∧
        (x.pod ≠ s.net.podId → ¬ cabled → known → Answers (.lldp p (some x) preempt) s fun u => met u ∧ event 0xFFFF 6 u ∧
          u.net = { s.net with miscabled := p.toNat :: s.net.miscabled } ∧
          Only { regs := fun q => regs q ∨ evRegs q, mem := echoSlot s, parts := evParts } s u))) ∧
    (let asks (use : DrbgUse) (u : State) : Prop :=
       u.ent = { s.ent with waiting := s.ent.waiting ++ [{ bits := 512, use }] } ∧ u.fget .entStatus F.entStatus_WAITING = s.ent.waiting.length + 1
     let ready := s.ent.alarm = false ∧ s.flt.mcAbsent = false ∧ s.ent.mcQueue = [] ∧ s.ent.waiting.length < 64
     let speaks := ethOn s = true ∧ hostLink s = false ∧ hasIdentity s = true ∧ seeksPeers s = true
     (¬ speaks ∨ s.ent.alarm = true → Answers .helloTransmit s fun u => u = s) ∧
     (speaks → ready → Answers .helloTransmit s fun u => asks (.hello none 0) u ∧ Only { regs := (· = .entStatus), parts := [.ent] } s u) ∧
     (speaks → s.ent.alarm = false → s.flt.mcAbsent = true → Answers .helloTransmit s fun u =>
       u.ent = { s.ent with mcQueue := s.ent.mcQueue ++ [{ bits := 512, use := .hello none 0 }] } ∧ Only { parts := [.ent] } s u) ∧
     (∀ f chain a,
       let here := ethOn s = true ∧ heard s f = true ∧ f.typ = 1
       let sealed := f.crc = f.sum ∧ f.tag = 0
       let awake := pstate s = 0 ∧ s.pwr.req = none
       let ver := min (leAt f.payload 1 1) (s.fget .bxtCfg F.bxtCfg_VER_MAX)
       let ev := f.payload.drop 38
       let good := max (leAt f.payload 0 1) (s.fget .bxtCfg F.bxtCfg_VER_MIN) ≤ ver ∧ evidenceOk ev = true ∧ chain = true
       let nonce := leAt f.payload 6 32
       (¬ here → Answers (.hello f chain a) s fun u => u = s) ∧
       (here → ¬ sealed → Answers (.hello f chain a) s fun u =>
         let c : Reg := .bxtPortDrop (BitVec.ofNat 4 f.port)
         u.reg c = sat32 (s.reg c) 1 ∧ Only { regs := (· = c) } s u) ∧
       (here → awake → sealed → rankAt s f.addr = none → hostLink s = true ∨ s.job.phase ≠ .none →
         Answers (.hello f chain a) s fun u => u = s) ∧
       (here → awake → sealed → mayMeet s f.addr = true → ¬ good → Answers (.hello f chain a) s fun u => event 0xFFFF 4 u ∧ u.net = s.net ∧
         Only { regs := evRegs, parts := [.hif] } s u) ∧
       (here → awake → sealed → good → s.net.peers = [] → hostLink s = false → s.job.phase = .none → f.addr ≠ ownAddr s → Answers (.hello f chain a) s fun u =>
           let k := if leAt f.payload 54 16 < leAt (deviceId s) 0 16 then 0 else 1
           (u.peer k).addr = f.addr ∧ (∀ w < 4, u.reg (.bxtRoster (BitVec.ofNat 14 (4 * k + w))) = BitVec.ofNat 32 (f.addr / 2 ^ (32 * w)) ∧
             u.reg (.bxtRoster (BitVec.ofNat 14 (4 * (1 - k) + w))) = BitVec.ofNat 32 (ownAddr s / 2 ^ (32 * w))) ∧
           Only { regs := fun q => q = .entStatus ∨ ∃ i, q = .bxtRoster i, parts := [.net, .ent] } s u) ∧
       (∀ r, rankAt s f.addr = some r → here → awake → sealed →
         let p := s.peer r
         let mine := leAt ev 112 32 ≠ 0 ∧ (leAt ev 112 32 = p.sentNonce ∨ leAt ev 112 32 = s.net.helloNonce)
         let gone := p.lost = true ∨ p.left = true
         let taken := { p with ver, lastNonce := nonce, ident := leAt ev 16 16, addr := f.addr }
         let others (u : State) : Prop := (∀ k, k ≠ r → u.peer k = s.peer k) ∧ u.net = { s.net with peers := u.net.peers }
         (¬ good → known → Answers (.hello f chain a) s fun u => u.peer r = { p with hello := false } ∧ others u ∧ event r 4 u ∧
           Only { regs := evRegs, mem := echoSlot s, parts := evParts } s u) ∧
         (good → ¬ mine → ready → hasIdentity s = true → Answers (.hello f chain a) s fun u => u.peer r = taken ∧ others u ∧
           asks (.hello (some r) nonce) u ∧ Only { regs := (· = .entStatus), parts := [.net, .ent] } s u) ∧
         (good → mine → p.hello = true → ¬ gone → Answers (.hello f chain a) s fun u => u.peer r = taken ∧ others u ∧
           Only { parts := [.net] } s u) ∧
         (good → mine → p.hello = false → ¬ gone → s.job.phase ≠ .loading → ready → hasIdentity s = true →
           Answers (.hello f chain a) s fun u => u.peer r = { taken with hello := true } ∧ others u ∧ asks (.hello (some r) nonce) u ∧
             Only { regs := (· = .entStatus), parts := [.net, .ent] } s u) ∧
         (good → mine → gone → known → (∀ x ∈ s.flt.cur, x.code ≠ 0) → ready → hasIdentity s = true → Answers (.hello f chain a) s fun u =>
           u.peer r = { taken with hello := true, lost := false, left := false } ∧ others u ∧ event r 5 u ∧
           asks (.hello (some r) nonce) u ∧
           Only { regs := fun q => evRegs q ∨ q = .entStatus, mem := echoSlot s, parts := .ent :: evParts } s u)))) ∧
    (∀ k ch,
      (∀ express, s.job.phase = .none → Answers (.retransmitTimeout k ch express) s fun u => u = s) ∧
      (∀ q, s.job.phase ≠ .none → portFor s k = some q →
        let c : Reg := .bxtPortRetx (BitVec.ofNat 4 q)
        let went (fs : List Frame) (u : State) : Prop := u.net = { s.net with sent := s.net.sent ++ fs } ∧ u.reg c = sat32 (s.reg c) fs.length ∧
          Only { regs := (· = c), parts := [.net] } s u
        Answers (.retransmitTimeout k ch true) s (went ((s.net.unacked.filter fun f => f.dst = k).map fun f => again k f q)) ∧
        (∀ o last, s.net.outgoing = [o] → o.channel = ch → tfind o.last k = some last →
          let bs := regionBytes s o.region
          let n := fragCount bs.length
          let first := last + 1 - n
          Answers (.retransmitTimeout k ch false) s (went (((List.range n).filter fun i => decide ((s.chan k ch).acked ≤ first + i)).map fun i =>
            again k (jobFrame s k (if ch.testBit 15 then 3 else 2) (4 * b2n (i + 1 = n)) ch (first + i) (fragment o.region bs i)) q)))))

/-- Frames of the running job and membership (R230, R295, R357, R358, R361-R367, R369, R372, R373, R380). -/
def Obligations.FramesOfTheJobAct : Prop :=
  ∀ s : State, MemOk s → RegsOk s → Settled s →
    let time (r : Reg) : Prop := r = .ptpTimeLo ∨ r = .ptpTimeHi
    let timed (now : U64) (u : State) : Prop := u.pair .ptpTimeLo .ptpTimeHi = now.toNat
    let counted (c : BitVec 13) (u : State) : Prop := (u.reg (.syncCnt c)).toNat = (s.reg (.syncCnt c)).toNat + 1
    let mayCount (c : BitVec 13) := (s.reg (.syncCnt c)).toNat + 1 < 2 ^ 32 ∧ tget s.echo.given 0 c.toNat = 0 ∧
      (s.net.ghosts = [] ∨ (s.net.barriers.any fun b => b.desc.ext = c.toNat && s.net.closing.contains b.desc.counter) = false)
    let answer (f : Frame) (typ ch ack : Nat) (payload : List Byte) : List Frame := match portFor s f.src with
      | none => []
      | some port => [dress s port (rosterAddr s f.src) { jobFrame s f.src typ 1 ch 0 payload with ack }]
    let comes (f : Frame) := ethOn s = true ∧ heard s f = true
    let ours (f : Frame) (typ : Nat) := frameOk s f = true ∧ f.typ = typ ∧ s.job.phase ≠ .none ∧ (s.peer f.src).hello = true
    let dropped (f : Frame) (u : State) : Prop := let c : Reg := .bxtPortDrop (BitVec.ofNat 4 f.port); u.reg c = sat32 (s.reg c) 1
    let dropRegs (f : Frame) (r : Reg) : Prop := r = .bxtPortDrop (BitVec.ofNat 4 f.port)
    let chansBut (q : Nat × Nat) (u : State) : Prop := ∀ r ch, (r, ch) ≠ q → u.chan r ch = s.chan r ch
    (∀ (typ : Nat) (f : Frame), typ = 2 ∨ typ = 3 →
      let i : Instr := if typ = 2 then .data f else .mcast f
      let ch := localChan f
      let c := s.chan f.src ch
      let told := { c with
        acked := max c.acked f.ack,
        credit := if (f.credit + 2 ^ 16 - c.credit) % 2 ^ 16 < 2 ^ 15 then f.credit else c.credit }
      let body := f.payload.drop 16
      let last := f.flags.testBit 2 = true
      let ack (n : Nat) := answer f 2 ch n []
      (¬ comes f → Answers i s fun u => u = s) ∧
      (comes f → ¬ ours f typ → Answers i s fun u => dropped f u ∧ Only { regs := dropRegs f } s u) ∧
      (comes f → ours f typ → s.net.outgoing = [] →
        (ackOnly f = true ∨ c.rxNext < f.seq ∨ (f.seq = c.rxNext ∧ arrivalFor s f.src ch = none) → Answers i s fun u =>
          u.chan f.src ch = told ∧ chansBut (f.src, ch) u ∧ u.net = { s.net with chans := u.net.chans } ∧ Only { parts := [.net] } s u) ∧
        (ackOnly f = false → f.seq < c.rxNext → Answers i s fun u => u.chan f.src ch = told ∧ chansBut (f.src, ch) u ∧
          u.net = { s.net with chans := u.net.chans, sent := s.net.sent ++ ack c.rxNext } ∧ Only { parts := [.net] } s u) ∧
        (∀ a, ackOnly f = false → f.seq = c.rxNext → arrivalFor s f.src ch = some a → ¬ last → Answers i s fun u =>
          u.chan f.src ch = { told with rxNext := f.seq + 1 } ∧ chansBut (f.src, ch) u ∧
          u.net = { s.net with
            chans := u.net.chans, sent := s.net.sent ++ ack (f.seq + 1),
            arrivals := s.net.arrivals.map fun b => if b = a then { a with src := some f.src, got := a.got ++ [(leAt f.payload 8 8, body)] } else b } ∧
          Only { parts := [.net] } s u) ∧
        (∀ a r, ackOnly f = false → f.seq = c.rxNext → arrivalFor s f.src ch = some a → last → a.got = [] → leAt f.payload 8 8 = 0 →
          a.async = false → regionOf s a.region = some r → isXchgRegion s a.region = false →
          let landed_ (u : State) : Prop := u.chan f.src ch = { told with rxNext := f.seq + 1, arrived := c.arrived + 1 } ∧
            chansBut (f.src, ch) u ∧
            u.net = { s.net with chans := u.net.chans, sent := s.net.sent ++ ack (f.seq + 1), arrivals := s.net.arrivals.erase a }
          (body.length ≠ r.len → Answers i s fun u => landed_ u ∧ Faulted { code := 0x95 } s u ∧ (jobLoaded s = true → Stopping u) ∧
            Only (faultScope (fun _ => False) [.net]) s u) ∧
          (∀ k : BitVec 13, body.length = r.len → a.counter = some k.toNat → Live s → Room 2 s → mayCount k →
            (∀ b, hbm r.base ≤ b ∧ b < hbm r.base + r.len → ¬ echoSlots 2 s b) → Answers i s fun u =>
              landed_ u ∧ counted k u ∧ u.bytes (hbm r.base) r.len = body ∧ (∃ p ∈ u.job.written, p.1 = a.region) ∧
              LoggedAll [{ typ := 6, agent := f.src + 2 ^ 16 * ch, aux := f.seq, len := r.len, payload := digestNum body },
                { typ := 7, agent := k.toNat, aux := 1 }] s u ∧
              Only { regs := fun q => echoRegs q ∨ q = .syncCnt k, mem := fun b => echoSlots 2 s b ∨ (hbm r.base ≤ b ∧ b < hbm r.base + r.len),
                     parts := [.net, .job, .echo] } s u))) ∧
      (∀ o l (k : BitVec 13), comes f → ours f typ → s.net.outgoing = [o] → o.unsent = [] → o.targets = [f.src] → o.channel = ch →
        tfind o.last f.src = some l → l < told.acked → o.counter = some k.toNat → s.net.barriers = [] → ackOnly f = true →
        Live s → mayCount k → Answers i s fun u => u.chan f.src ch = told ∧ u.net.outgoing = [] ∧ counted k u ∧
          Logged { typ := 7, agent := k.toNat, aux := 1 } s u ∧
          Only { regs := fun q => echoRegs q ∨ q = .syncCnt k, mem := echoSlot s, parts := [.net, .job, .echo] } s u)) ∧
    (∀ (typ : Nat) (f : Frame) (now : U64), typ = 4 ∨ typ = 5 →
      let i : Instr := if typ = 4 then .barrier f now else .release f now
      let bid := leAt f.payload 0 4
      let round := leAt f.payload 4 4
      let ackFrame := answer f typ 0 (s.chan f.src 0).rxNext f.payload
      (¬ comes f → Answers i s fun u => timed now u ∧ Only { regs := time } s u) ∧
      (comes f → ¬ ours f typ → Answers i s fun u => timed now u ∧ dropped f u ∧ Only { regs := fun r => time r ∨ dropRegs f r } s u) ∧
      (comes f → ours f typ → ackOnly f = true → Answers i s fun u => timed now u ∧
        u.net = { s.net with unacked := s.net.unacked.filter fun g => !(g.dst = f.src && g.typ = f.typ && g.payload = f.payload) } ∧
        Only { regs := time, parts := [.net] } s u) ∧
      (∀ b, comes f → ours f typ → ackOnly f = false → s.net.barriers = [b] → b.desc.id = bid → b.done < round →
        (typ = 4 → (∃ r < s.job.count, (r, round) ≠ (f.src, round) ∧ b.held.contains (r, round) = false) → Answers i s fun u =>
          timed now u ∧ u.net = { s.net with
            sent := s.net.sent ++ ackFrame,
            barriers := [{ b with held := if b.held.contains (f.src, round) then b.held else (f.src, round) :: b.held }] } ∧
          Only { regs := time, parts := [.net] } s u) ∧
        (typ = 4 → s.job.count = 2 → s.job.rank < 2 → f.src = 1 - s.job.rank → b.held.contains (s.job.rank, round) = true →
          (∀ p ∈ b.releases, p.1 ≠ round) → s.flag .ptpStatus F.ptpStatus_LOCK = true → Answers i s fun u =>
            let t := now.toNat + relMargin s
            timed now u ∧ (∃ g ∈ u.net.unacked, g.dst = f.src ∧ g.typ = 5 ∧ g.payload = leBytes 4 bid ++ leBytes 4 round ++ leBytes 8 t) ∧
            u.net.barriers.map (fun x => (x.releases, x.done)) = [(b.releases ++ [(round, t)], b.done)] ∧
            Only { regs := time, parts := [.net] } s u) ∧
        (typ = 5 → (∀ p ∈ b.releases, p.1 ≠ round) → s.flag .ptpStatus F.ptpStatus_LOCK = true → now.toNat < leAt f.payload 8 8 →
          Answers i s fun u => timed now u ∧ u.net = { s.net with
            sent := s.net.sent ++ ackFrame, barriers := [{ b with releases := b.releases ++ [(round, leAt f.payload 8 8)] }] } ∧
            Only { regs := time, parts := [.net] } s u) ∧
        (∀ k : BitVec 13, typ = 5 → (∀ p ∈ b.releases, p.1 ≠ round) →
          s.flag .ptpStatus F.ptpStatus_LOCK = false ∨ leAt f.payload 8 8 ≤ now.toNat → b.desc.ext = k.toNat → Live s → mayCount k →
          Answers i s fun u => timed now u ∧ u.net = { s.net with sent := s.net.sent ++ ackFrame, barriers := [{ b with done := round }] } ∧
            u.reg .bxtRelLate = sat32 (s.reg .bxtRelLate) 1 ∧ counted k u ∧ Logged { typ := 7, agent := k.toNat, aux := 1 } s u ∧
            Only { regs := fun r => time r ∨ echoRegs r ∨ r = .bxtRelLate ∨ r = .syncCnt k, mem := echoSlot s,
                   parts := [.net, .job, .echo] } s u))) ∧
    (∀ bid, (∀ b, s.net.barriers.find? (fun b => b.desc.id = bid) = some b → b.releases = []) → Answers (.releaseTimeReached bid) s fun u => u = s) ∧
    (∀ bid b p ps (k : BitVec 13), s.net.barriers = [b] → b.desc.id = bid → b.releases = p :: ps → b.desc.ext = k.toNat → Live s →
      mayCount k → p.2 < 2 ^ 64 → Answers (.releaseTimeReached bid) s fun u => u.pair .ptpTimeLo .ptpTimeHi = p.2 ∧
        u.net = { s.net with barriers := [{ b with done := p.1, releases := b.releases.filter fun x => x.1 ≠ p.1 }] } ∧
        counted k u ∧ Logged { typ := 7, agent := k.toNat, aux := 1 } s u ∧
        Only { regs := fun r => time r ∨ echoRegs r ∨ r = .syncCnt k, mem := echoSlot s, parts := [.net, .job, .echo] } s u) ∧
    (let event (code : Nat) (u : State) : Prop :=
       u.fget .bxtEvents F.bxtEvents_ALL = min 0xFFFF (s.fget .bxtEvents F.bxtEvents_ALL + 1) ∧
       u.fget .bxtEvents F.bxtEvents_LOST = min 0xFFFF (s.fget .bxtEvents F.bxtEvents_LOST + b2n (decide (code = 3))) ∧
       u.flag .mbxStatus F.mbxStatus_EVT = true
     let told (rank code : Nat) (u : State) : Prop := event code u ∧ u.hif = (withEvent s.hif 5 [rank, code]).signalled 3
     let evRegs (r : Reg) : Prop := r = .bxtEvents ∨ r = .mbxStatus
     let awake := pstate s = 0 ∧ s.pwr.req = none
     let refused (u : State) : Prop := u.job = { jobId := s.job.jobId } ∧ u.net.waitJoin = false ∧
       (∀ c, (s.qp s.job.queue).busy = some c → Completed s.job.queue c 0 0x71 0 s u)
     let out (r code : Nat) (u : State) : Prop := event code u ∧ Logged { typ := 13, agent := r, aux := code } s u ∧
       u.peer r = { s.peer r with
         lost := (s.peer r).lost || decide (code = 3), left := (s.peer r).left || decide (code = 2), joined := false }
     let goneNow (r code : Nat) (u : State) : Prop := out r code u ∧ u.hif = (withEvent s.hif 5 [r, code]).signalled 3 ∧
       (s.flt.ended = false → s.job.alone = false → Faulted { code := 0, loc := r } s u ∧ Stopping u)
     let ended (h : Hif) (u : State) : Prop := u.fget .fltStatus F.fltStatus_OUTCOME = 4 ∧ u.fget .fltStatus F.fltStatus_STATE = 1 ∧
       u.job.phase = .frozen ∧ u.flt.ended = true ∧ u.flt.cur = [] ∧ u.flt.pending = [] ∧ u.hif = h.signalled 1 ∧ Stopping u
     let present := s.flt.mcAbsent = false
     let goneScope : Scope := {
       regs := fun r => evRegs r ∨ echoRegs r ∨ r = .fltStatus, tiles := fun _ => True, mem := echoSlot s,
       parts := [.net, .hif, .job, .echo, .flt] }
     (∀ f now,
       let mine := comes f ∧ ours f 6 ∧ ackOnly f = false ∧ awake
       (¬ comes f → Answers (.member f now) s fun u => u = s) ∧
       (comes f → ¬ ours f 6 → Answers (.member f now) s fun u => dropped f u ∧ Only { regs := dropRegs f } s u) ∧
       (mine → ¬ present → Answers (.member f now) s fun u => u.net = { s.net with
         sent := s.net.sent ++ answer f 6 0 (s.chan f.src 0).rxNext f.payload, mcFrames := s.net.mcFrames ++ [f] } ∧
         Only { parts := [.net] } s u) ∧
       (mine → present → leAt f.payload 0 1 = 1 → s.job.phase = .loading →
         let right := f.src ≠ s.job.rank ∧ (s.peer f.src).addr = f.addr ∧ (leAt f.payload 8 2 = s.job.img.hdr.nsv ∨ s.job.img.hdr.cls = 2) ∧
           leAt f.payload 12 2 = s.job.count ∧ leAt f.payload 14 32 = s.job.img.hdr.logical
         (right → (s.peer f.src).joined = false → Answers (.member f now) s fun u => told f.src 1 u ∧
           u.peer f.src = { s.peer f.src with joined := true, nsv := leAt f.payload 8 2, left := false } ∧
           (∀ k, k ≠ f.src → u.peer k = s.peer k) ∧ Only { regs := evRegs, parts := [.net, .hif] } s u) ∧
         (rankClash s f = true → s.job.standing = false → Answers (.member f now) s fun u => refused u ∧
           Only { regs := fun r => loadResults r = true, parts := [.net, .hif, .job] } s u)) ∧
       (mine → present → leAt f.payload 0 1 = 2 → (s.peer f.src).left = true → Answers (.member f now) s fun u => Only { parts := [.net] } s u) ∧
       (mine → present → leAt f.payload 0 1 = 2 → (s.peer f.src).left = false → Live s →
         (s.net.recovering = false → orderlyEnd s = false → Answers (.member f now) s fun u => goneNow f.src 2 u ∧ Only goneScope s u) ∧
         (s.net.recovering = false → orderlyEnd s = true → Answers (.member f now) s fun u => out f.src 2 u ∧
           u.hif = (withEvent s.hif 5 [f.src, 2]).signalled 3 ∧
           Only { regs := fun r => evRegs r ∨ echoRegs r, mem := echoSlot s, parts := [.net, .hif, .job, .echo] } s u) ∧
         (s.net.recovering = true → s.flt.ended = false → Answers (.member f now) s fun u => out f.src 2 u ∧
           ended ((withEvent s.hif 5 [f.src, 2]).signalled 3) u ∧ Only goneScope s u))) ∧
     (∀ r, (s.job.phase = .none ∨ awaitsAck s r = false ∨ (s.peer r).lost = true → Answers (.memberLostTimeout r) s fun u => u = s) ∧
       (awaitsAck s r = true → (s.peer r).lost = false → Live s → present → Answers (.memberLostTimeout r) s fun u =>
         goneNow r 3 u ∧ Only goneScope s u) ∧
       (awaitsAck s r = true → (s.peer r).lost = false → s.job.phase ≠ .none → ¬ present → s.net.mcLost.contains r = false →
         Answers (.memberLostTimeout r) s fun u => u.net = { s.net with mcLost := s.net.mcLost ++ [r] } ∧ Only { parts := [.net] } s u)) ∧
     (let waits := present ∧ s.job.phase = .loading ∧ s.net.waitJoin = true ∧ ((otherRanks s).all fun r => (s.peer r).joined) = false
      (¬ waits → Answers .joinTimeout s fun u => u = s) ∧
      (waits → s.job.standing = false → Answers .joinTimeout s fun u => refused u ∧ Only { regs := fun r => loadResults r = true, parts := [.net, .hif, .job] } s u)) ∧
     (∀ r, let gone := present ∧ (s.flt.cur.any fun f => f.code = 0 && f.loc = r) = true ∧ ((s.peer r).lost = true ∨ (s.peer r).left = true)
       (¬ gone → Answers (.rejoinTimeout r) s fun u => u = s) ∧
       (gone → Answers (.rejoinTimeout r) s fun u => ended s.hif u ∧ u.job = { s.job with phase := .frozen } ∧
         Only { regs := (· = .fltStatus), tiles := fun _ => True, parts := [.flt, .job, .hif] } s u)))

/-- ECHO_SYNC, PTP and PPS (R133, R134, R295, R320, R323, R371, R374, R375, R380, R455). -/
def Obligations.EchoSyncAndTimeAct : Prop :=
  ∀ s : State, MemOk s → RegsOk s →
    let eth := ethOn s = true
    let comes (f : Frame) := eth ∧ heard s f = true
    let present := s.flt.mcAbsent = false
    let ours (f : Frame) := frameOk s f = true ∧ f.typ = 7 ∧ s.job.phase ≠ .none ∧ (s.peer f.src).hello = true
    let right (sub : Nat) (root : Bool) (f : Frame) := syncSub f = sub ∧ (root = true → f.src = 0)
    let mine (sub : Nat) (root : Bool) (f : Frame) := right sub root f ∧ comes f ∧ ours f ∧ ackOnly f = false
    let taken (sub : Nat) (root : Bool) (f : Frame) := mine sub root f ∧ present
    let sent (dst sub : Nat) (body : List Byte) (u : State) : Prop :=
      ∃ g ∈ u.net.unacked, g.dst = dst ∧ g.typ = 7 ∧ g.payload = leBytes 8 sub ++ body
    let ended (u : State) : Prop := u.fget .fltStatus F.fltStatus_OUTCOME = 4 ∧ u.fget .fltStatus F.fltStatus_STATE = 1 ∧
      u.job = { s.job with phase := .frozen } ∧ u.flt.ended = true ∧ Stopping u ∧ u.hif = s.hif.signalled 1 ∧
      ∀ r ∈ otherRanks s, ∃ g ∈ u.net.unacked, g.dst = r ∧ g.typ = 6 ∧ g.payload = leBytes 8 2
    let ends (more : List Part) : Scope := { regs := (· = .fltStatus), tiles := fun _ => True, parts := [.net, .flt, .job] ++ more }
    let status (n : Nat) (u : State) : Prop := u.fget .fltStatus F.fltStatus_STATE = n
    let acks : Scope := { parts := [.net] }
    let asks (c : Copy) (u : State) : Prop := u.flt = { s.flt with need := some (c.gen, c.mirror, c.seq) } ∧ status 5 u ∧
      u.hif = withEvent s.hif 2 [c.seq, c.seq / 2 ^ 32] ∧ u.flag .mbxStatus F.mbxStatus_EVT = true ∧
      Only { regs := fun r => r = .fltStatus ∨ r = .mbxStatus, parts := [.net, .flt, .hif] } s u
    let idle := s.job.rank ≠ 0 ∨ s.net.recovering = false
    (∀ p ∈ [(1, true, Instr.echoSyncSeed), (2, false, Instr.echoSyncRecover), (3, false, Instr.ckptReport),
        (4, true, Instr.ckptChoice), (5, true, Instr.echoSyncResume)], ∀ f,
      (p.1 ≠ 4 ∨ ackOnly f = false → ¬ right p.1 p.2.1 f → Answers (p.2.2 f) s fun u => u = s) ∧
      (¬ eth → Answers (p.2.2 f) s fun u => u = s) ∧
      (¬ comes f → ackOnly f = false ∨ idle → Answers (p.2.2 f) s fun u => u = s) ∧
      (p.1 ≠ 4 → mine p.1 p.2.1 f → ¬ present → Answers (p.2.2 f) s fun u =>
        u.net.mcFrames = s.net.mcFrames ++ [f] ∧ u.net = { s.net with sent := u.net.sent, mcFrames := u.net.mcFrames } ∧ Only acks s u) ∧
      (right p.1 p.2.1 f → comes f → ¬ ours f → ackOnly f = false ∨ idle → Answers (p.2.2 f) s fun u =>
        let c : Reg := .bxtPortDrop (BitVec.ofNat 4 f.port)
        u.reg c = sat32 (s.reg c) 1 ∧ Only { regs := (· = c) } s u) ∧
      (right p.1 p.2.1 f → comes f → ours f → ackOnly f = true → idle → Answers (p.2.2 f) s fun u =>
        u.net = { s.net with unacked := s.net.unacked.filter fun g => !(g.dst = f.src && g.typ = f.typ && g.payload = f.payload) } ∧
        Only acks s u)) ∧
    (∀ f, taken 1 true f →
      let n := leAt f.payload 8 1 % 16
      let e : BitVec 4 := BitVec.ofNat 4 n
      let v : U128 := BitVec.ofNat 128 (leAt f.payload 16 16)
      let pending := bitOf (s.reg (.cgsPending 0)) n = true
      let seeded (u : State) : Prop := Logged { typ := 3, agent := n, len := 16, payload := v.toNat } s u ∧ bitOf (u.reg .echoJob) 11 = true ∧
        ∀ d, seedEntry u d e = v ∧ seedValid u d e = true ∧ bitOf (u.reg (.cgsPending d)) n = false ∧
          u.fget (.cgsStatus d) F.cgsStatus_FRESH_COUNT = min 0xFFFF (s.fget (.cgsStatus d) F.cgsStatus_FRESH_COUNT + 1)
      let seedScope (tiles : TileId → Prop) : Scope := {
        regs := fun r => echoRegs r ∨ ∃ d, r = .cgsStatus d ∨ r = .cgsPending d ∨ ∃ w, r = .cgsSeed d e w
        tiles, mem := echoSlot s, parts := [.net, .job, .echo] }
      (pending → Live s → Settled s → Answers (.echoSyncSeed f) s fun u => seeded u ∧ Only (seedScope fun _ => False) s u) ∧
      (∀ t, pending → Live s → (∀ x ∈ s.tiles, x.2.ctl = none ∧ (x.1 ≠ t → x.2.waits = [])) → (s.tile t).waits = [.fresh n] →
        tfind s.tiles t = some (s.tile t) → Answers (.echoSyncSeed f) s fun u => seeded u ∧ u.tile t = { s.tile t with waits := [] } ∧
          Only (seedScope (· = t)) s u) ∧
      (¬ pending → seedEntry s 0 e ≠ v → (n, v) ∉ s.job.fresh → Answers (.echoSyncSeed f) s fun u =>
        u.job = { s.job with fresh := s.job.fresh ++ [(n, v)] } ∧ Only { parts := [.net, .job] } s u) ∧
      (¬ pending → seedEntry s 0 e = v ∨ (n, v) ∈ s.job.fresh → Answers (.echoSyncSeed f) s fun u => Only acks s u)) ∧
    (∀ f, taken 2 false f →
      let joins := jobLoaded s = true ∧ s.net.recovering = false ∧ s.flt.ended = false
      let joined (u : State) : Prop := u.net.recovering = true ∧ u.net.choice = none ∧ u.job = { s.job with phase := .frozen } ∧ status 5 u ∧
        u.flt.failStep = max (leAt f.payload 8 8) (if s.flt.phase6 then s.flt.failStep else 0) ∧
        Stopping u
      (¬ joins → Answers (.echoSyncRecover f) s fun u => Only acks s u) ∧
      (joins → s.job.rank ≠ 0 → Answers (.echoSyncRecover f) s fun u => joined u ∧
        sent 0 3 (leBytes 8 (goodStep s).1 ++ leBytes 4 (goodStep s).2) u ∧ Only (ends []) s u) ∧
      (joins → s.job.rank = 0 → 2 ≤ s.job.count → Answers (.echoSyncRecover f) s fun u => joined u ∧
        u.net.reports = [(0, goodStep s)] ∧ Only (ends []) s u)) ∧
    (∀ f, taken 3 false f →
      let told := (leAt f.payload 8 8, leAt f.payload 16 4)
      let keeps := s.job.rank = 0 ∧ s.net.recovering = true ∧ s.net.choice = none
      (¬ keeps → Answers (.ckptReport f) s fun u => Only acks s u) ∧
      (∀ r < s.job.count, keeps → r ≠ f.src → tfind s.net.reports r = none → Answers (.ckptReport f) s fun u =>
        u.net.reports = tset s.net.reports f.src told ∧ u.net.choice = none ∧ Only acks s u) ∧
      (∀ g, keeps → s.job.count = 2 → f.src = 1 → s.net.reports = [(0, g)] →
        let step := min g.1 told.1
        (∀ c, copyAtStep s step = some c → entriesHeld s c.seq = true → Answers (.ckptReport f) s fun u => sent 1 4 (leBytes 8 step) u ∧
          u.net.choice = some step ∧ status 6 u ∧ Only { regs := (· = .fltStatus), parts := [.net] } s u) ∧
        (∀ c, copyAtStep s step = some c → entriesHeld s c.seq = false → s.flt.need = none → Answers (.ckptReport f) s fun u =>
          sent 1 4 (leBytes 8 step) u ∧ u.net.choice = some step ∧ asks c u) ∧
        (copyAtStep s step = none → Answers (.ckptReport f) s fun u => sent 1 4 (leBytes 8 step) u ∧ ended u ∧ Only (ends [.hif]) s u))) ∧
    (∀ f, taken 4 true f →
      let step := leAt f.payload 8 8
      let waits := s.net.recovering = true ∧ s.net.choice = none
      (¬ waits → Answers (.ckptChoice f) s fun u => Only acks s u) ∧
      (∀ c, waits → copyAtStep s step = some c → entriesHeld s c.seq = true → Answers (.ckptChoice f) s fun u =>
        u.net.choice = some step ∧ status 6 u ∧ Only { regs := (· = .fltStatus), parts := [.net] } s u) ∧
      (∀ c, waits → copyAtStep s step = some c → entriesHeld s c.seq = false → s.flt.need = none → Answers (.ckptChoice f) s fun u =>
        u.net = { s.net with choice := some step } ∧ asks c u) ∧
      (waits → copyAtStep s step = none → Answers (.ckptChoice f) s fun u => ended u ∧ Only (ends [.hif]) s u)) ∧
    (∀ step c y, s.net.recovering = true → s.net.choice = some step →
      let x := { y with gen := c.gen, step := leAt (s.bytes c.addr 64) 12 6, seq := c.seq }
      let n := if c.gen = s.flt.attemptGen then s.fget .fltStatus F.fltStatus_ATTEMPT + 1 else 1
      let whole := copyAtStep s step = some c ∧ readBody s.job.img s.flt.copies (s.bytes (c.addr + 64) (bodyLen s.job.img)) = some y ∧
        n ≤ 3 ∧ x.srcPos = none ∧ s.job.img.fe.mode = 0 ∧ s.echo.mode ≠ 1 ∧ s.echo.waiting = [] ∧ s.echo.late = [] ∧
        s.echo.seq < s.echo.tail + echoCap s ∧ s.echo.seq = c.seq ∧ entriesHeld s c.seq = true ∧
        ∀ p ∈ x.regs, savedReg p.1 = true
      let restored (u : State) : Prop := u.net.recovering = false ∧ u.net.choice = none ∧ u.job.phase = .running ∧ u.job.step = x.step ∧
        u.job.chain = x.chain ∧ u.job.gen = c.gen ∧ u.rows = x.rows ∧ u.flt.attemptGen = c.gen ∧
        u.fget .fltStatus F.fltStatus_ATTEMPT = n ∧ u.echo.replay = false ∧
        (∀ t z w, tfind s.tiles t = some z → tfind x.tiles t = some w → (u.tile t).vr = w.vr ∧ (u.tile t).sv = w.sv ∧ (u.tile t).step = w.step) ∧
        Only { regs := fun r => savedReg r = true ∨ echoRegs r ∨ r = .fltStatus ∨ r = .fltCount ∨ r = .fltLastMs ∨ r = .mbxStatus,
               tiles := fun _ => True, mem := fun a => echoSlot s a ∨ ∃ p ∈ x.ranges, p.1 ≤ a ∧ a < p.1 + p.2.length,
               parts := [.rows, .job, .echo, .flt, .hif, .net, .free] } s u
      (∀ f, taken 5 true f → whole → Answers (.echoSyncResume f) s restored) ∧
      (∀ f, taken 5 true f → copyAtStep s step = none → Answers (.echoSyncResume f) s fun u => ended u ∧ u.net.choice = none ∧ Only (ends [.hif]) s u) ∧
      (∀ f, comes f → ours f → ackOnly f = true → present → s.job.rank = 0 → s.job.count = 2 → s.net.unacked = [{ f with dst := f.src }] →
        leAt f.payload 0 1 = 4 → whole → Answers (.ckptChoice f) s fun u => restored u ∧ sent 1 5 (leBytes 8 s.flt.failStep) u)) ∧
    (let time (r : Reg) : Prop := r = .ptpTimeLo ∨ r = .ptpTimeHi
     let x := s.net.ptp
     let ptp (y : Ptp) (u : State) : Prop := u.net = { s.net with ptp := y }
     let msg (port : Nat) (body : PtpBody) : PtpMsg :=
       { port, via := { domain := s.boot.cfg.ptpDomain, udp := s.boot.cfg.ptpUdp, tagged := classTag s true }, body }
     let gm (u : State) : Prop := u.flag .ptpStatus F.ptpStatus_GM = isMaster u
     let since (off : Int) (now : Nat) := if off.natAbs ≤ 2 then some (x.since.getD now) else none
     let moves (off : Int) (now : Nat) (u : State) : Prop := u.fget .ptpStatus F.ptpStatus_OFFSET = sat16 off ∧
       u.flag .ptpStatus F.ptpStatus_LOCK = (if 10 < off.natAbs then false
         else if (since off now).any fun t => decide (t + 10 ^ 9 ≤ now) then true else s.flag .ptpStatus F.ptpStatus_LOCK)
     (∀ (m : PtpMsg) (now : U64),
       let n := now.toNat
       let hears := eth ∧ (portsUp s).contains m.port = true ∧ m.via.domain = s.boot.cfg.ptpDomain ∧ m.via.udp = s.boot.cfg.ptpUdp
       let master := isMaster s = false ∧ ∃ b, x.best = some b ∧ b.2.2 = m.port
       let does (y : Ptp) (P : State → Prop) : Prop := Answers (.ptpMessage m.port m.via m.body now) s fun u =>
         u.pair .ptpTimeLo .ptpTimeHi = n ∧ ptp y u ∧ P u ∧ Only { regs := fun r => time r ∨ r = .ptpStatus, parts := [.net] } s u
       let only (y : Ptp) : Prop := does y fun u => u.reg .ptpStatus = s.reg .ptpStatus
       let syncs (t1 t2 : Nat) : Prop :=
         let off : Int := (t2 : Int) - t1 - x.delay
         does { x with
           syncRx := none, last := some ((t1 : Int), (t2 : Int)), reqTx := some n, since := since off n
           sent := x.sent ++ [msg m.port (if s.boot.cfg.ptpP2p then .pdelayReq else .delayReq)] } (moves off n)
       (¬ hears → Answers (.ptpMessage m.port m.via m.body now) s fun u => u = s) ∧
       (hears →
         (∀ data steps, m.body = .announce data steps →
           let better := ∀ b, x.best = some b → b.2.2 = m.port ∨ betterMaster (data, steps) (b.1, b.2.1) = true
           (better → does { x with best := some (data, steps, m.port) } gm) ∧ (¬ better → does x gm)) ∧
         (∀ t1, m.body = .sync (some t1) → (master → syncs t1 n) ∧ (¬ master → only x)) ∧
         (m.body = .sync none → (master → only { x with syncRx := some n }) ∧ (¬ master → only x)) ∧
         (∀ t1, m.body = .followUp t1 → (∀ t2, master → x.syncRx = some t2 → syncs t1 t2) ∧ (¬ master ∨ x.syncRx = none → only x)) ∧
         (m.body = .delayReq → (isMaster s = true → only { x with sent := x.sent ++ [msg m.port (.delayResp n)] }) ∧
           (isMaster s = false → only x)) ∧
         (∀ t4, m.body = .delayResp t4 →
           (∀ t3 l, master → s.boot.cfg.ptpP2p = false → x.reqTx = some t3 → x.last = some l →
             only { x with reqTx := none, delay := (l.2 - l.1 + ((t4 : Int) - t3)) / 2 }) ∧
           (¬ master ∨ s.boot.cfg.ptpP2p = true ∨ x.reqTx = none ∨ x.last = none → only x)) ∧
         (s.boot.cfg.ptpP2p = true →
           (m.body = .pdelayReq → only { x with sent := x.sent ++ [msg m.port (.pdelayResp n), msg m.port (.pdelayFollowUp n)] }) ∧
           (∀ t2, m.body = .pdelayResp t2 → only { x with peerRx := some (t2, n) }) ∧
           (∀ t3, m.body = .pdelayFollowUp t3 →
             (∀ t1 r, x.reqTx = some t1 → x.peerRx = some r →
               only { x with reqTx := none, peerRx := none, delay := ((r.2 : Int) - t1 - ((t3 : Int) - r.1)) / 2 }) ∧
             (x.reqTx = none ∨ x.peerRx = none → only x))) ∧
         (s.boot.cfg.ptpP2p = false → (∃ t, m.body = .pdelayReq ∨ m.body = .pdelayResp t ∨ m.body = .pdelayFollowUp t) → only x))) ∧
     (∀ sec, pstate s < 2 → sec * 10 ^ 9 < 2 ^ 64 →
       let n := sec * 10 ^ 9
       let rose (u : State) : Prop := u.net.ppsOut = s.net.ppsOut + 1 ∧ u.pair .ptpTimeLo .ptpTimeHi = n
       (¬ eth → Answers (.ppsOutEdge sec) s fun u => rose u ∧ u.net = { s.net with ppsOut := s.net.ppsOut + 1 } ∧
         Only { regs := time, parts := [.net] } s u) ∧
       (eth → isMaster s = false → Answers (.ppsOutEdge sec) s fun u => rose u ∧ u.flag .ptpStatus F.ptpStatus_GM = false ∧
         u.net = { s.net with ppsOut := s.net.ppsOut + 1 } ∧ Only { regs := fun r => time r ∨ r = .ptpStatus, parts := [.net] } s u) ∧
       (eth → isMaster s = true → Answers (.ppsOutEdge sec) s fun u => rose u ∧ u.flag .ptpStatus F.ptpStatus_GM = true ∧ moves 0 n u ∧
         u.net.ptp = { x with
           since := since 0 n
           sent := x.sent ++ (portsUp s).flatMap fun p =>
             [msg p (.announce (Config.ptpDataset s.otp.serial) 0), msg p (.sync none), msg p (.followUp n)] } ∧
         Only { regs := fun r => time r ∨ r = .ptpStatus, parts := [.net] } s u))) ∧
    (∀ now : U64, pstate s < 2 → Answers (.ppsInEdge now) s fun u => u.pair .ptpPpsInLo .ptpPpsInHi = now.toNat ∧
      Only { regs := fun r => r = .ptpPpsInLo ∨ r = .ptpPpsInHi } s u) ∧
    (2 ≤ pstate s → (∀ now, Answers (.ppsInEdge now) s fun u => u = s) ∧ ∀ sec, Answers (.ppsOutEdge sec) s fun u => u = s)

/-- Power requests and commits (R381, R384-R391, R399). -/
def Obligations.PowerRequestsAreJudgedAndCommitted : Prop :=
  ∀ s : State, MemOk s → RegsOk s →
    let busy (u : State) (n : Nat) : Prop := u.flag .pwrState F.pwrState_BUSY = true ∧ u.fget .pwrState F.pwrState_TARGET = n ∧ pstate u = pstate s
    let refused (rs : List (Nat × Nat)) (n : Nat) (u : State) : Prop := u.pwr.req = none ∧ u.pwr.stopAt = none ∧
      u.fget .pwrRefuse F.pwrRefuse_AGENT = (rs.headD (0, 0)).1 % 256 ∧ u.fget .pwrRefuse F.pwrRefuse_REASON = (rs.headD (0, 0)).2 % 256 ∧
      u.fget .pwrRefuse F.pwrRefuse_TARGET = n ∧ u.fget .pwrRefuse F.pwrRefuse_COUNT = min 0xFF (s.fget .pwrRefuse F.pwrRefuse_COUNT + 1) ∧
      (∀ a, bitOf (u.reg .pwrRefuseAgents) a = (decide (a ∈ rs.map Prod.fst) && bitOf (Reg.impl .pwrRefuseAgents) a)) ∧
      u.flag .pwrState F.pwrState_BUSY = false ∧ u.hif = s.hif.signalled 4 ∧
      Only { regs := fun r => r = .pwrState ∨ r = .pwrRefuse ∨ r = .pwrRefuseAgents, parts := [.pwr, .hif] } s u
    let asks (i : Instr) (n : Nat) (force : Bool) (delays silent : Nat) (w : Power) : Prop :=
      let dropped := s.flag .pwrState F.pwrState_BUSY = true ∨ n ≤ pstate s ∨ 5 < n
      let q : PwrReq := { target := n, force, answers := powerAgents.map fun a => (a,
        if silent.testBit a then .silent else if delaysFirst s a || delays.testBit a then .delay else answerOf s n a) }
      let rs := q.refusals
      let forces := force = true ∧ (rs.all fun x => forcible x.2) = true
      (dropped → Answers i s fun u => BitSet .pwrRefuse F.pwrRefuse_DROPPED s u ∧ u.pwr = w ∧
        Only { regs := (· = .pwrRefuse), parts := [.pwr] } s u) ∧
      (¬ dropped → q.answered = false ∨ rs = [] → Answers i s fun u => busy u n ∧ u.pwr = { w with stopAt := none, req := some q } ∧
        Only { regs := (· = .pwrState), parts := [.pwr] } s u) ∧
      (¬ dropped → q.answered = true → rs ≠ [] → ¬ forces → Answers i s (refused rs n)) ∧
      (¬ dropped → q.answered = true → rs ≠ [] → forces → (∀ x ∈ rs, x.2 = 6) → Answers i s fun u => busy u n ∧
        u.pwr = { w with stopAt := none, req := some { q with forced := true } } ∧
        echoDrain u = s.pair .echoSeqLo .echoSeqHi ∧ u.flag .echoStatus F.echoStatus_LOST = true ∧
        Only { regs := fun r => r = .pwrState ∨ r = .echoDrainLo ∨ r = .echoDrainHi ∨ r = .echoStatus, parts := [.pwr] } s u) ∧
      (¬ dropped → q.answered = true → rs ≠ [] → forces → (∀ x ∈ rs, x.2 = 1) → s.job.phase = .running → s.job.pauseQ = none →
        allDone s = false → Answers i s fun u => busy u n ∧ u.job = { s.job with pauseAt := some (topStep s + 1) } ∧
          u.pwr = { w with stopAt := if 3 ≤ n ∧ s.job.hostCkpt = false then some 2 else none, req := some { q with forced := true } } ∧
          Only { regs := (· = .pwrState), parts := [.pwr, .job] } s u)
    (∀ (v : U32) delays silent, let n := F.pwrReq_TARGET.get v
      n ≠ 0 → asks (.pwrEntryRequest v delays silent) n (decide (F.pwrReq_FORCE.get v = 1)) delays silent s.pwr) ∧
    (∀ delays silent,
      let host := s.flag .hifPolicy F.hifPolicy_PWR = false ∧ s.flt.mcAbsent = false ∧ isIdle s = true
      let s1 := host ∧ s.fget .pwrIdle F.pwrIdle_S1_MS ≠ 0 ∧ pstate s = 0
      let s2 := host ∧ s.fget .pwrIdle F.pwrIdle_S2_S ≠ 0 ∧ pstate s = 1
      let repeats := s.pwr.d3hot = true ∧ pstate s < 3
      (s1 → asks (.idleS1Timeout delays silent) 1 false delays silent s.pwr) ∧
      (¬ s1 → Answers (.idleS1Timeout delays silent) s fun u => u = s) ∧
      (s2 → asks (.idleS2Timeout delays silent) 2 false delays silent s.pwr) ∧
      (¬ s2 → Answers (.idleS2Timeout delays silent) s fun u => u = s) ∧
      asks (.pmcsrD3hot delays silent) 3 false delays silent { s.pwr with d3hot := true } ∧
      (repeats → asks (.d3hotRequestRepeat delays silent) 3 false delays silent s.pwr) ∧
      (¬ repeats → Answers (.d3hotRequestRepeat delays silent) s fun u => u = s)) ∧
    (∀ (q : PwrReq) (a : Nat), s.pwr.req = some q →
      let given (i : Instr) (x : Answer) : Prop :=
        let q' := { q with answers := tset q.answers a x }
        let rs := q'.refusals
        (q'.answered = false ∨ rs = [] ∨ q.forced = true → Answers i s fun u => u.pwr = { s.pwr with req := some q' } ∧ Only { parts := [.pwr] } s u) ∧
        (q'.answered = true → rs ≠ [] → q.forced = false → q.force = false ∨ (∃ x ∈ rs, forcible x.2 = false) → q.target < 16 →
          Answers i s (refused rs q.target))
      (∀ again, tget q.answers .ack a = .delay → given (.agentDelayExpiry a again) (secondAnswer s q.target a again)) ∧
      (∀ again, tget q.answers .ack a ≠ .delay → Answers (.agentDelayExpiry a again) s fun u => u = s) ∧
      (tget q.answers .ack a = .silent → given (.agentAnswerTimeout a) (.refuse 7)) ∧
      (tget q.answers .ack a ≠ .silent → Answers (.agentAnswerTimeout a) s fun u => u = s)) ∧
    (∀ a again, s.pwr.req = none → Answers (.agentDelayExpiry a again) s (fun u => u = s) ∧ Answers (.agentAnswerTimeout a) s fun u => u = s) ∧
    (∀ now : U64,
      let scope (n : Nat) (more : Reg → Prop) : Scope := {
        regs := fun r => lossRegs n r ∨ more r, tiles := fun _ => 2 ≤ n, mem := lossBytes n, parts := if n < 2 then [.pwr] else lossParts }
      let down (n : Nat) (u : State) : Prop := pstate u = n ∧ u.pwr.req = none ∧ u.pwr.ptpAtEntry = now.toNat ∧
        (n = 1 → s.pwr.sump.valid = false → u.pwr = { s.pwr with req := none, stopAt := none, ptpAtEntry := now.toNat }) ∧
        (2 ≤ n → pstate s < 2 → u.tiles = [] ∧ u.rows = [] ∧ (∀ r : Reg, r.lostInDoze = true → u.reg r = r.reset) ∧
          (∀ a, spaceBase 16 ≤ a → a < dieSpaces → u.byte a = memDefault) ∧ u.pwr.badSensors = [] ∧ u.pwr.droop = [] ∧ u.flag .ptpStatus F.ptpStatus_LOCK = false ∧
          (∀ p, u.flag (.bxtPortStatus p) F.bxtPortStatus_UP = false) ∧ (n < 5 → u.pwr.sump.valid = true ∧ u.pwr.sump.entry = n) ∧
          ∀ k, stackState u k = (if stackState s k = 5 then 5 else if n = 2 then (if stackState s k = 2 then 3 else stackState s k) else 0)) ∧
        (3 ≤ n → pstate s < 3 → u.slots = [] ∧ (∀ a, a < spaceBase 1 → u.byte a = memDefault) ∧ (∀ r : Reg, r.lostInRest = true → u.reg r = r.reset) ∧
          u.ent = { alarm := s.ent.alarm } ∧ u.echo = {} ∧ u.flt.good = none ∧ u.hif.gens = [] ∧ u.hif.digests = [] ∧ u.sec.session = 0 ∧ (∀ j, u.reg (.imgStatus j) = 0) ∧
          u.net = { cfg1600 := s.net.cfg1600, podId := s.net.podId, ppsSource := s.net.ppsSource }) ∧
        (4 ≤ n → pstate s < 4 → (∀ r : Reg, r.lostInDeep = true → u.reg r = r.reset) ∧ u.flt.pending = [] ∧ u.hif.linkUp = false ∧
          u.hif.queues = []) ∧
        (n = 5 → u.pwr.sump = {})
      (canCommit s = false → Answers (.powerCommit now) s fun u => u = s) ∧
      (∀ q, canCommit s = true → s.pwr.req = some q → pstate s < q.target → q.target ≤ 5 → s.pwr.stopAt = none → (pstate s = 2 → Settled s) →
        Answers (.powerCommit now) s fun u => down q.target u ∧ u.flag .pwrState F.pwrState_BUSY = false ∧
          (q.target < 3 → u.pair .ptpTimeLo .ptpTimeHi = now.toNat) ∧ Only (scope q.target fun _ => False) s u) ∧
      (∀ q, canCommit s = true → s.pwr.req = some q → 3 ≤ q.target → q.target ≤ 5 → s.pwr.stopAt = some 2 → pstate s < 2 →
        Answers (.powerCommit now) s fun u => down 2 u ∧ u.flag .pwrState F.pwrState_BUSY = false ∧
          u.flag .pwrRefuse F.pwrRefuse_CTX_HBM = true ∧ u.fget .pwrRefuse F.pwrRefuse_AGENT = 0x16 ∧ u.fget .pwrRefuse F.pwrRefuse_REASON = 5 ∧
          u.fget .pwrRefuse F.pwrRefuse_TARGET = q.target ∧ u.hif = s.hif.signalled 4 ∧
          Only (scope 2 fun r => r = .pwrRefuse ∨ r = .pwrRefuseAgents) s u))

/-- Wakes, the exit to S0, PCI-PM and PERST_N (R382, R383, R386, R390, R392-R394, R398, R408, R411, R454). -/
def Obligations.WakesExitsAndResetsAct : Prop :=
  ∀ s : State, MemOk s → RegsOk s →
    let st := pstate s
    let hot := s.pins.thermtripN = false ∧ s.pwr.hot ≠ []
    let cnt (src : Nat) : Reg := .pwrWakeCnt (BitVec.ofNat 2 (src / 2))
    let mine (src : Nat) : Fld := if src % 2 = 1 then F.pwrWakeCnt_ODD else F.pwrWakeCnt_EVEN
    let other (src : Nat) : Fld := if src % 2 = 1 then F.pwrWakeCnt_EVEN else F.pwrWakeCnt_ODD
    let counted (src : Nat) (u : State) : Prop := u.fget (cnt src) (mine src) = min 0xFFFF (s.fget (cnt src) (mine src) + 1) ∧
      u.fget (cnt src) (other src) = s.fget (cnt src) (other src)
    let ns (now : U64) : Nat := if 3 ≤ st then s.pwr.ptpAtEntry + now.toNat * 10 ^ 9 / 32768 else now.toNat
    let wakeRegs (src : Nat) (r : Reg) : Prop := r = .pwrWakeSrc ∨ r = .pwrWakeTimeLo ∨ r = .pwrWakeTimeHi ∨ r = cnt src ∨ r = .pwrState
    let woken (src : Nat) (now : U64) (w : Power) (u : State) : Prop :=
      u.flag .pwrWakeSrc F.pwrWakeSrc_EST = decide (3 ≤ st) ∧ u.fget .pwrWakeSrc F.pwrWakeSrc_FROM = st ∧ u.fget .pwrWakeSrc F.pwrWakeSrc_SOURCE = src ∧
      u.pair .pwrWakeTimeLo .pwrWakeTimeHi = ns now % 2 ^ 64 ∧ counted src u ∧ u.pins.thermtripN = true ∧
      u.flag .pwrState F.pwrState_BUSY = true ∧ u.fget .pwrState F.pwrState_TARGET = 0 ∧ pstate u = st ∧
      u.pwr = { w with exiting := true, retries := 0, lastWake := aonTick (ns now) }
    let wakes (i : Instr) (src : Nat) (now : U64) (w : Power) : Prop :=
      let acts := wakeActs src st = true
      (s.pwr.exiting = false → acts → ¬ hot → s.pwr.req = none → Answers i s fun u => woken src now w u ∧
        u.pins = { s.pins with thermtripN := true } ∧ Only { regs := wakeRegs src, parts := [.pwr, .pins] } s u) ∧
      (∀ q, s.pwr.exiting = false → acts → ¬ hot → s.pwr.req = some q → Answers i s fun u =>
        woken src now { w with req := none, stopAt := none } u ∧ BitSet .pwrRefuse F.pwrRefuse_WOKEN s u ∧
        u.pins = { s.pins with thermtripN := true } ∧ Only { regs := fun r => wakeRegs src r ∨ r = .pwrRefuse, parts := [.pwr, .pins] } s u) ∧
      (∀ q, s.pwr.exiting = false → ¬ acts → s.pwr.req = some q → wakeActs src q.target = true → Answers i s fun u =>
        u.pwr = { w with req := none, stopAt := none } ∧ BitSet .pwrRefuse F.pwrRefuse_WOKEN s u ∧ u.flag .pwrState F.pwrState_BUSY = false ∧
        pstate u = st ∧ Only { regs := fun r => r = .pwrRefuse ∨ r = .pwrState, parts := [.pwr] } s u) ∧
      (s.pwr.exiting = false → acts → hot → Answers i s fun u => u.fget .pwrRefuse F.pwrRefuse_REASON = 8 ∧
        u.fget .pwrRefuse F.pwrRefuse_COUNT = min 0xFF (s.fget .pwrRefuse F.pwrRefuse_COUNT + 1) ∧
        u.hif = s.hif.signalled 4 ∧ u.pwr = w ∧
        Only { regs := fun r => r = .pwrRefuse ∨ r = .pwrRefuseAgents, parts := [.hif, .pwr] } s u) ∧
      (s.pwr.exiting = true → acts → aonTick (ns now) = s.pwr.lastWake → Answers i s fun u => counted src u ∧ u.pwr = w ∧
        u.fget .pwrWakeSrc F.pwrWakeSrc_SOURCE = min src (s.fget .pwrWakeSrc F.pwrWakeSrc_SOURCE) ∧
        Only { regs := fun r => r = cnt src ∨ r = .pwrWakeSrc, parts := [.pwr] } s u) ∧
      ((s.pwr.exiting = true ∧ (¬ acts ∨ aonTick (ns now) ≠ s.pwr.lastWake)) ∨
          (s.pwr.exiting = false ∧ ¬ acts ∧ ∀ q, s.pwr.req = some q → wakeActs src q.target = false) →
        Answers i s fun u => u = { s with pwr := w })
    let starts (r25 : Bool) (u : State) : Prop :=
      (s.pins.inputUp = true → r25 = true → u.boot.started = true ∧ bootPhase u = 0) ∧
      (s.pins.inputUp = true → r25 = false → u.boot.started = false ∧ u.pins.alertN = false ∧ u.fget .pwrFault F.pwrFault_WHAT = 0x0201)
    (∀ now, wakes (.pwrWakeRequest now) 1 now s.pwr) ∧
    (∀ now, (s.reg .pwrWakeTimer ≠ 0 → wakes (.wakeTimerExpiry now) 6 now s.pwr) ∧
      (s.reg .pwrWakeTimer = 0 → Answers (.wakeTimerExpiry now) s fun u => u = s)) ∧
    (∀ now, wakes (.pmcsrD0 now) 3 now { s.pwr with d3hot := false }) ∧
    (s.pending = [] → s.pwr.exiting = true →
      let ends (P : State → Prop) : Prop := ∃ u, step s = .next u ∧ pstate u = 0 ∧ u.flag .pwrState F.pwrState_BUSY = false ∧
        u.pwr.exiting = false ∧ u.pwr.retries = 0 ∧ P u
      let good := s.pwr.sump.valid = true ∧ sumpDigest s.pwr.sump.regs = s.pwr.sump.digest ∧ (tkeys s.pwr.sump.regs).Nodup ∧
        ∀ p ∈ s.pwr.sump.regs, p.1.inSump = true
      let trained (u : State) : Prop := ∀ k, stackState u k = if st = 2 then (if stackState s k = 3 then 2 else stackState s k)
        else if stackState s k = 5 then 5 else 1
      let started (u : State) : Prop := 3 ≤ st → s.ent.alarm = false → u.fget .entStatus F.entStatus_STATE = 1 ∧ u.ent.pool = [] ∧ u.ent.key = 0
      (st < 2 → ends fun u => Only { regs := (· = .pwrState), parts := [.pwr] } s u) ∧
      (2 ≤ st → st < 5 → good → ends fun u => (∀ p ∈ s.pwr.sump.regs, u.reg p.1 = p.2 &&& p.1.impl) ∧ trained u ∧ started u ∧
        u.pwr.sump = {} ∧ Only {
          regs := fun r => r = .pwrState ∨ r = .entStatus ∨ (∃ k, r = .hbmStatus k) ∨ ∃ v, (r, v) ∈ s.pwr.sump.regs
          parts := [.pwr, .latched, .ent] } s u) ∧
      (2 ≤ st → st < 5 → s.pwr.sump.valid = false ∨ sumpDigest s.pwr.sump.regs ≠ s.pwr.sump.digest → ends fun u =>
        u.flag .pwrFault F.pwrFault_SUMP_BAD = true ∧ u.slots = [] ∧ started u ∧ u.pwr.sump = {} ∧ u.reg .hifCtrl = Reg.reset .hifCtrl ∧
        (∀ q, u.reg (.qCfg q) = Reg.reset (.qCfg q)) ∧ (∀ j, u.reg (.imgStatus j) = 0)) ∧
      (st = 5 → ends fun u => Emptied [] s u ∧ (s.pins.perstN = true → starts s.pins.ref25 u) ∧ (∀ r : Reg, r.inAon = true → r ≠ .pwrState → r ≠ .pwrFault → u.reg r = s.reg r))) ∧
    (∀ k, (stackState s k = 1 → st = 0 → Answers (.hbmTrainingComplete k) s fun u => stackState u k = 2 ∧
        BitsBut [0, 1, 2] (s.reg (.hbmStatus k)) (u.reg (.hbmStatus k)) ∧ Only { regs := (· = .hbmStatus k) } s u) ∧
      (stackState s k ≠ 1 ∨ st ≠ 0 → Answers (.hbmTrainingComplete k) s fun u => u = s)) ∧
    (∀ what,
      let n := if (0x101 ≤ what ∧ what ≤ 0x104) ∨ what = 0x204 then 5 else 4
      (s.pwr.exiting = false → Answers (.powerGoodTimeout what) s fun u => u = s) ∧
      (s.pwr.exiting = true → s.pwr.retries < 3 → Answers (.powerGoodTimeout what) s fun u => u = { s with pwr := { s.pwr with retries := s.pwr.retries + 1 } }) ∧
      (s.pwr.exiting = true → 3 ≤ s.pwr.retries → (st = 2 → Settled s) → Answers (.powerGoodTimeout what) s fun u => pstate u = n ∧ u.flag .pwrState F.pwrState_BUSY = false ∧
        u.pwr.exiting = false ∧ u.flag .pwrFault F.pwrFault_WAKE_FAIL = true ∧ u.fget .pwrFault F.pwrFault_WHAT = what % 0x10000 ∧
        u.pins = { s.pins with alertN := false } ∧ u.boot = s.boot ∧ u.otp = s.otp ∧ u.pending = s.pending ∧
        (∀ r : Reg, r.lostInDoze = false → r.lostInRest = false → r.lostInDeep = false → (∀ k, r ≠ .hbmStatus k) → (∀ j, r ≠ .imgStatus j ∧ r ≠ .imgWrdrop j) →
          r ≠ .secAttCtrl → r ≠ .pwrState → r ≠ .pwrFault → u.reg r = s.reg r))) ∧
    (∀ delays silent,
      let i : Instr := .perstNAssert delays silent
      let down (u : State) : Prop := u.pins = { s.pins with perstN := false } ∧ u.hif.linkUp = false ∧
        u.fget .hifStatus F.hifStatus_WIDTH = 0 ∧ u.fget .hifStatus F.hifStatus_RATE = 0
      let q : PwrReq := { target := 4, force := true, answers := powerAgents.map fun a => (a,
        if silent.testBit a then .silent else if delaysFirst s a || delays.testBit a then .delay else answerOf s 4 a) }
      let linkOnly (regs : Reg → Prop) (parts : List Part) : Scope := { regs := fun r => r = .hifStatus ∨ regs r, parts := [.hif, .pins] ++ parts }
      (st < 3 → Answers i s fun u => down u ∧ Cleared (leaves s) (fun _ => False) s u ∧ u.hif = { ({} : Hif) with bar2Size := s.hif.bar2Size } ∧
        u.boot.started = false ∧ Only (resetScope [.pins]) s u) ∧
      (st = 3 → s.flag .pwrState F.pwrState_BUSY = true → Answers i s fun u => down u ∧ BitSet .pwrRefuse F.pwrRefuse_DROPPED s u ∧
        Only (linkOnly (· = .pwrRefuse) []) s u) ∧
      (st = 3 → s.flag .pwrState F.pwrState_BUSY = false → q.answered = false ∨ q.refusals = [] → Answers i s fun u => down u ∧
        u.flag .pwrState F.pwrState_BUSY = true ∧ u.fget .pwrState F.pwrState_TARGET = 4 ∧ u.pwr = { s.pwr with stopAt := none, req := some q } ∧
        Only (linkOnly (· = .pwrState) [.pwr]) s u) ∧
      (st = 3 → s.flag .pwrState F.pwrState_BUSY = false → q.answered = true → (∃ x ∈ q.refusals, forcible x.2 = false) → Answers i s fun u =>
        down u ∧ u.flag .pwrState F.pwrState_BUSY = false ∧ u.fget .pwrRefuse F.pwrRefuse_TARGET = 4 ∧ u.pwr = { s.pwr with stopAt := none, req := none } ∧
        Only (linkOnly (fun r => r = .pwrState ∨ r = .pwrRefuse ∨ r = .pwrRefuseAgents) [.pwr]) s u) ∧
      (3 < st → Answers i s fun u => down u ∧ Only (linkOnly (fun _ => False) []) s u)) ∧
    (∀ ref25 now,
      let i : Instr := .perstNDeassert ref25 now
      let low := s.pins.perstN = false
      let released (u : State) : Prop := u.pins.perstN = true ∧ u.pins.ref25 = ref25
      let freed (u : State) : Prop := (∀ q, u.flag (.qCfg q) F.qCfg_EN = false) ∧ (∀ g, u.flag (.dmaCfg g) F.dmaCfg_EN = false) ∧
        u.hif = { s.hif with bar2Size := 0x10000000, queues := [], ringNext := [] }
      let freeScope (regs : Reg → Prop) : Scope := { regs := fun r => (∃ q, r = .qCfg q) ∨ (∃ g, r = .dmaCfg g) ∨ regs r, parts := [.hif, .pwr, .pins] }
      (¬ low → Answers i s fun u => u = s) ∧
      (low → st < 3 → s.pins.inputUp = true → ref25 = true → Answers i s fun u => released u ∧ u.boot = { s.boot with started := true } ∧
        bootPhase u = 0 ∧ BitsBut [0, 1, 2, 3] (s.reg .bootStatus) (u.reg .bootStatus) ∧ Only { regs := (· = .bootStatus), parts := [.boot, .pins] } s u) ∧
      (low → st < 3 → s.pins.inputUp = true → ref25 = false → Answers i s fun u => released u ∧ u.pins.alertN = false ∧
        u.fget .pwrFault F.pwrFault_WHAT = 0x0201 ∧ Only { regs := (· = .pwrFault), parts := [.pins] } s u) ∧
      (low → st < 3 → s.pins.inputUp = false → Answers i s fun u => u = { s with pins := { s.pins with perstN := true, ref25 := ref25 } }) ∧
      (low → st = 4 → s.pwr.exiting = false → ¬ hot → s.pwr.req = none → Answers i s fun u => released u ∧ freed u ∧
        woken 4 now { s.pwr with d3hot := false } u ∧ Only (freeScope (wakeRegs 4)) s u) ∧
      (low → st = 3 → Answers i s fun u => released u ∧ freed u ∧ u.pwr = { s.pwr with d3hot := false } ∧ Only (freeScope fun _ => False) s u) ∧
      (low → st = 5 → Answers i s fun u => released u ∧ Cleared [] (fun r => r = .bootStatus ∨ r = .pwrFault) s u ∧ starts ref25 u ∧
        Only (resetScope [.pins]) s u))

/-- Temperatures, trips, supplies and clocks (R241, R319, R395, R396, R398, R450-R454). -/
def Obligations.TemperaturesTripsAndSuppliesAct : Prop :=
  ∀ s : State, MemOk s → RegsOk s →
    let st := pstate s
    let up := s.pins.inputUp = true
    let tempReg (x : Sensor) (r : Reg) : Prop := match x with
      | .die d => r = .pgvTj d
      | .stack k => r = .hbmStatus k
      | .iod => False
    let shown (x : Sensor) (c : Nat) (u : State) : Prop := match x with
      | .die d => u.fget (.pgvTj d) F.pgvTj_TJ = 16 * c % 0x10000
      | .stack k => u.fget (.hbmStatus k) F.hbmStatus_TEMP = c % 256 ∧ stackState u k = stackState s k
      | .iod => True
    let plain (x : Sensor) (c : Nat) (i : Instr) : Prop := Answers i s fun u => shown x c u ∧ Only { regs := tempReg x } s u
    let forced (what : Fld) (n : Nat) (now : U64) (w : Power) (regs : Reg → Prop) (u : State) : Prop :=
      u.flag .pwrFault what = true ∧ pstate u = max n st ∧ u.fget .pwrState F.pwrState_TARGET = n ∧ u.flag .pwrState F.pwrState_BUSY = false ∧
      u.job.phase = .none ∧
      (let e := { w with req := none, stopAt := none, exiting := false, retries := 0, ptpAtEntry := now.toNat, sump := u.pwr.sump };
       st < n → u.pwr = if 2 ≤ n ∧ st < 2 then { e with badSensors := [], droop := [] } else e) ∧
      (n = 5 → st < 5 → u.pwr.sump = {}) ∧ (2 ≤ n → st < 2 → u.tiles = []) ∧ (3 ≤ n → st < 3 → u.slots = [] ∧ u.sec.session = 0) ∧
      (s.job.phase ≠ .none → s.job.phase ≠ .loading → n < 4 → u.fget .fltStatus F.fltStatus_OUTCOME = 3) ∧
      ((st = 2 → Settled s) → Only {
        regs := fun r => regs r ∨ r = .pwrFault ∨ lossRegs n r ∨ r = .secDbgStatus ∨ (s.job.phase ≠ .none ∧ (jobRegs r ∨ stackRegs r))
        tiles := fun _ => True, mem := fun a => lossBytes n a ∨ (s.job.phase ≠ .none ∧ remapByte s a), parts := .pins :: .boot :: lossParts } s u)
    (∀ x c,
      let i : Instr := .thermalWarning x c
      (warnAt s x ≤ c → x ∉ s.pwr.hot → Answers i s fun u => shown x c u ∧ u.pwr = { s.pwr with hot := x :: s.pwr.hot } ∧
        BitSet .pwrTherm (warnFld x) s u ∧ u.pins = { s.pins with alertN := false } ∧ u.hif = s.hif.signalled 4 ∧
        Only { regs := fun r => tempReg x r ∨ r = .pwrTherm, parts := [.pwr, .pins, .hif] } s u) ∧
      (c < warnAt s x ∨ x ∈ s.pwr.hot → plain x c i)) ∧
    (∀ x c,
      let i : Instr := .thermalWarningClear x c
      (c + 5 ≤ warnAt s x → Answers i s fun u => shown x c u ∧ u.pwr = { s.pwr with hot := s.pwr.hot.erase x } ∧
        u.flag .pwrTherm (warnFld x) = decide (∃ y ∈ s.pwr.hot.erase x, warnFld y = warnFld x) ∧
        BitsBut [(warnFld x).lo] (s.reg .pwrTherm) (u.reg .pwrTherm) ∧
        Only { regs := fun r => tempReg x r ∨ r = .pwrTherm, parts := [.pwr] } s u) ∧
      (warnAt s x < c + 5 → plain x c i)) ∧
    (∀ d c,
      let i : Instr := .thermalLimit (.die d) c
      let e : Instr := .thermalLimitEnd (.die d) c
      let scope : Scope := { regs := tempReg (.die d), parts := [.pwr] }
      (105 ≤ c → Answers i s fun u => shown (.die d) c u ∧ (∀ k, k ∈ u.pwr.dieLimit ↔ k ∈ s.pwr.dieLimit ∨ k = d.toNat) ∧
        u.pwr = { s.pwr with dieLimit := u.pwr.dieLimit } ∧ Only scope s u) ∧
      (c < 105 → plain (.die d) c i) ∧
      (c < 105 → Answers e s fun u => shown (.die d) c u ∧ (∀ k, k ∈ u.pwr.dieLimit ↔ k ∈ s.pwr.dieLimit ∧ k ≠ d.toNat) ∧
        u.pwr = { s.pwr with dieLimit := u.pwr.dieLimit } ∧ Only scope s u) ∧
      (105 ≤ c → plain (.die d) c e)) ∧
    (∀ k c,
      let double (u : State) : Bool := u.flag (.hbmStatus k) F.hbmStatus_REFRESH_2X
      let scope : Scope := { regs := tempReg (.stack k), parts := [.pwr] }
      (Answers (.thermalLimit (.stack k) c) s fun u => shown (.stack k) c u ∧ double u = (double s || decide (85 < c)) ∧
        (∀ n, n ∈ u.pwr.hbmThrottle ↔ n ∈ s.pwr.hbmThrottle ∨ (100 ≤ c ∧ n = k.toNat)) ∧
        u.pwr = { s.pwr with hbmThrottle := u.pwr.hbmThrottle } ∧ Only scope s u) ∧
      (Answers (.thermalLimitEnd (.stack k) c) s fun u => shown (.stack k) c u ∧ double u = (double s && decide (85 < c)) ∧
        (∀ n, n ∈ u.pwr.hbmThrottle ↔ n ∈ s.pwr.hbmThrottle ∧ (97 ≤ c ∨ n ≠ k.toNat)) ∧
        u.pwr = { s.pwr with hbmThrottle := u.pwr.hbmThrottle } ∧ Only scope s u)) ∧
    (∀ c,
      let lanes := if s.net.cfg1600 then 4 else 2
      let runs (p : BitVec 4) : Prop := p.toNat ∈ portsUp s
      (110 ≤ c → s.flt.mcAbsent = false → Answers (.thermalLimit .iod c) s fun u =>
        (∀ p, runs p → u.flag (.bxtPortStatus p) F.bxtPortStatus_UP = true ∧ u.fget (.bxtPortStatus p) F.bxtPortStatus_LANES = lanes ∧
          u.fget (.bxtPortStatus p) F.bxtPortStatus_RATE = if s.net.cfg1600 then 2 else 1) ∧
        Only { regs := fun r => ∃ p, runs p ∧ r = .bxtPortStatus p } s u) ∧
      (c < 110 ∨ s.flt.mcAbsent = true → Answers (.thermalLimit .iod c) s fun u => u = s) ∧
      Answers (.thermalLimitEnd .iod c) s fun u => u = s) ∧
    (∀ x c hbm100 now,
      let i : Instr := .thermalTrip x c hbm100 now
      let w := { s.pwr with hot := if x ∈ s.pwr.hot then s.pwr.hot else x :: s.pwr.hot }
      let cause : Fld := match x with
        | .die _ => F.pwrFault_DIE_TRIP
        | .stack _ => F.pwrFault_HBM_TRIP
        | .iod => F.pwrFault_IOD_TRIP
      let n := match x with
        | .die _ => if hbm100 then 3 else 2
        | .stack _ => 3
        | .iod => 5
      (tripAt x ≤ c → Answers i s fun u => forced cause n now w (fun r => tempReg x r ∨ r = .pwrTherm) u ∧ u.flag .pwrTherm (warnFld x) = true ∧
        u.pins = { s.pins with thermtripN := false, alertN := false }) ∧
      (c < tripAt x → plain x c i)) ∧
    ((up → Answers .inputUndervoltage s fun u => BitSet .pwrFault F.pwrFault_UV_WARN s u ∧ u.hif = s.hif.signalled 4 ∧
        Only { regs := (· = .pwrFault), parts := [.hif] } s u) ∧
      (¬ up → Answers .inputUndervoltage s fun u => u = s)) ∧
    (∀ now,
      let fails (pins : Pins) (what : Nat) (u : State) : Prop := forced F.pwrFault_INPUT_FAIL 5 now s.pwr (fun _ => False) u ∧
        u.fget .pwrFault F.pwrFault_WHAT = what ∧ u.pins = pins
      (∀ mv, (up → mv < 36000 ∨ 63000 < mv → Answers (.inputFault mv now) s (fails s.pins 0)) ∧
        (¬ up ∨ (36000 ≤ mv ∧ mv ≤ 63000) → Answers (.inputFault mv now) s fun u => u = s)) ∧
      (∀ rail, (up → railOn rail st = true → Answers (.railPowerGoodLoss rail now) s (fails s.pins (0x100 + rail))) ∧
        (¬ up ∨ railOn rail st = false → Answers (.railPowerGoodLoss rail now) s fun u => u = s)) ∧
      (up → st < 5 → Answers (.refclkLoss 1 now) s (fails { s.pins with ref25 := false } 0x201)) ∧
      (up → 5 ≤ st → Answers (.refclkLoss 1 now) s fun u => u = { s with pins := { s.pins with ref25 := false } }) ∧
      (up → exec (.refclkLoss 2 now) s = exec .linkDown s) ∧
      (up → Answers (.refclkLoss 3 now) s fun u => (∀ p, u.flag (.bxtPortStatus p) F.bxtPortStatus_UP = false ∧
        u.fget (.bxtPortStatus p) F.bxtPortStatus_LANES = 0 ∧ u.fget (.bxtPortStatus p) F.bxtPortStatus_RATE = 0) ∧
        Only { regs := fun r => ∃ p, r = .bxtPortStatus p } s u) ∧
      (∀ clk, ¬ up ∨ (clk ≠ 1 ∧ clk ≠ 2 ∧ clk ≠ 3) → Answers (.refclkLoss clk now) s fun u => u = s)) ∧
    (Powered s .pwrPeakW → Answers .peakClear s fun u => u.fget .pwrPeakW F.pwrPeakW_PEAK = 0 ∧ Only { regs := (· = .pwrPeakW) } s u) ∧
    (∀ strap ref25,
      let i : Instr := .inputPowerUp strap ref25
      let lc (k : Nat) : U32 := tget s.otp.lc 0 k
      let rv (k : Nat) : BitVec 4 := tget s.otp.revoked 0 k
      (¬ up → Answers i s fun u => u.pins.inputUp = true ∧ u.pins.smbAddr = strap ∧ u.pins.ref25 = ref25 ∧
        u.fget .secLc F.secLc_STATE = ((lcVote s.otp).bind lcDecode).getD 4 ∧ u.fget .secKeyslot F.secKeyslot_REVOKED = (revokedVote s.otp).toNat ∧
        (u.flag .fltOtp F.fltOtp_LC_ALLDIFF = true ↔ lc 0 ≠ lc 1 ∧ lc 0 ≠ lc 2 ∧ lc 1 ≠ lc 2) ∧
        (u.flag .fltOtp F.fltOtp_DISAGREE = true ↔ ¬ (lc 0 = lc 1 ∧ lc 0 = lc 2 ∧ rv 0 = rv 1 ∧ rv 0 = rv 2)) ∧
        u.fget .entStatus F.entStatus_STATE = (if s.ent.alarm then 4 else 1) ∧
        (s.pins.perstN = true → ref25 = true → u.boot = { s.boot with started := true } ∧ bootPhase u = 0) ∧
        (s.pins.perstN = true → ref25 = false → u.boot = s.boot ∧ u.pins.alertN = false ∧ u.fget .pwrFault F.pwrFault_WHAT = 0x0201) ∧
        (s.pins.perstN = false → u.boot = s.boot ∧ u.pins = { s.pins with inputUp := true, smbAddr := strap, ref25 := ref25 }) ∧
        Only { regs := fun r => r = .secLc ∨ r = .secKeyslot ∨ r = .fltOtp ∨ r = .entStatus ∨ r = .bootStatus ∨ r = .pwrFault ∨ ∃ k, r = .secId k,
               parts := [.pins, .boot, .ent] } s u) ∧
      (up → Answers i s fun u => u = s)) ∧
    (up → Answers .inputPowerLoss s fun u => Cleared [] (fun _ => False) s u ∧ u.reg .entStatus = 0 ∧ u.ent = {} ∧ u.hif.linkUp = false ∧
      u.pins = { s.pins with inputUp := false, alertN := true, thermtripN := true } ∧
      (s.boot.commit ≠ none → ∀ k < 4096, u.byte (flash ((flashRegion s 2).1 + k)) = 0xFF) ∧
      ∃ a, a = flash (flashRegion s 2).1 ∧ Only { resetScope [.pins] with
        mem := fun b => (resetScope []).mem b ∨ (s.boot.commit ≠ none ∧ a ≤ b ∧ b < a + 4096) } s u) ∧
    (¬ up → Answers .inputPowerLoss s fun u => u = s)

/-- Bring-up, RECOVERY and the standing program (R35-R39, R227, R242, R311, R313, R402-R406, R408-R412, R414, R432). -/
def Obligations.BringUpRunsItsPhases : Prop :=
  ∀ s : State, MemOk s → RegsOk s →
    let at_ (n : Nat) : Prop := bringingUp s = true ∧ bootPhase s = n
    let lc := s.fget .secLc F.secLc_STATE
    let recovers (bits : List Nat) (u : State) : Prop :=
      bootPhase u = 15 ∧ BitsBut ([0, 1, 2, 3] ++ bits) (s.reg .bootStatus) (u.reg .bootStatus) ∧
      u.flag .glbStatus F.glbStatus_RECOVERY = true ∧ u.flag .glbStatus F.glbStatus_READY = false ∧
      BitsBut [0, 1] (s.reg .glbStatus) (u.reg .glbStatus) ∧ u.reg .bootFwVer = 0 ∧ u.tiles = [] ∧ u.rows = [] ∧ u.slots = [] ∧
      (∀ p, u.flag (.bxtPortStatus p) F.bxtPortStatus_UP = false) ∧ (∀ k, stackState u k = if stackState s k = 5 then 5 else 0) ∧
      (∀ a, a < spaceBase 1 ∨ (spaceBase 16 ≤ a ∧ a < dieSpaces) → u.byte a = memDefault) ∧
      u.flt = { s.flt with good := none } ∧ u.hif = Hif.signalled { s.hif with gens := [], digests := [] } 0 ∧
      u.pwr = { s.pwr with badSensors := [], droop := [] } ∧
      Only {
        regs := fun r => r = .bootStatus ∨ r = .glbStatus ∨ r = .bootFwVer ∨ r.lostInDoze = true ∨ (∃ p, r = .bxtPortStatus p) ∨
          (∃ k, r = .hbmStatus k) ∨ ∃ j, r = .imgStatus j ∨ r = .imgWrdrop j
        tiles := fun _ => True
        mem := fun a => a < spaceBase 1 ∨ (spaceBase 16 ≤ a ∧ a < dieSpaces)
        parts := [.latched, .held, .rows, .slots, .flt, .hif, .pwr] } s u
    let marked (die loc : Nat) (u : State) : Prop := u.flag .glbStatus F.glbStatus_DEGRADED = true ∧ Recorded 0 3 die loc s u
    let signals (n : Nat) (u : State) : Prop := u.hif = (List.range n).foldl (fun h _ => h.signalled 1) s.hif
    let starting (P : Instr → Prop) : Prop := ∀ unread tests, P (.bootPhaseEnd unread tests)
    let both (P : Instr → Prop) : Prop := starting P ∧ ∀ tiles ks ls, P (.phaseBoundExpiry tiles ks ls)
    (bringingUp s = false → both fun i => Answers i s fun u => u = s) ∧
    (bringingUp s = true → 6 ≤ bootPhase s → both fun i => Answers i s fun u => u = s) ∧
    (bringingUp s = true → bootPhase s < 3 → ∀ tiles ks ls, Answers (.phaseBoundExpiry tiles ks ls) s fun u => u = s) ∧
    (at_ 0 → starting fun i => Answers i s fun u => bootPhase u = 1 ∧ BitsBut [0, 1, 2, 3] (s.reg .bootStatus) (u.reg .bootStatus) ∧
      Only { regs := (· = .bootStatus) } s u) ∧
    (at_ 1 → ∀ unread tests,
      let r := flashRegion s 2
      let head := s.bytes (flash r.1) 4096
      let e := firmwareErr (fun o n => s.bytes (flash (r.1 + o)) n) s.otp.keys (s.fget .secKeyslot F.secKeyslot_REVOKED) none unread
      let checked (u : State) : Prop := u.fget .bootStatus F.bootStatus_FW_ERR = e ∧
        u.flag .bootStatus F.bootStatus_HDR_DEFAULT = (headerRegions (flashHeader s)).isNone
      (e = 0 → Answers (.bootPhaseEnd unread tests) s fun u => checked u ∧ bootPhase u = 2 ∧
        u.reg .bootFwVer = BitVec.ofNat 32 (leAt head 8 4) ∧
        (∀ i : BitVec 3, u.reg (.bootFwDigest i) = (sha3 head).extractLsb' (224 - 32 * i.toNat) 32) ∧
        u.fget .secKeyslot F.secKeyslot_RUNNING = leAt head 16 1 ∧ BitsBut [4, 5] (s.reg .secKeyslot) (u.reg .secKeyslot) ∧
        u.flag .hifPolicy F.hifPolicy_FW = false ∧ BitsBut [4] (s.reg .hifPolicy) (u.reg .hifPolicy) ∧
        Only { regs := fun r => r = .bootStatus ∨ r = .bootFwVer ∨ r = .secKeyslot ∨ r = .hifPolicy ∨ ∃ i, r = .bootFwDigest i } s u) ∧
      (e ≠ 0 → Answers (.bootPhaseEnd unread tests) s fun u => checked u ∧ recovers [8, 9, 10, 11, 16] u)) ∧
    (at_ 2 → starting fun i =>
      let rs := flashRecords s
      let sel (n : Nat) := selectRecord rs (n + 1)
      let applied := (List.range 6).filterMap fun n => (sel n).1
      let cfg : CfgRec := { imgSig := decide (lc = 2) }
      let net := { s.net with cfg1600 := false, ppsSource := false, podId := 0 }
      let kind (b : RecBody) : Nat := match b with
        | .link _ _ _ _ _ _ _ => 1
        | .envelope _ _ _ _ => 2
        | .ptp _ _ _ _ _ => 3
        | .bexir _ _ _ => 4
        | .standing _ => 5
        | .policy _ _ _ _ _ _ => 6
      let table (u : State) : Prop := match flashTable s with
        | some t => u.reg .fltStatus = s.reg .fltStatus ∧ u.boot.table = t
        | none => BitSet .fltStatus F.fltStatus_RTAB_BAD s u ∧ u.boot.table = {}
      let plain (r : Reg) : Prop := r = .bootStatus ∨ r = .bootCfg ∨ r = .fltStatus ∨ ∃ k, r = .bootCfgDigest k
      let setBy (r : Reg) : Prop := r = .pwrHostCap ∨ r = .pwrIdle ∨ r = .pwrThermLim ∨ r = .ptpRelMargin ∨ r = .bxtCfg ∨ r = .hifPolicy ∨
        r = .fltCtrl ∨ r = .echoCtrl ∨ r = .admCtrl
      let sets (b : RecBody) (u : State) : Prop := match b with
        | .link c mask vlan pe pp addr v4 => u.net = { net with cfg1600 := decide (c = 1) } ∧
            u.boot.cfg = { cfg with portMask := mask, vlan := vlan, pcpExpress := pe, pcpPreempt := pp, addr := addr, v4 := v4 }
        | .envelope profiles cap idle lim => u.boot.cfg = { cfg with profiles := profiles } ∧ u.reg .pwrHostCap = cap &&& Reg.impl .pwrHostCap ∧
            u.reg .pwrIdle = idle &&& Reg.impl .pwrIdle ∧ u.reg .pwrThermLim = lim &&& Reg.impl .pwrThermLim
        | .ptp domain p2p udp pps margin => u.boot.cfg = { cfg with ptpDomain := domain, ptpP2p := p2p, ptpUdp := udp } ∧
            u.net = { net with ppsSource := pps } ∧ u.reg .ptpRelMargin = margin &&& Reg.impl .ptpRelMargin
        | .bexir port mcast pod => u.boot.cfg = { cfg with mcast := mcast } ∧ u.net = { net with podId := pod } ∧
            u.fget .bxtCfg F.bxtCfg_UDP_PORT = port % 0x10000
        | .standing r => u.boot.cfg = { cfg with standing := some r }
        | .policy hif hold em ef am sig => u.boot.cfg = { cfg with imgSig := sig } ∧
            (∀ f : Nat × Fld, f ∈ [(0, F.hifPolicy_LINK), (1, F.hifPolicy_CKPT), (2, F.hifPolicy_PWR), (3, F.hifPolicy_DRBG)] →
              u.flag .hifPolicy f.2 = hif.testBit f.1) ∧
            u.flag .fltCtrl F.fltCtrl_HOLD = hold ∧ u.fget .echoCtrl F.echoCtrl_MODE = em % 4 ∧ u.flag .echoCtrl F.echoCtrl_FULL = ef ∧
            u.fget .admCtrl F.admCtrl_MODE = am % 2
      (lc ≠ 3 → Answers i s fun u => bootPhase u = 3 ∧ table u ∧ (∀ r, r = .fltStatus → BitsBut [F.fltStatus_RTAB_BAD.lo] (s.reg r) (u.reg r)) ∧
        (∀ n < 6, bitOf (u.reg .bootCfg) n = (sel n).1.isSome ∧ bitOf (u.reg .bootCfg) (8 + n) = (sel n).2.1 ∧ bitOf (u.reg .bootCfg) (16 + n) = (sel n).2.2) ∧
        (∀ k : BitVec 3, u.reg (.bootCfgDigest k) = (sha3 (applied.flatMap FlashRec.bytes)).extractLsb' (224 - 32 * k.toNat) 32) ∧
        Only { regs := fun r => plain r ∨ setBy r, parts := [.boot, .net] } s u) ∧
      (lc ≠ 3 → applied = [] → Answers i s fun u => u.boot.cfg = cfg ∧ u.net = net ∧ u.reg .pwrHostCap = Reg.reset .pwrHostCap ∧
        u.reg .pwrIdle = Reg.reset .pwrIdle ∧ u.reg .pwrThermLim = Reg.reset .pwrThermLim ∧ u.reg .ptpRelMargin = Reg.reset .ptpRelMargin ∧
        u.fget .bxtCfg F.bxtCfg_UDP_PORT = 0xBE58 ∧ u.fget .admCtrl F.admCtrl_MODE = 0 ∧ u.fget .echoCtrl F.echoCtrl_MODE = 0 ∧
        ∀ f ∈ [F.hifPolicy_LINK, F.hifPolicy_CKPT, F.hifPolicy_PWR, F.hifPolicy_DRBG], u.flag .hifPolicy f = false) ∧
      (∀ r b, lc ≠ 3 → applied = [r] → Config.recordBody r.typ r.body = some b → kind b = r.typ → Answers i s (sets b)) ∧
      (lc = 3 → Answers i s fun u => bootPhase u = 3 ∧ u.boot.table = (flashTable u).getD {} ∧ u.fget .bootCfg F.bootCfg_APPLIED = 0 ∧ u.boot.cfg = cfg ∧
        (∀ g ∈ [flashRegion s 3, flashRegion s 4], ∀ k < g.2, u.byte (flash (g.1 + k)) = 0xFF) ∧
        Only {
          regs := fun r => plain r ∨ setBy r
          mem := fun a => ∃ g ∈ [flashRegion s 3, flashRegion s 4], flash g.1 ≤ a ∧ a < flash g.1 + g.2
          parts := [.boot, .net] } s u)) ∧
    (at_ 3 →
      let dies (tiles : List TileId) (P : State → Prop) : Prop :=
        (∀ unread, Answers (.bootPhaseEnd unread ⟨tiles, []⟩) s P) ∧ ∀ ks ls, Answers (.phaseBoundExpiry tiles ks ls) s P
      let whole := s.boot.fusedTiles = [] ∧ s.boot.table.tiles = [] ∧ s.boot.table.rows = [] ∧ s.boot.fusedRows = [] ∧
        s.flag .glbStatus F.glbStatus_GRADE_EFF = false
      dies [] (fun u => bootPhase u = 4 ∧
        u.flag .glbStatus F.glbStatus_GRADE_EFF = (s.flag .glbStatus F.glbStatus_GRADE_EFF || !s.boot.table.rows.isEmpty) ∧
        (∀ (d : DieId) (r : BitVec 4),
          let gone := rowRetired s d r.toNat
          let rank := ((List.range r.toNat).filter fun i => !rowRetired s d i).length
          let top := if u.flag .glbStatus F.glbStatus_GRADE_EFF then 14 else 16
          u.fget (.dieRowmap d r) F.dieRowmap_LROW = (if gone = false ∧ rank < top then rank else 15) ∧
          u.flag (.dieRowmap d r) F.dieRowmap_RETIRED = gone ∧
          u.flag (.dieRowmap d r) F.dieRowmap_FUSED = decide (gone = false ∧ top ≤ rank)) ∧
        (s.boot.table.remaps = [] → ∀ k, stackState u k = (if stackState s k = 5 ∨ ∃ n ∈ s.boot.table.badStacks, BitVec.ofNat 5 n = k then 5 else 1) ∧
          u.boot = { s.boot with tblCrc := (List.range 48).map tableCrc }) ∧
        Only { regs := fun r => r = .bootStatus ∨ r = .glbStatus ∨ (∃ d q, r = .dieRowmap d q) ∨
                 (∃ d q, r = .utileStatus d q) ∨ ∃ k, r = .hbmSpare0 k ∨ r = .hbmSpare1 k ∨ r = .hbmErr k ∨ r = .hbmStatus k,
               mem := fun a => s.boot.table.remaps ≠ [] ∧ flashByte a,
               parts := [.boot, .latched, .held] } s u) ∧
      (whole → ∀ t : TileId,
       let retired (u : State) : Prop :=
        let reg : Reg := .dieRowmap (dieOf t) (rowOf t)
        bootPhase u = 4 ∧ marked (dieOf t).toNat t.toNat u ∧ signals 1 u ∧ u.fget reg F.dieRowmap_UNMAPPED = (colOf t).toNat ∧
        u.flag reg F.dieRowmap_SHIFTED = true ∧ u.flag reg F.dieRowmap_NOSPARE = true ∧
        u.fget (.utileStatus (dieOf t) (rowOf t)) F.tileStatus_STATE = 7 ∧
        u.boot.table.tiles = [((dieOf t).toNat, (rowOf t).toNat, (colOf t).toNat)];
       dies [t] retired ∧ ∀ unread, Answers (.bootPhaseEnd unread ⟨[], [t]⟩) s fun u => retired u ∧
         u.flag (.cgsFault (dieOf t)) F.cgsFault_TBL_MISMATCH = true)) ∧
    (at_ 4 →
      let ready (bad : BitVec 5 → Prop) (u : State) : Prop := bootPhase u = 5 ∧
        ∀ k, (bad k ∨ stackState s k = 5 → stackState u k = 5) ∧ (¬ bad k → stackState s k ≠ 5 → stackState u k = 2)
      let scope (regs : Reg → Prop) (mem : Nat → Prop) (parts : List Part) : Scope :=
        { regs := fun r => r = .bootStatus ∨ (∃ k, r = .hbmStatus k) ∨ regs r, mem, parts }
      (starting fun i => Answers i s fun u => ready (fun _ => False) u ∧ Only (scope (fun _ => False) (fun _ => False) []) s u) ∧
      ∀ tiles ks ls, Answers (.phaseBoundExpiry tiles ks ls) s fun u => ready (· ∈ ks) u ∧ signals ks.length u ∧
        (∀ k ∈ ks, k.toNat ∈ u.boot.table.badStacks) ∧ (∀ k, ks.getLast? = some k → marked (k.toNat / 4) k.toNat u) ∧
        Only (scope (fun r => r = .glbStatus ∨ recRegs r) (fun a => ks ≠ [] ∧ flashByte a) [.boot, .hif]) s u) ∧
    (at_ 5 →
      let isUp (u : State) (d : DieId) (l : BitVec 2) : Prop := u.flag (.d2dStat d l) F.d2dStat_UP = true
      let isReadyNow (u : State) : Prop := bootPhase u = 6 ∧ u.flag .glbStatus F.glbStatus_READY = true
      let regs (r : Reg) : Prop := r = .bootStatus ∨ r = .glbStatus ∨ ∃ d l, r = .d2dStat d l
      let quietly := s.boot.cfg.standing = none ∧ s.hif.heldBells = []
      (quietly → starting fun i => Answers i s fun u => isReadyNow u ∧ (∀ x ∈ dieLinks, isUp u x.1 x.2) ∧ Only { regs, parts := [.hif] } s u ∧
        u.hif = s.hif) ∧
      (quietly → ∀ tiles ks ls, Answers (.phaseBoundExpiry tiles ks ls) s fun u => isReadyNow u ∧
        (∀ x ∈ dieLinks, isUp u x.1 x.2 ↔ x ∉ ls ∧ ∀ y ∈ ls, y ∈ dieLinks → farEnd y.1 y.2 ≠ some x) ∧
        (∀ x, (ls.filter fun x => dieLinks.contains x).getLast? = some x → marked x.1.toNat x.2.toNat u) ∧
        signals (ls.filter fun x => dieLinks.contains x).length u ∧
        Only { regs := fun r => regs r ∨ recRegs r, parts := [.hif] } s u) ∧
      (∀ (q : BitVec 6) v now, s.boot.cfg.standing = none → s.hif.heldBells = [(0, q.toNat, v)] → pstate s = 0 → s.pwr.exiting = false →
        s.pwr.req = none → starting fun i => ∃ m, isReadyNow m ∧ m.hif = { s.hif with heldBells := [] } ∧ Only { regs, parts := [.hif] } s m ∧
          exec i s = exec (.sqTailDoorbell q v now) m) ∧
      (∀ r : StandRec, s.boot.cfg.standing = some r → s.hif.heldBells = [] → r.start ≠ 0 → starting fun i => Answers i s fun u =>
        let a := (hbmTop s - r.length) / 4096 * 4096
        let code := u.fget (.imgStatus 0) F.imgStatus_CODE
        isReadyNow u ∧ u.bytes (hbm a) r.length = s.bytes (flash ((flashRegion s 4).1 + r.offset)) r.length ∧
        u.job = s.job ∧ (u.slot 0).addr = a ∧ (u.slot 0).loading = false ∧
        (u.fget (.imgStatus 0) F.imgStatus_STATE = 2 ∧ code = 0 ∧ u.boot = { s.boot with standHost := true } ∨
          u.fget (.imgStatus 0) F.imgStatus_STATE = 3 ∧ u.fget .bootStatus F.bootStatus_STAND_ERR = code ∧ u.boot = s.boot) ∧
        Only {
          regs := fun x => regs x ∨ x = .imgStatus 0 ∨ x = .imgWhere 0 ∨ x = .imgWhereItem 0
          mem := fun b => hbm a ≤ b ∧ b < hbm a + r.length
          parts := [.hif, .slots, .boot] } s u)) ∧
    (Powered s .bootCtrl →
      let starts := s.boot.standHost = true ∧ s.flag .glbStatus F.glbStatus_READY = true ∧ s.job.phase = .none
      (¬ starts → Answers .start s fun u => u = s) ∧
      (starts → s.boot.cfg.standing = none → Answers .start s fun u => u = { s with boot := { s.boot with standHost := false } }) ∧
      (∀ r : StandRec, starts → s.boot.cfg.standing = some r →
        let before : State := { s with boot := { s.boot with standHost := false } }
        let want := { wantedJob before r.block 0 64 true with jobId := s.job.jobId }
        let asked : State := { before with job := want }
        (∀ code, loadStop asked = some (.code code) → (s.qp 64).busy = none → Answers .start s fun u =>
          u.job = { jobId := s.job.jobId } ∧ u.fget .bootStatus F.bootStatus_STAND_ERR = code % 256 ∧ u.boot = before.boot ∧
          u.net = { s.net with waitJoin := false } ∧ (∀ r, loadResults r = true → u.reg r = r.reset) ∧
          Only { regs := fun r => r = .bootStatus ∨ loadResults r = true, parts := [.boot, .job, .net] } s u) ∧
        (loadStop asked = none → Answers .start s fun u => u.job = want ∧ u.boot = before.boot ∧
          u.net.waitJoin = !(otherRanks asked).isEmpty ∧ Only { parts := [.boot, .job, .net] } s u))) ∧
    (Powered s .bootCtrl →
      (s.job.phase ≠ .none → Answers .enterRecovery s fun u => BitSet .bootStatus F.bootStatus_ENTER_DROP s u ∧ Only { regs := (· = .bootStatus) } s u) ∧
      (s.job.phase = .none → inRecovery s = true → Answers .enterRecovery s fun u => u = s) ∧
      (s.job.phase = .none → inRecovery s = false → Answers .enterRecovery s (recovers [])))

/-- The entropy block (R133, R135, R417-R427, R435). -/
def Obligations.EntropyIsTestedSeededAndServed : Prop :=
  ∀ s : State, MemOk s → RegsOk s →
    let e := s.ent
    let state (u : State) : Nat := u.fget .entStatus F.entStatus_STATE
    let seeded (u : State) : Bool := u.flag .entStatus F.entStatus_SEEDED
    let reqs (u : State) : Nat := u.fget .entReqSince F.entReqSince_REQS
    let lists := e.waiting ++ e.mcQueue
    let dead : Ent := { e with key := 0, v := 0, pool := [], waiting := [], mcQueue := [], hostInput := none, reseedDue := false, alarm := true }
    let alarmed (causes : List Fld) (u : State) : Prop :=
      u.ent = dead ∧ state u = 4 ∧ seeded u = false ∧ u.fget .entStatus F.entStatus_WAITING = 0 ∧ u.flag .entAlarm F.entAlarm_ALARM = true ∧
      (∀ f ∈ causes, u.flag .entAlarm f = true) ∧ BitsBut (31 :: causes.map Fld.lo) (s.reg .entAlarm) (u.reg .entAlarm) ∧
      u.pins = { s.pins with alertN := false } ∧ (2 ∈ u.hif.msix ∨ 2 ∈ u.hif.pba)
    let raises (i : Instr) (causes : List Fld) : Prop :=
      let regs (r : Reg) : Prop := r = .entAlarm ∨ r = .entStatus
      (e.hostInput = none → lists = [] → Answers i s fun u => alarmed causes u ∧ u.hif = s.hif.signalled 2 ∧
        Only { regs, parts := [.ent, .pins, .hif] } s u) ∧
      (e.hostInput ≠ none → lists = [] → Answers i s fun u => alarmed causes u ∧ u.fget .mbxStatus F.mbxStatus_CODE = 0x81 ∧
        u.flag .mbxStatus F.mbxStatus_DONE = true ∧ u.flag .mbxStatus F.mbxStatus_BUSY = false ∧
        u.hif = (s.hif.signalled 0).signalled 2 ∧ Only { regs := fun r => regs r ∨ r = .mbxStatus, parts := [.ent, .pins, .hif] } s u) ∧
      (e.hostInput = none → lists ≠ [] → (∀ r ∈ lists, r.use = .attest) → Answers i s fun u => alarmed causes u ∧
        u.flag .secAttCtrl F.secAttCtrl_BUSY = false ∧ u.fget .secAttCtrl F.secAttCtrl_RESULT = 0x81 ∧
        Only { regs := fun r => regs r ∨ r = .secAttCtrl, parts := [.ent, .pins, .hif] } s u) ∧
      (e.hostInput = none → (∀ r ∈ lists, ∃ dst n, r.use = .hello dst n) → Answers i s fun u => alarmed causes u ∧
        Only { regs, parts := [.ent, .pins, .hif] } s u) ∧
      (∀ n t, e.hostInput = none → n < 16 → lists = [{ bits := 128, use := .fresh n }] → s.job.phase ≠ .none →
        (∀ p ∈ s.tiles, p.2.ctl = none ∧ (p.1 ≠ t → p.2.waits = [])) → tfind s.tiles t = some (s.tile t) → (s.tile t).waits = [.fresh n] →
        Answers i s fun u => alarmed causes u ∧ (∀ d, bitOf (u.reg (.cgsPending d)) n = false) ∧
          u.flag (.cgsFault (dieOf t)) F.cgsFault_FRESH_FAIL = true ∧ (u.tile t).waits = [] ∧
          Faulted { code := 0x81, die := (dieOf t).toNat, loc := t.toNat } s u ∧ (jobLoaded s = true → Stopping u) ∧
          Only (faultScope (fun r => regs r ∨ r = .cgsFault (dieOf t) ∨ ∃ d, r = .cgsPending d) [.ent, .pins, .hif]) s u)
    let on := pstate s < 3 ∧ e.alarm = false ∧ state s ≠ 0 ∧ state s ≠ 4
    -- what two entries of a pool and a challenge lead to
    let instantiated (e1 : Ent) (a b : Digest) (ds : List Digest) (u : State) : Prop :=
      let e2 := conditionLoop 6 { (e1.instantiate s.otp.serial a b) with pool := ds }
      let blank := ∀ k, s.reg (.secChallenge k) = 0
      state u = 3 ∧ seeded u = true ∧ u.reg .entReseeds = 0 ∧
      (¬ blank → u.ent = e2 ∧ reqs u = 0 ∧ Only { regs := fun r => r = .entStatus ∨ r = .entReqSince ∨ r = .entReseeds, parts := [.ent] } s u) ∧
      (blank → u.ent = (e2.generate 2).2 ∧ reqs u = 1 ∧ u.sec = { s.sec with corkorTok := none, ownerTok := none } ∧
        (∀ k : BitVec 3, u.reg (.secChallenge k) = ((e2.generate 2).1.getD 0 0 ++ (e2.generate 2).1.getD 1 0).extractLsb' (224 - 32 * k.toNat) 32) ∧
        Only { regs := fun r => r = .entStatus ∨ r = .entReqSince ∨ r = .entReseeds ∨ r = .secTokenStatus ∨ ∃ k, r = .secChallenge k,
               parts := [.ent, .sec] } s u)
    (∀ src bits, let cs := healthCauses s src bits
      (on → src < 3 → cs ≠ [] → raises (.healthTestFail src bits) cs) ∧
      (¬ on ∨ 3 ≤ src ∨ cs = [] → Answers (.healthTestFail src bits) s fun u => u = s)) ∧
    (∀ src bits,
      let i : Instr := .conditionedOutput src bits
      let cs := healthCauses s src (bufBits bits)
      let x0 := tget e.src {} src
      let x := (rctRun src x0 (bufBits bits)).1
      let good := on ∧ src < 3 ∧ cs = []
      let e1 := conditionLoop 6 { e with src := tset e.src src { x with full := x.full.orElse fun _ => some bits } }
      (¬ on ∨ 3 ≤ src → Answers i s fun u => u = s) ∧
      (on → src < 3 → cs ≠ [] → raises i cs) ∧
      (good → x0.passed = false → Answers i s fun u => u.ent = { e with src := tset e.src src { x with passed := true } } ∧ Only { parts := [.ent] } s u) ∧
      (good → x0.passed = true → x0.full = none → e.next = src → e.pool.length < 4 → (tget e.src {} ((src + 1) % 3)).full = none →
        e1.pool = e.pool ++ [sha3 (leBytes 128 bits.toNat)] ∧ e1.next = (src + 1) % 3 ∧ (tget e1.src {} src).full = none) ∧
      (good → x0.passed = true → x0.full = none → 4 ≤ e.pool.length → e1.pool = e.pool ∧ (tget e1.src {} src).full = some bits) ∧
      (good → x0.passed = true → state s = 3 → seeded s = true → e.hostInput = none → Answers i s fun u => u.ent = e1 ∧ Only { parts := [.ent] } s u) ∧
      (∀ d ds h, good → x0.passed = true → state s = 3 → seeded s = true → e.hostInput = some h → e1.pool = d :: ds → Answers i s fun u =>
        u.ent = conditionLoop 6 { (e1.reseed d h) with pool := ds, hostInput := none } ∧ reqs u = 0 ∧ u.reg .entReseeds = sat32 (s.reg .entReseeds) 1 ∧
        u.fget .entHostInput F.entHostInput_APPLIED = min 0xFFFF (s.fget .entHostInput F.entHostInput_APPLIED + 1) ∧
        u.fget .mbxStatus F.mbxStatus_CODE = 0 ∧ u.flag .mbxStatus F.mbxStatus_DONE = true ∧ u.flag .mbxStatus F.mbxStatus_BUSY = false ∧
        u.hif = s.hif.signalled 0 ∧
        Only { regs := fun r => r = .entReqSince ∨ r = .entReseeds ∨ r = .entHostInput ∨ r = .mbxStatus, parts := [.ent, .hif] } s u) ∧
      (good → x0.passed = true → state s = 1 ∨ state s = 2 → seeded s = false → e.hostInput = none →
        (e.katPassed = false ∨ e1.pool.length < 2 → Answers i s fun u => u.ent = e1 ∧ Only { parts := [.ent] } s u) ∧
        ∀ a b ds, e.katPassed = true → e1.pool = a :: b :: ds → Answers i s (instantiated e1 a b ds))) ∧
    (∀ condOk drbgOk,
      let i : Instr := .katComplete condOk drbgOk
      let due := state s = 2 ∨ (state s = 1 ∧ e.katPassed = false ∧ ∀ k < 3, (tget e.src {} k).passed = true)
      let e1 := { e with katPassed := true }
      (¬ on ∨ ¬ due → Answers i s fun u => u = s) ∧
      (on → due → condOk = false ∨ drbgOk = false → raises i
        ((if condOk then [] else [F.entAlarm_KAT_COND]) ++ if drbgOk then [] else [F.entAlarm_KAT_DRBG])) ∧
      (on → due → condOk = true → drbgOk = true → e.pool.length < 2 → Answers i s fun u => u.ent = e1 ∧ seeded u = false ∧ state u = state s ∧
        Only { regs := (· = .entStatus), parts := [.ent] } s u) ∧
      (∀ a b ds, on → due → condOk = true → drbgOk = true → e.pool = a :: b :: ds → Answers i s (instantiated e1 a b ds))) ∧
    (Powered s .entCtrl →
      (state s = 3 → Answers .kat s (fun u => u.ent = { e with katPassed := false } ∧ state u = 2 ∧ seeded u = seeded s ∧
          Only { regs := (· = .entStatus), parts := [.ent] } s u) ∧
        Answers .reseed s fun u => u = { s with ent := { e with reseedDue := true } }) ∧
      (state s ≠ 3 → Answers .kat s (fun u => u = s) ∧ Answers .reseed s fun u => u = s)) ∧
    (e.waiting = [] → Answers .drbgGenerate s fun u => u = s) ∧
    (∀ r rest, e.waiting = r :: rest →
      let i : Instr := .drbgGenerate
      let runs := state s = 3 ∧ seeded s = true
      let due := e.reseedDue = true ∨ 65536 ≤ reqs s
      let n := ceilDiv r.bits 128
      -- the state of the DRBG before the request, and what the request leaves
      let served (e1 : Ent) (count : Nat) (more : Reg → Prop) (u : State) : Prop :=
        let g := e1.generate n
        let regs (x : Reg) : Prop := x = .entReqSince ∨ x = .entStatus ∨ more x
        let k := 64 - rest.length
        u.ent = { g.2 with waiting := rest ++ e.mcQueue.take k, mcQueue := e.mcQueue.drop k } ∧ reqs u = count ∧
        u.fget .entStatus F.entStatus_WAITING = (rest ++ e.mcQueue.take k).length % 256 ∧ state u = 3 ∧ seeded u = true ∧
        match r.use with
        | .fresh entry => u.job = { s.job with fresh := s.job.fresh ++ [(entry, BitVec.ofNat 128 (drbgValue g.1))] } ∧
            Only { regs, parts := [.ent, .job] } s u
        | .attest => u.sec = { s.sec with attRnd := some (g.1.getD 0 0 ++ g.1.getD 1 0) } ∧ Only { regs, parts := [.ent, .sec] } s u
        | .hello dst _ => Only { regs, parts := [.ent, .net] } s u ∧ (hasIdentity s = false → u.net = s.net) ∧
            (dst = none → hasIdentity s = true → u.net.helloNonce = drbgValue (g.1.take 2) ∧
              u.net.sent.length = s.net.sent.length + (portsUp s).length ∧
              ∀ f ∈ u.net.sent.drop s.net.sent.length, f.typ = 1 ∧ f.addr = ownAddr s ∧ f.port ∈ portsUp s)
      (¬ runs → Answers i s fun u => u = s) ∧
      (runs → due → e.pool = [] → Answers i s fun u => u = s) ∧
      (runs → ¬ due → Answers i s (served e (reqs s + 1) fun _ => False)) ∧
      (∀ d ds, runs → due → e.pool = d :: ds → e.hostInput = none → Answers i s fun u =>
        served (conditionLoop 6 { (e.reseed d []) with pool := ds }) 1 (· = .entReseeds) u ∧ u.reg .entReseeds = sat32 (s.reg .entReseeds) 1))

/-- Lifecycle, debug and attestation (R319, R429-R445). -/
def Obligations.LifecycleDebugAndAttestationAct : Prop :=
  ∀ s : State, MemOk s → RegsOk s →
    let e := s.ent
    let lc := s.fget .secLc F.secLc_STATE
    let T := s.fget .secLc F.secLc_TCOUNT
    let cork := s.sec.corkorTok
    let own := s.sec.ownerTok
    let runs := s.fget .entStatus F.entStatus_STATE = 3 ∧ s.flag .entStatus F.entStatus_SEEDED = true
    let due := e.reseedDue = true ∨ 65536 ≤ s.fget .entReqSince F.entReqSince_REQS
    -- what drawing a challenge after `k` blocks' requests leaves
    let shows (bs : List U128) (u : State) : Prop :=
      ∀ k : BitVec 3, u.reg (.secChallenge k) = (bs.getD 0 0 ++ bs.getD 1 0).extractLsb' (224 - 32 * k.toNat) 32
    let challenged (u : State) : Prop := u.sec.corkorTok = none ∧ u.sec.ownerTok = none ∧
      u.fget .secTokenStatus F.secTokenStatus_ACCEPTED = 0 ∧
      (runs → ¬ due → shows (e.generate 2).1 u ∧ u.ent = (e.generate 2).2) ∧
      (∀ d ds, runs → due → e.pool = d :: ds → e.hostInput = none →
        let e1 := conditionLoop 6 { (e.reseed d []) with pool := ds }
        shows (e1.generate 2).1 u ∧ u.ent = (e1.generate 2).2) ∧
      (¬ runs ∨ (due ∧ e.pool = []) → (∀ k, u.reg (.secChallenge k) = 0) ∧ u.ent = e)
    let chalRegs (r : Reg) : Prop := r = .secTokenStatus ∨ (∃ k, r = .secChallenge k) ∨ r = .entReqSince ∨ r = .entReseeds ∨
      (e.hostInput ≠ none ∧ (r = .entHostInput ∨ r = .mbxStatus))
    let chalParts : List Part := [.ent, .sec, .hif]
    (Powered s .secTokenCtrl →
      let h := tokenBytes s 64
      let n := 64 + leAt h 56 4
      let bs := tokenBytes s (n + 2420)
      let owner := leAt h 5 1 = 1
      let result (k : Nat) : Prop := Answers .tokenVerify s fun u => u.fget .secTokenStatus F.secTokenStatus_RESULT = k ∧
        u.fget .secTokenStatus F.secTokenStatus_ACCEPTED = s.fget .secTokenStatus F.secTokenStatus_ACCEPTED ∧ Only { regs := (· = .secTokenStatus) } s u
      let ok1 := tokenFormat h = true
      let ok2 := ok1 ∧ leAt h 8 16 = s.otp.serial.toNat
      let ok3 := ok2 ∧ (∃ b ∈ challengeNow s, b ≠ 0) ∧ (h.drop 24).take 32 = challengeNow s
      let ok4 := ok3 ∧ (owner → (ownerOf s).isSome = true)
      let key := if leAt h 5 1 = 1 then ((ownerOf s).map OwnerEntry.key).getD [] else s.otp.corkorKey
      let signed := Config.mldsaVerify key (sha3 (bs.take n)) (bs.drop n) = true
      let tok : Token := { typ := leAt h 4 1, signer := leAt h 5 1, arg := leAt h 6 1, payload := ((tokenBytes s 1376).drop 64).take (leAt h 56 4) }
      (¬ ok1 → result 1) ∧ (ok1 → ¬ ok2 → result 2) ∧ (ok2 → ¬ ok3 → result 3) ∧ (ok3 → ¬ ok4 → result 5) ∧ (ok4 → ¬ signed → result 4) ∧
      (ok4 → signed → Answers .tokenVerify s fun u => u.fget .secTokenStatus F.secTokenStatus_RESULT = 0 ∧
        u.sec = (if leAt h 5 1 = 1 then { s.sec with ownerTok := some tok } else { s.sec with corkorTok := some tok }) ∧
        u.fget .secTokenStatus F.secTokenStatus_ACCEPTED = b2n u.sec.corkorTok.isSome + 2 * b2n u.sec.ownerTok.isSome ∧
        Only { regs := (· = .secTokenStatus), parts := [.sec] } s u) ∧
      Answers .newChallenge s fun u => challenged u ∧ u.sec = { s.sec with corkorTok := none, ownerTok := none } ∧
        Only { regs := chalRegs, parts := chalParts } s u) ∧
    (Powered s .secLcReq → (s.sec.resetDue = true → ∀ t bad, Answers (.lifecycleTransition t bad) s fun u => u = s) ∧
      (s.sec.resetDue = false → ∀ (t : BitVec 3) bad,
        let i : Instr := .lifecycleTransition t bad
        let n := t.toNat
        let result (k : Nat) : Prop := Answers i s fun u => u.fget .secLcReq F.secLcReq_RESULT = k ∧ Only { regs := (· = .secLcReq) } s u
        let has (x : Option Token) (typ : Nat) : Prop := ∃ y, x = some y ∧ y.typ = typ
        let ok1 := (n = 4 ∧ lc ≤ 3) ∨ (n = 1 ∧ (lc = 0 ∨ lc = 3)) ∨ (n = 2 ∧ lc = 1) ∨ (n = 3 ∧ lc = 2)
        let ok2 := ok1 ∧ s.job.phase = .none
        let ok3 := ok2 ∧ (n = 1 → has cork 2) ∧ (n = 2 → has own 3) ∧ (n = 3 → has own 4 ∧ has cork 4) ∧
          (n = 4 → has cork 5 ∧ (lc = 1 ∨ lc = 2 → has own 5))
        let ok4 := ok3 ∧ (n = 1 → T + 1 ≤ 10)
        let ok5 := ok4 ∧ (n = 1 → s.fget .entStatus F.entStatus_STATE = 3)
        let ok := ok5 ∧ (n = 1 → entryFree s = true)
        let k := T / 3
        let key := (cork.map Token.payload).getD []
        let v := (lcVote s.otp).getD 0
        let w := v ||| (if n = 4 then 0x80000000#32 else BitVec.ofNat 32 (2 ^ (T + 1) - 1))
        let closed (u : State) : Prop := u.sec.session = 0 ∧ u.fget .secDbgStatus F.secDbgStatus_LEVEL = 0 ∧ ∀ x, u.tile x = (s.tile x).unhalt
        let copied (u : State) : Prop := (∀ c, tget u.otp.lc 0 c = tget s.otp.lc 0 c ||| (if c < 3 ∧ bad.all (fun b => decide (c + 2 < b)) then w else 0)) ∧
          u.otp.revoked = s.otp.revoked ∧ u.otp.keys = s.otp.keys ∧ u.otp.serial = s.otp.serial
        let finished (u : State) : Prop := u.fget .secLcReq F.secLcReq_RESULT = 0 ∧ u.sec.resetDue = true ∧
          u.fget .secLc F.secLc_STATE = (lcDecode w).getD 4 ∧ u.fget .secLc F.secLc_TCOUNT = min 12 (lcCount w) ∧
          (3 ≤ n → u.tiles = [] ∧ (∀ a, a < spaceBase 1 ∨ (spaceBase 16 ≤ a ∧ a < dieSpaces) → u.byte a = memDefault) ∧
            ∀ g ∈ [flashRegion s 3, flashRegion s 4], ∀ b < g.2, u.byte (flash (g.1 + b)) = 0xFF) ∧
          (n < 3 → closed u)
        let scope : Scope := {
          regs := fun r => chalRegs r ∨ r = .secLcReq ∨ r = .secLc ∨ (∃ j, r = .secId j) ∨ r = .secDbgStatus ∨ (3 ≤ n ∧ r.lostInDoze = true)
          tiles := fun _ => True
          mem := fun a => 3 ≤ n ∧ (a < spaceBase 1 ∨ (spaceBase 16 ≤ a ∧ a < dieSpaces) ∨
            ∃ g ∈ [flashRegion s 3, flashRegion s 4], flash g.1 ≤ a ∧ a < flash g.1 + g.2)
          parts := [.otp, .sec, .ent, .hif] ++ if 3 ≤ n then [.rows, .latched, .held, .pwr] else [] }
        (¬ ok1 → result 1) ∧ (ok1 → ¬ ok2 → result 2) ∧ (ok2 → ¬ ok3 → result 3) ∧ (ok3 → ¬ ok4 → result 4) ∧ (ok4 → ¬ ok5 → result 5) ∧
        (ok5 → ¬ ok → result 6) ∧
        (ok → n ≠ 1 → bad = none → Answers i s fun u => finished u ∧ copied u ∧ challenged u ∧ u.otp.ident = s.otp.ident ∧ u.otp.owner = s.otp.owner ∧
          Only scope s u) ∧
        (ok → n ≠ 1 → bad ≠ none → Answers i s fun u => u.fget .secLcReq F.secLcReq_RESULT = 7 ∧ closed u ∧ copied u ∧ challenged u ∧
          u.sec.resetDue = false ∧ u.reg .secLc = s.reg .secLc ∧ Only scope s u) ∧
        (∀ seed : BitVec 256, ok → n = 1 → bad = none → tfind s.otp.ident k = none → tfind s.otp.owner k = none → runs → ¬ due →
          seed = (e.generate 2).1.getD 0 0 ++ (e.generate 2).1.getD 1 0 → Answers i s fun u => finished u ∧ copied u ∧
            tfind u.otp.ident k = some { wrapped := seed ^^^ Config.wrapMask s.otp.deviceKey, digest := sha3 (Config.mldsaPublic seed) } ∧
            tfind u.otp.owner k = some { key, digest := sha3 key } ∧ u.sec.corkorTok = none ∧ u.sec.ownerTok = none ∧ Only scope s u) ∧
        (∀ x, ok → n = 1 → bad = none → tfind s.otp.ident k = some x → Answers i s fun u => finished u ∧ copied u ∧ challenged u ∧
          u.otp.ident = s.otp.ident ∧ (∀ y, tfind s.otp.owner k = some y → u.otp.owner = s.otp.owner) ∧
          (tfind s.otp.owner k = none → tfind u.otp.owner k = some { key, digest := sha3 key }) ∧ Only scope s u) ∧
        (ok → n = 1 → tfind s.otp.ident k = none → ¬ runs ∨ (due ∧ e.pool = []) → Answers i s fun u =>
          u.fget .secLcReq F.secLcReq_RESULT = 5 ∧ closed u ∧ u.otp = s.otp ∧ Only scope s u) ∧
        (ok → n = 1 → bad = some 0 → tfind s.otp.ident k = none → runs → ¬ due → Answers i s fun u =>
          u.fget .secLcReq F.secLcReq_RESULT = 7 ∧ closed u ∧ u.otp = s.otp ∧ Only scope s u))) ∧
    ((s.sec.resetDue = false → Answers .lifecycleSelfReset s fun u => u = s) ∧
      (s.sec.resetDue = true → Answers .lifecycleSelfReset s fun u => Cleared (leaves s) (fun r => r = .bootStatus ∨ r = .pwrFault) s u ∧
        u.sec.resetDue = false ∧ u.boot.started = (s.pins.inputUp && s.pins.perstN && s.pins.ref25) ∧ Only (resetScope [.pins]) s u)) ∧
    (Powered s .secDbgCtrl → ∀ (v : U32) jtag,
      let i : Instr := .debugOpen v jtag
      let n := F.secDbgCtrl_LEVEL.get v
      let asks := jtag = false ∨ n = 4
      let source := if jtag then 3 else 1
      let free := n = 1
      let corkor := (2 ≤ n ∧ n ≤ 4 ∧ lc ≤ 1) ∨ (n = 4 ∧ lc = 3)
      let owners := (n = 2 ∨ n = 3) ∧ lc = 2
      let held := free ∨ (corkor ∧ ∃ t, cork = some t ∧ t.typ = 1 ∧ n ≤ t.arg) ∨ (owners ∧ ∃ t, own = some t ∧ t.typ = 1 ∧ n ≤ t.arg)
      let powered := if n = 1 then pstate s < 4 else pstate s < 3
      let shown (k : Nat) (u : State) : Prop := u.fget .secDbgCtrl F.secDbgCtrl_LEVEL = n ∧ u.fget .secDbgStatus F.secDbgStatus_RESULT = k
      let fails (k : Nat) : Prop := Answers i s fun u => shown k u ∧ BitsBut [12, 13, 14, 15] (s.reg .secDbgStatus) (u.reg .secDbgStatus) ∧
        Only { regs := fun r => r = .secDbgCtrl ∨ r = .secDbgStatus } s u
      let running := s.job.phase ≠ .none ∧ s.job.phase ≠ .loading
      let opened (u : State) : Prop := shown 0 u ∧ u.sec.session = n ∧ u.sec.source = source ∧ u.fget .secDbgStatus F.secDbgStatus_LEVEL = n ∧
        u.fget .secDbgStatus F.secDbgStatus_SRC = source ∧ u.fget .secDbgStatus F.secDbgStatus_MAX = max (s.fget .secDbgStatus F.secDbgStatus_MAX) n ∧
        u.flag .secDbgStatus F.secDbgStatus_TAINT = (s.flag .secDbgStatus F.secDbgStatus_TAINT || decide (3 ≤ n)) ∧
        (∀ x, u.tile x = (s.tile x).unhalt) ∧
        (3 ≤ n → running → u.fget .echoJob F.echoJob_CLASS = 2 ∧ bitOf (u.reg .echoJob) 6 = true)
      (¬ asks → Answers i s fun u => u = s) ∧
      (asks → ¬ free → ¬ corkor → ¬ owners → fails 1) ∧
      (asks → free ∨ corkor ∨ owners → ¬ held → fails 2) ∧
      (asks → held → ¬ powered → fails 3) ∧
      (asks → held → powered → n < 2 → Answers i s fun u => opened u ∧
        Only { regs := fun r => r = .secDbgCtrl ∨ r = .secDbgStatus, tiles := fun _ => True, parts := [.sec] } s u) ∧
      (asks → held → powered → 2 ≤ n → Answers i s fun u => opened u ∧ challenged u ∧
        Only { regs := fun r => r = .secDbgCtrl ∨ r = .secDbgStatus ∨ chalRegs r ∨ (3 ≤ n ∧ running ∧ r = .echoJob),
               tiles := fun _ => True, parts := chalParts } s u)) ∧
    (Powered s .secDbgCtrl → Answers .debugClose s fun u => (∀ x, u.tile x = (s.tile x).unhalt) ∧ u.sec = { s.sec with session := 0, source := 0 } ∧
      u.fget .secDbgStatus F.secDbgStatus_LEVEL = 0 ∧ u.fget .secDbgStatus F.secDbgStatus_SRC = 0 ∧
      BitsBut [0, 1, 2, 4, 5, 6, 7] (s.reg .secDbgStatus) (u.reg .secDbgStatus) ∧
      Only { regs := (· = .secDbgStatus), tiles := fun _ => True, parts := [.sec] } s u) ∧
    (Powered s .secHalt → ∀ v : U32,
      let named (x : TileId) : Prop := x ∈ jobTiles s ∧ (F.secHalt_ALL.get v = 1 ∨ F.secHalt_COORD.get v = x.toNat)
      let may := 3 ≤ s.sec.session
      let denied (i : Instr) : Prop := Answers i s fun u =>
        u.fget .secDbgStatus F.secDbgStatus_DENIED = min 0xFFFF (s.fget .secDbgStatus F.secDbgStatus_DENIED + 1) ∧ Only { regs := (· = .secDbgStatus) } s u
      let on (x : TileId) (m : TMode) : Prop := named x ∧ (s.tile x).mode = m
      let unique := (tkeys s.tiles).Nodup
      (¬ may → denied (.haltTile v) ∧ denied (.resumeTile v) ∧ denied (.stepTile v)) ∧
      (may → (∀ x, ¬ on x .run) → denied (.haltTile v)) ∧
      (may → unique → (∃ x, on x .run) → Answers (.haltTile v) s fun u => (∀ x, on x .run → u.tile x = { s.tile x with
          haltReq := true, stepsLeft := 0, mode := if (s.tile x).mid then .run else .halted }) ∧ Only { tiles := (on · .run) } s u) ∧
      (may → Answers (.resumeTile v) s fun u => (∀ x, named x → u.tile x = (s.tile x).unhalt) ∧ Only { tiles := named } s u) ∧
      (may → unique → Answers (.stepTile v) s fun u => (∀ x, on x .halted → u.tile x = { s.tile x with
          mode := .run, haltReq := true, stepsLeft := max 1 (F.secHalt_STEPS.get v) }) ∧ Only { tiles := (on · .halted) } s u)) ∧
    (Powered s .secKeyslot → ∀ bad,
      let revoked := s.fget .secKeyslot F.secKeyslot_REVOKED
      let result (k : Nat) : Prop := Answers (.keyRevoke bad) s fun u => u.fget .secKeyslot F.secKeyslot_RESULT = k ∧
        BitsBut [12, 13, 14, 15] (s.reg .secKeyslot) (u.reg .secKeyslot) ∧ Only { regs := (· = .secKeyslot) } s u
      let ok (t : Token) : Prop := cork = some t ∧ t.typ = 6 ∧ lc ≠ 4
      let last (t : Token) : Prop := revoked ||| 2 ^ t.arg = 15 ∧ revoked.testBit t.arg = false
      ((∀ t, ¬ ok t) → result 1) ∧
      (∀ t, ok t → last t → result 2) ∧
      (∀ t, ok t → ¬ last t → bad = true → result 3) ∧
      (∀ t, ok t → ¬ last t → bad = false → Answers (.keyRevoke bad) s fun u => u.fget .secKeyslot F.secKeyslot_RESULT = 0 ∧
        (∀ c < 3, tget u.otp.revoked 0 c = tget s.otp.revoked 0 c ||| BitVec.ofNat 4 (2 ^ t.arg)) ∧
        u.fget .secKeyslot F.secKeyslot_REVOKED = (revokedVote u.otp).toNat ∧ u.otp = { s.otp with revoked := u.otp.revoked } ∧ challenged u ∧
        Only { regs := fun r => r = .secKeyslot ∨ chalRegs r, parts := .otp :: chalParts } s u)) ∧
    (Powered s .secAttCtrl →
      let i : Instr := .attestationRequest
      let busy (u : State) : Bool := u.flag .secAttCtrl F.secAttCtrl_BUSY
      let asked (rnd : Option (BitVec 256)) (u : State) : Prop := u.sec = { s.sec with attNonce := regBytes s .secAttNonce, attRnd := rnd }
      let req : DrbgReq := { bits := 256, use := .attest }
      (busy s = true → Answers i s fun u => u = s) ∧
      (busy s = false → hasIdentity s = false → Answers i s fun u => u.fget .secAttCtrl F.secAttCtrl_RESULT = 1 ∧
        BitsBut [0, 1, 2, 3, 4, 5, 6, 7] (s.reg .secAttCtrl) (u.reg .secAttCtrl) ∧ Only { regs := (· = .secAttCtrl) } s u) ∧
      (busy s = false → hasIdentity s = true → e.alarm = true → Answers i s fun u => u.fget .secAttCtrl F.secAttCtrl_RESULT = 0x81 ∧ busy u = false ∧
        asked none u ∧ Only { regs := (· = .secAttCtrl), parts := [.sec] } s u) ∧
      (busy s = false → hasIdentity s = true → e.alarm = false → s.flt.mcAbsent = true → Answers i s fun u => busy u = true ∧ asked none u ∧
        u.ent = { e with mcQueue := e.mcQueue ++ [req] } ∧ Only { regs := (· = .secAttCtrl), parts := [.sec, .ent] } s u) ∧
      (busy s = false → hasIdentity s = true → e.alarm = false → s.flt.mcAbsent = false → Answers i s fun u => busy u = true ∧ asked none u ∧
        u.ent.waiting ++ u.ent.mcQueue = e.waiting ++ e.mcQueue ++ [req] ∧ (e.waiting.length ≤ 64 → u.ent.waiting.length ≤ 64) ∧
        u.ent = { e with waiting := u.ent.waiting, mcQueue := u.ent.mcQueue } ∧
        Only { regs := fun r => r = .secAttCtrl ∨ r = .entStatus, parts := [.sec, .ent] } s u)) ∧
    (s.sec.attRnd = none → Answers .attestationDone s fun u => u = s) ∧
    (∀ rnd, s.sec.attRnd = some rnd → Answers .attestationDone s fun u =>
      (∀ j : BitVec 10, j.toNat < 997 → u.reg (.secAttBuf j) = BitVec.ofNat 32 (leAt (evidence s s.sec.attNonce rnd) (4 * j.toNat) 4)) ∧
      u.flag .secAttCtrl F.secAttCtrl_DONE = true ∧ u.flag .secAttCtrl F.secAttCtrl_BUSY = false ∧ u.fget .secAttCtrl F.secAttCtrl_RESULT = 0 ∧
      u.sec = { s.sec with attRnd := none, attNonce := [] } ∧
      Only { regs := fun r => r = .secAttCtrl ∨ ∃ j, r = .secAttBuf j, parts := [.sec] } s u)

/-- The management endpoint and the TAP (R236, R327, R392, R399, R436, R456-R458). -/
def Obligations.ManagementAndTapAnswer : Prop :=
  ∀ s : State, MemOk s → RegsOk s →
    let up := s.pins.inputUp = true
    let aon (off : Nat) : Prop := 0x20000 ≤ off ∧ off < 0x20050
    let ready (off : Nat) : Prop := aon off ∨ (pstate s < 4 ∧ s.flt.mcAbsent = false)
    let answered (err : Nat) (ws : List U32) (u : State) : Prop := u.out.mctp = ws ∧ u.out.mctpErr = err
    let only (err : Nat) (ws : List U32) (u : State) : Prop := u = { s with out := { s.out with mctp := ws, mctpErr := err } }
    let logged (write : Bool) (off : Nat) (u : State) : Prop :=
      u.fget .offCount F.offCount_COUNT = min (2 ^ 31 - 1) (s.fget .offCount F.offCount_COUNT + 1) ∧
      u.fget (.offAddr 0) F.offAddr_OFFSET = off % 2 ^ 26 ∧ u.flag (.offAddr 0) F.offAddr_WRITE = write ∧ u.flag (.offAddr 0) F.offAddr_SRC = true ∧
      Only { regs := fun r => r = .offCount ∨ ∃ k, r = .offAddr k, parts := [.out] } s u
    let tapped (t : Tap) (w : U32) (u : State) : Prop := u = { s with pins := { s.pins with tap := t }, out := { s.out with tdo := w } }
    (∀ off now,
      let i : Instr := .readReg off now
      let may := s.sec.source = 2 ∨ ∃ r, regAt s off = some r ∧ r.isTelemetry = true
      let isOff := ¬ aon off ∧ offBlock s off = true
      (¬ up → Answers i s fun u => u = s) ∧
      (up → ¬ ready off → Answers i s (only 4 [])) ∧
      (up → ready off → ¬ may → Answers i s (only 2 [])) ∧
      (up → ready off → may → isOff → Answers i s fun u => answered 0 [offValue] u ∧ logged false off u) ∧
      (up → ready off → may → ¬ isOff → regAt s off = none → Answers i s fun u => answered 0 [0] u ∧ Only { parts := [.out] } s u) ∧
      (∀ r, up → ready off → may → ¬ isOff → regAt s off = some r → (∀ k, r ≠ .mbxEvt k) → (∀ t, r ≠ .tileSpmData t) → (∀ d k, r ≠ .utileSpmData d k) →
        (r.pairLo = none → r.pairHi = none → Answers i s fun u => answered 0 [readReg s r] u ∧ Only { parts := [.out] } s u) ∧
        (∀ h, r.pairLo = none → r.pairHi = some h → r ≠ .ptpTimeLo → Answers i s fun u => answered 0 [readReg s r] u ∧
          tget u.latched 0 h = readReg s h ∧ Only { parts := [.latched, .out] } s u) ∧
        (∀ l, r.pairLo = some l → Answers i s fun u => answered 0 [tget s.latched 0 r] u ∧ Only { parts := [.out] } s u))) ∧
    (∀ off v a,
      let i : Instr := .writeReg off v a
      let may := ∃ r, regAt s off = some r ∧ (r = .pwrReq ∨ r = .pwrRefuse ∨ r = .pwrFault ∨ r = .secTokenCtrl ∨ r = .secDbgCtrl ∨ ∃ k, r = .secTokenBuf k)
      let opens := off = 0x30040 ∧ s.flt.mcAbsent = false
      let isOff := ¬ aon off ∧ offBlock s off = true
      (¬ up → Answers i s fun u => u = s) ∧
      (up → ¬ may → Answers i s (only 2 [])) ∧
      (up → may → ¬ ready off → ¬ opens → Answers i s (only 4 [])) ∧
      (up → may → ready off ∨ opens → isOff → Answers i s fun u => answered 0 [] u ∧ logged true off u) ∧
      (∀ r, up → may → ready off → ¬ isOff → regAt s off = some r → r = .pwrRefuse ∨ r = .pwrFault ∨ (∃ k, r = .secTokenBuf k) →
        Answers i s fun u => answered 0 [] u ∧ u.reg r = r.written (s.reg r) v &&& r.impl ∧ Only { regs := (· = r), parts := [.out] } s u) ∧
      (up → may → ready off ∨ opens → ¬ isOff → regAt s off = some .secDbgCtrl → F.secDbgCtrl_CLOSE.get v = 0 → F.secDbgCtrl_OPEN.get v = 1 →
        F.secDbgCtrl_LEVEL.get v = 1 → Answers i s fun u => answered 0 [] u ∧ u.sec = { s.sec with session := 1, source := 2 } ∧
          u.fget .secDbgStatus F.secDbgStatus_LEVEL = 1 ∧ u.fget .secDbgStatus F.secDbgStatus_SRC = 2 ∧ u.fget .secDbgStatus F.secDbgStatus_RESULT = 0 ∧
          Only { regs := fun r => r = .secDbgCtrl ∨ r = .secDbgStatus, tiles := fun _ => True, parts := [.sec, .out] } s u)) ∧
    (∀ now,
      let acts := 1 ≤ pstate s ∧ pstate s ≤ 5
      let quiet := s.pwr.exiting = false ∧ s.pwr.req = none
      (¬ up → Answers (.wake now) s fun u => u = s) ∧
      (up → quiet → ¬ acts → Answers (.wake now) s (only 0 [])) ∧
      (up → quiet → acts → s.pins.thermtripN = true ∨ s.pwr.hot = [] → Answers (.wake now) s fun u => answered 0 [] u ∧
        u.fget .pwrWakeSrc F.pwrWakeSrc_SOURCE = 5 ∧ u.fget .pwrWakeSrc F.pwrWakeSrc_FROM = pstate s ∧ u.pwr.exiting = true ∧
        u.flag .pwrState F.pwrState_BUSY = true ∧ u.fget .pwrState F.pwrState_TARGET = 0 ∧ u.pins = { s.pins with thermtripN := true } ∧
        u.fget (.pwrWakeCnt 2) F.pwrWakeCnt_ODD = min 0xFFFF (s.fget (.pwrWakeCnt 2) F.pwrWakeCnt_ODD + 1) ∧
        Only { regs := fun r => r = .pwrWakeSrc ∨ r = .pwrWakeTimeLo ∨ r = .pwrWakeTimeHi ∨ r = .pwrWakeCnt 2 ∨ r = .pwrState,
               parts := [.pwr, .pins, .out] } s u) ∧
      (up → quiet → acts → s.pins.thermtripN = false → s.pwr.hot ≠ [] → Answers (.wake now) s fun u => answered 0 [] u ∧
        u.fget .pwrRefuse F.pwrRefuse_REASON = 8 ∧ u.hif = s.hif.signalled 4 ∧
        Only { regs := fun r => r = .pwrRefuse ∨ r = .pwrRefuseAgents, parts := [.hif, .out] } s u)) ∧
    ((¬ up → Answers .status s fun u => u = s) ∧
      (up → Answers .status s (only 0 ([s.reg .pwrState, s.reg .pwrFault, s.reg .pwrTherm] ++ if pstate s < 4 then [s.reg .glbStatus] else [])))) ∧
    ((¬ up → Answers .smbusAlertResponse s fun u => u = s) ∧
      (up → s.pins.alertN = true → Answers .smbusAlertResponse s fun u => u = { s with out := { s.out with smbusAra := none } }) ∧
      (up → s.pins.alertN = false → Answers .smbusAlertResponse s fun u => u = { s with
        pins := { s.pins with alertN := true }, out := { s.out with smbusAra := some (0x64 + s.pins.smbAddr.toNat) } })) ∧
    ((¬ up → ∀ t, Answers (.tapInstruction t) s fun u => u = s) ∧
      (up → Answers (.tapInstruction .idcode) s (tapped .idcode 0x1C580A9D) ∧ Answers (.tapInstruction .bypass) s (tapped .bypass 0)) ∧
      (up → s.sec.session ≠ 4 → ∀ n, Answers (.tapInstruction (.other n)) s (tapped .bypass 0)) ∧
      (up → s.sec.session = 4 → ∀ n, Answers (.tapInstruction (.other n)) s fun u => u.pins = { s.pins with tap := .other n } ∧
        u.out = { s.out with tdo := u.out.tdo } ∧ Only { parts := [.pins, .out, .free] } s u) ∧
      Answers .tapReset s (tapped .idcode 0x1C580A9D))

/-- R59. -/
def Obligations.FlowstoneFlagsGovernItsRead : Prop :=
  ∀ (t : TileId) (s : State), canAct s t = true → RegsOk s →
    let τ := s.tile t
    let φ := τ.fs
    let here : Scope := { regs := (· = .tileErr t), tiles := (· = t) }
    let returns (v : U32) (fl : FpFlags) : Prop := ∀ vd ln,
      Answers (.fsRead t vd ln) s (fun u => u.tile t = { inItsBeat s t with writes := τ.writes ++ [.lane vd ln v] } ∧ FpRaised t fl s u ∧ Only here s u) ∧
      Answers (.fsRdclr t vd ln) s (fun u => u.tile t = { inItsBeat s t with writes := τ.writes ++ [.lane vd ln v], fs := {} } ∧
        FpRaised t fl s u ∧ Only here s u)
    (∀ va ln, let a := lane (τ.vreg va) ln
      Answers (.fsAdd t va ln) s fun u =>
        let ψ := (u.tile t).fs
        u.tile t = { inItsBeat s t with fs := ψ } ∧ ψ.nan = (φ.nan || isNan32 a) ∧ (φ.pinf = true ∨ a = pinf32 → ψ.pinf = true) ∧ (φ.ninf = true ∨ a = ninf32 → ψ.ninf = true) ∧
        (isNan32 a = true ∨ isInf32 a = true → ψ.pinf = (φ.pinf || decide (a = pinf32)) ∧ ψ.ninf = (φ.ninf || decide (a = ninf32)) ∧ ψ.val = φ.val) ∧
        BitsBut [F.tileErr_FS_LIMIT.lo] (s.reg (.tileErr t)) (u.reg (.tileErr t)) ∧ Only here s u) ∧
    (φ.nan = true ∨ (φ.pinf = true ∧ φ.ninf = true) → returns 0x7FC00000#32 { inv := φ.pinf && φ.ninf }) ∧
    (φ.nan = false → φ.pinf = true → φ.ninf = false → returns 0x7F800000#32 { ovf := !φ.infIn }) ∧
    (φ.nan = false → φ.pinf = false → φ.ninf = true → returns 0xFF800000#32 { ovf := !φ.infIn }) ∧
    Answers (.fsClr t) s fun u => u.tile t = { inItsBeat s t with fs := {} } ∧ Only { tiles := (· = t) } s u

/-- R60. -/
def Obligations.FlowstoneSumsExactlyBelowItsLimit : Prop :=
  let exact (a : U32) : Int := match f32v a with
    | .fin neg m e => (if neg then -1 else 1) * ((m : Int) * 2 ^ (e + 149).toNat)
    | _ => 0
  (∀ xs : List U32, (∀ x ∈ xs, isFin32 x = true) → xs.length ≤ 65536 →
    xs.foldl Flow.add {} = { val := (xs.map exact).sum, count := xs.length }) ∧
  ∀ (t : TileId) (s : State), canAct s t = true → RegsOk s →
    let τ := s.tile t
    let φ := τ.fs
    ∀ va ln, let a := lane (τ.vreg va) ln
      isFin32 a = true →
      let z := φ.val + exact a
      Answers (.fsAdd t va ln) s fun u =>
        let ψ := (u.tile t).fs
        u.tile t = { inItsBeat s t with fs := φ.add a } ∧ ψ.count = φ.count + 1 ∧ ψ.nan = φ.nan ∧
        (z.natAbs < 2 ^ 319 → ψ.val = z ∧ ψ.pinf = φ.pinf ∧ ψ.ninf = φ.ninf) ∧
        (2 ^ 319 ≤ z → ψ.pinf = true ∧ ψ.ninf = φ.ninf) ∧
        (z ≤ -2 ^ 319 → ψ.ninf = true ∧ ψ.pinf = φ.pinf) ∧
        (φ.count = 65536 → u.flag (.tileErr t) F.tileErr_FS_LIMIT = true) ∧
        (φ.count < 65536 → u.flag (.tileErr t) F.tileErr_FS_LIMIT = s.flag (.tileErr t) F.tileErr_FS_LIMIT) ∧
        BitsBut [F.tileErr_FS_LIMIT.lo] (s.reg (.tileErr t)) (u.reg (.tileErr t)) ∧
        Only { regs := (· = .tileErr t), tiles := (· = t) } s u

end
end

