-- ==== Sys2Proof/Laws/Exec.lean ====
section
/-!
SUPPORT. The arms of `exec`, one lemma each.
-/
namespace Sys2Proof.Machine

@[simp] theorem exec_idleBeat (t : TileId) (s : State) : exec (.idleBeat t) s = execIdleBeat t s := rfl
@[simp] theorem exec_stallWatchdogExpiry (d : DieId) (s : State) : exec (.stallWatchdogExpiry d) s = execStallWatchdogExpiry d s := rfl
@[simp] theorem exec_droopHoldAssert (d : DieId) (r : SensorReading) (s : State) : exec (.droopHoldAssert d r) s = execDroopHoldAssert d r s := rfl
@[simp] theorem exec_droopHoldRelease (d : DieId) (e : HoldEnd) (s : State) : exec (.droopHoldRelease d e) s = execDroopHoldRelease d e s := rfl
@[simp] theorem exec_droopStuck (d : DieId) (s : State) : exec (.droopStuck d) s = execDroopStuck d s := rfl
@[simp] theorem exec_sensorFail (d : DieId) (sensor : Nat) (s : State) : exec (.sensorFail d sensor) s = execSensorFail d sensor s := rfl
@[simp] theorem exec_sensorRetire (d : DieId) (sensor : Nat) (ns : Nat) (s : State) : exec (.sensorRetire d sensor ns) s = execSensorRetire d sensor ns s := rfl
@[simp] theorem exec_budgetDivide (demand : List Nat) (avg : Nat) (peak : Nat) (s : State) : exec (.budgetDivide demand avg peak) s = execBudgetDivide demand avg peak s := rfl
@[simp] theorem exec_pacingAdjust (d : DieId) (power : Nat) (pace : BeatPace) (tj : BitVec 16) (vsense : BitVec 8) (s : State) : exec (.pacingAdjust d power pace tj vsense) s = execPacingAdjust d power pace tj vsense s := rfl
@[simp] theorem exec_vsetAdjust (duty : Nat) (s : State) : exec (.vsetAdjust duty) s = execVsetAdjust duty s := rfl
@[simp] theorem exec_hostCapWrite (v : U32) (s : State) : exec (.hostCapWrite v) s = execHostCapWrite v s := rfl
@[simp] theorem exec_hbmStreamIssue (n : Nat) (s : State) : exec (.hbmStreamIssue n) s = execHbmStreamIssue n s := rfl
@[simp] theorem exec_hbmStreamElementArrival (n : Nat) (bad : Nat) (s : State) : exec (.hbmStreamElementArrival n bad) s = execHbmStreamElementArrival n bad s := rfl
@[simp] theorem exec_next (t : TileId) (s : State) : exec (.next t) s = execNext t s := rfl
@[simp] theorem exec_loopBegin (t : TileId) (arg : Nat) (s : State) : exec (.loopBegin t arg) s = execLoopBegin t arg s := rfl
@[simp] theorem exec_loopEnd (t : TileId) (s : State) : exec (.loopEnd t) s = execLoopEnd t s := rfl
@[simp] theorem exec_loopOne (t : TileId) (arg : Nat) (s : State) : exec (.loopOne t arg) s = execLoopOne t arg s := rfl
@[simp] theorem exec_stepEnd (t : TileId) (s : State) : exec (.stepEnd t) s = execStepEnd t s := rfl
@[simp] theorem exec_maintBegin (t : TileId) (arg : Nat) (mxBad : Bool) (cg : CgCheck) (scrub : List (Nat × Nat × Ecc)) (s : State) : exec (.maintBegin t arg mxBad cg scrub) s = execMaintBegin t arg mxBad cg scrub s := rfl
@[simp] theorem exec_maintEnd (t : TileId) (s : State) : exec (.maintEnd t) s = execMaintEnd t s := rfl
@[simp] theorem exec_halt (t : TileId) (s : State) : exec (.halt t) s = execHalt t s := rfl
@[simp] theorem exec_leaf (t : TileId) (set : Bool) (td : Nat) (areg : Nat) (ahi : Bool) (breg : Nat) (bhi : Bool) (opn : Bool) (bx : Nat) (bxinc : Bool) (dro : Bool) (dstats : Bool) (s : State) : exec (.leaf t set td areg ahi breg bhi opn bx bxinc dro dstats) s = execLeaf t set td areg ahi breg bhi opn bx bxinc dro dstats s := rfl
@[simp] theorem exec_treeNodeForm (t : TileId) (n : NodeBeat) (s : State) : exec (.treeNodeForm t n) s = execTreeNodeForm t n s := rfl
@[simp] theorem exec_drain (t : TileId) (set : Bool) (stats : Bool) (s : State) : exec (.drain t set stats) s = execDrain t set stats s := rfl
@[simp] theorem exec_drainConvert (t : TileId) (set : Bool) (s : State) : exec (.drainConvert t set) s = execDrainConvert t set s := rfl
@[simp] theorem exec_park (t : TileId) (set : Bool) (td : Nat) (s : State) : exec (.park t set td) s = execPark t set td s := rfl
@[simp] theorem exec_resume (t : TileId) (set : Bool) (td : Nat) (s : State) : exec (.resume t set td) s = execResume t set td s := rfl
@[simp] theorem exec_vadd (t : TileId) (vd : Nat) (va : Nat) (vb : Nat) (rmode : Nat) (fmt : Nat) (s : State) : exec (.vadd t vd va vb rmode fmt) s = execVadd t vd va vb rmode fmt s := rfl
@[simp] theorem exec_vsub (t : TileId) (vd : Nat) (va : Nat) (vb : Nat) (rmode : Nat) (fmt : Nat) (s : State) : exec (.vsub t vd va vb rmode fmt) s = execVsub t vd va vb rmode fmt s := rfl
@[simp] theorem exec_vmul (t : TileId) (vd : Nat) (va : Nat) (vb : Nat) (rmode : Nat) (fmt : Nat) (s : State) : exec (.vmul t vd va vb rmode fmt) s = execVmul t vd va vb rmode fmt s := rfl
@[simp] theorem exec_vfma (t : TileId) (vd : Nat) (va : Nat) (vb : Nat) (vc : Nat) (rmode : Nat) (fmt : Nat) (s : State) : exec (.vfma t vd va vb vc rmode fmt) s = execVfma t vd va vb vc rmode fmt s := rfl
@[simp] theorem exec_vmax (t : TileId) (vd : Nat) (va : Nat) (vb : Nat) (fmt : Nat) (s : State) : exec (.vmax t vd va vb fmt) s = execVmax t vd va vb fmt s := rfl
@[simp] theorem exec_vmin (t : TileId) (vd : Nat) (va : Nat) (vb : Nat) (fmt : Nat) (s : State) : exec (.vmin t vd va vb fmt) s = execVmin t vd va vb fmt s := rfl
@[simp] theorem exec_vcmp (t : TileId) (vd : Nat) (va : Nat) (vb : Nat) (pred : Nat) (fmt : Nat) (s : State) : exec (.vcmp t vd va vb pred fmt) s = execVcmp t vd va vb pred fmt s := rfl
@[simp] theorem exec_vsel (t : TileId) (vd : Nat) (va : Nat) (vb : Nat) (vc : Nat) (s : State) : exec (.vsel t vd va vb vc) s = execVsel t vd va vb vc s := rfl
@[simp] theorem exec_vcvt (t : TileId) (vd : Nat) (va : Nat) (src : Nat) (fmt : Nat) (rmode : Nat) (sat : Bool) (s : State) : exec (.vcvt t vd va src fmt rmode sat) s = execVcvt t vd va src fmt rmode sat s := rfl
@[simp] theorem exec_vqmx (t : TileId) (vd : Nat) (va : Nat) (rmode : Nat) (s : State) : exec (.vqmx t vd va rmode) s = execVqmx t vd va rmode s := rfl
@[simp] theorem exec_exp2 (t : TileId) (vd : Nat) (va : Nat) (s : State) : exec (.exp2 t vd va) s = execExp2 t vd va s := rfl
@[simp] theorem exec_combine (t : TileId) (vd : Nat) (va : Nat) (vb : Nat) (trm : Nat) (slot : Nat) (s : State) : exec (.combine t vd va vb trm slot) s = execCombine t vd va vb trm slot s := rfl
@[simp] theorem exec_pass (t : TileId) (vd : Nat) (va : Nat) (l : Nat) (s : State) : exec (.pass t vd va l) s = execPass t vd va l s := rfl
@[simp] theorem exec_fsAdd (t : TileId) (va : Nat) (ln : Nat) (s : State) : exec (.fsAdd t va ln) s = execFsAdd t va ln s := rfl
@[simp] theorem exec_fsRead (t : TileId) (vd : Nat) (ln : Nat) (s : State) : exec (.fsRead t vd ln) s = execFsRead t vd ln s := rfl
@[simp] theorem exec_fsClr (t : TileId) (s : State) : exec (.fsClr t) s = execFsClr t s := rfl
@[simp] theorem exec_fsRdclr (t : TileId) (vd : Nat) (ln : Nat) (s : State) : exec (.fsRdclr t vd ln) s = execFsRdclr t vd ln s := rfl
@[simp] theorem exec_statsFin (t : TileId) (vd : Nat) (va : Nat) (vb : Nat) (s : State) : exec (.statsFin t vd va vb) s = execStatsFin t vd va vb s := rfl
@[simp] theorem exec_ldv (t : TileId) (bank : Nat) (line : Nat) (ixen : Bool) (ix : Nat) (inc : Bool) (reg : Nat) (e : Ecc) (s : State) : exec (.ldv t bank line ixen ix inc reg e) s = execLdv t bank line ixen ix inc reg e s := rfl
@[simp] theorem exec_stv (t : TileId) (bank : Nat) (line : Nat) (ixen : Bool) (ix : Nat) (inc : Bool) (reg : Nat) (s : State) : exec (.stv t bank line ixen ix inc reg) s = execStv t bank line ixen ix inc reg s := rfl
@[simp] theorem exec_ldm (t : TileId) (bank : Nat) (line : Nat) (ixen : Bool) (ix : Nat) (inc : Bool) (reg : Nat) (e : Ecc) (s : State) : exec (.ldm t bank line ixen ix inc reg e) s = execLdm t bank line ixen ix inc reg e s := rfl
@[simp] theorem exec_tkv (t : TileId) (bank : Nat) (line : Nat) (ixen : Bool) (ix : Nat) (inc : Bool) (reg : Nat) (e : Ecc) (s : State) : exec (.tkv t bank line ixen ix inc reg e) s = execTkv t bank line ixen ix inc reg e s := rfl
@[simp] theorem exec_tkm (t : TileId) (bank : Nat) (line : Nat) (ixen : Bool) (ix : Nat) (inc : Bool) (reg : Nat) (e : Ecc) (s : State) : exec (.tkm t bank line ixen ix inc reg e) s = execTkm t bank line ixen ix inc reg e s := rfl
@[simp] theorem exec_std (t : TileId) (bank : Nat) (line : Nat) (ixen : Bool) (ix : Nat) (inc : Bool) (set : Bool) (s : State) : exec (.std t bank line ixen ix inc set) s = execStd t bank line ixen ix inc set s := rfl
@[simp] theorem exec_ixset (t : TileId) (ix : Nat) (line : Nat) (s : State) : exec (.ixset t ix line) s = execIxset t ix line s := rfl
@[simp] theorem exec_fwd (t : TileId) (port : Nat) (mask : Nat) (bad : Bool) (s : State) : exec (.fwd t port mask bad) s = execFwd t port mask bad s := rfl
@[simp] theorem exec_recv (t : TileId) (port : Nat) (vec : Bool) (n : Nat) (ix : Nat) (inc : Bool) (bad : Bool) (s : State) : exec (.recv t port vec n ix inc bad) s = execRecv t port vec n ix inc bad s := rfl
@[simp] theorem exec_send (t : TileId) (port : Nat) (vec : Bool) (n : Nat) (ix : Nat) (inc : Bool) (e : Ecc) (s : State) : exec (.send t port vec n ix inc e) s = execSend t port vec n ix inc e s := rfl
@[simp] theorem exec_addf (t : TileId) (in1 : Nat) (in2 : Nat) (out : Nat) (slot : Nat) (bad1 : Bool) (bad2 : Bool) (s : State) : exec (.addf t in1 in2 out slot bad1 bad2) s = execAddf t in1 in2 out slot bad1 bad2 s := rfl
@[simp] theorem exec_flitResend (t : TileId) (port : Nat) (bad : Bool) (s : State) : exec (.flitResend t port bad) s = execFlitResend t port bad s := rfl
@[simp] theorem exec_set (t : TileId) (handle : Nat) (vreg : Nat) (stepv : Bool) (s : State) : exec (.set t handle vreg stepv) s = execSet t handle vreg stepv s := rfl
@[simp] theorem exec_inc (t : TileId) (handle : Nat) (s : State) : exec (.inc t handle) s = execInc t handle s := rfl
@[simp] theorem exec_add (t : TileId) (handle : Nat) (vreg : Nat) (stepv : Bool) (s : State) : exec (.add t handle vreg stepv) s = execAdd t handle vreg stepv s := rfl
@[simp] theorem exec_waitGe (t : TileId) (handle : Nat) (vreg : Nat) (stepv : Bool) (s : State) : exec (.waitGe t handle vreg stepv) s = execWaitGe t handle vreg stepv s := rfl
@[simp] theorem exec_cgLdkey (t : TileId) (entry : BitVec 4) (slot : Nat) (s : State) : exec (.cgLdkey t entry slot) s = execCgLdkey t entry slot s := rfl
@[simp] theorem exec_cgXset (t : TileId) (sp : Nat) (s : State) : exec (.cgXset t sp) s = execCgXset t sp s := rfl
@[simp] theorem exec_cgDraw (t : TileId) (sp : Nat) (slot : Nat) (xreg : Nat) (xinc : Bool) (code : Nat) (s : State) : exec (.cgDraw t sp slot xreg xinc code) s = execCgDraw t sp slot xreg xinc code s := rfl
@[simp] theorem exec_cgBlockEmerge (t : TileId) (s : State) : exec (.cgBlockEmerge t) s = execCgBlockEmerge t s := rfl
@[simp] theorem exec_tableTransform (t : TileId) (s : State) : exec (.tableTransform t) s = execTableTransform t s := rfl
@[simp] theorem exec_freshSeed (t : TileId) (entry : BitVec 4) (s : State) : exec (.freshSeed t entry) s = execFreshSeed t entry s := rfl
@[simp] theorem exec_freshSeedComplete (entry : BitVec 4) (s : State) : exec (.freshSeedComplete entry) s = execFreshSeedComplete entry s := rfl
@[simp] theorem exec_svLdkey (t : TileId) (sp : Nat) (slot : Nat) (s : State) : exec (.svLdkey t sp slot) s = execSvLdkey t sp slot s := rfl
@[simp] theorem exec_svPass (t : TileId) (sp : Nat) (xreg : Nat) (xinc : Bool) (code : Nat) (s : State) : exec (.svPass t sp xreg xinc code) s = execSvPass t sp xreg xinc code s := rfl
@[simp] theorem exec_svDraw (t : TileId) (sp : Nat) (slot : Nat) (xreg : Nat) (xinc : Bool) (code : Nat) (quarter : Nat) (s : State) : exec (.svDraw t sp slot xreg xinc code quarter) s = execSvDraw t sp slot xreg xinc code quarter s := rfl
@[simp] theorem exec_sieveDecision (n : BitVec 9) (s : State) : exec (.sieveDecision n) s = execSieveDecision n s := rfl
@[simp] theorem exec_combRetry (d : DieId) (n : BitVec 9) (bad : Bool) (s : State) : exec (.combRetry d n bad) s = execCombRetry d n bad s := rfl
@[simp] theorem exec_hostTimeout (n : BitVec 9) (s : State) : exec (.hostTimeout n) s = execHostTimeout n s := rfl
@[simp] theorem exec_svCtxrd (t : TileId) (sp : Nat) (s : State) : exec (.svCtxrd t sp) s = execSvCtxrd t sp s := rfl
@[simp] theorem exec_feEval (t : TileId) (sp : Nat) (ce : BitVec 16) (ue : BitVec 16) (s : State) : exec (.feEval t sp ce ue) s = execFeEval t sp ce ue s := rfl
@[simp] theorem exec_feSeval (t : TileId) (sp : Nat) (ce : BitVec 16) (ue : BitVec 16) (s : State) : exec (.feSeval t sp ce ue) s = execFeSeval t sp ce ue s := rfl
@[simp] theorem exec_pcUpdate (t : TileId) (sp : Nat) (slot : Nat) (s : State) : exec (.pcUpdate t sp slot) s = execPcUpdate t sp slot s := rfl
@[simp] theorem exec_pcOhdraw (t : TileId) (sp : Nat) (slot : Nat) (s : State) : exec (.pcOhdraw t sp slot) s = execPcOhdraw t sp slot s := rfl
@[simp] theorem exec_feRot (a : SpAt) (s : State) : exec (.feRot a) s = execFeRot a s := rfl
@[simp] theorem exec_feStore (t : TileId) (sp : Nat) (s : State) : exec (.feStore t sp) s = execFeStore t sp s := rfl
@[simp] theorem exec_feMagclr (t : TileId) (sp : Nat) (s : State) : exec (.feMagclr t sp) s = execFeMagclr t sp s := rfl
@[simp] theorem exec_rsUpdate (t : TileId) (sp : Nat) (slot : Nat) (s : State) : exec (.rsUpdate t sp slot) s = execRsUpdate t sp slot s := rfl
@[simp] theorem exec_profileParams (d : DieId) (s : State) : exec (.profileParams d) s = execProfileParams d s := rfl
@[simp] theorem exec_rsEnergy (t : TileId) (s : State) : exec (.rsEnergy t) s = execRsEnergy t s := rfl
@[simp] theorem exec_annealXchgLock (t : TileId) (sp : Nat) (s : State) : exec (.annealXchgLock t sp) s = execAnnealXchgLock t sp s := rfl
@[simp] theorem exec_annealXchgAsync (t : TileId) (sp : Nat) (s : State) : exec (.annealXchgAsync t sp) s = execAnnealXchgAsync t sp s := rfl
@[simp] theorem exec_dmaRd (t : TileId) (sp : Nat) (s : State) : exec (.dmaRd t sp) s = execDmaRd t sp s := rfl
@[simp] theorem exec_dmaWr (t : TileId) (sp : Nat) (s : State) : exec (.dmaWr t sp) s = execDmaWr t sp s := rfl
@[simp] theorem exec_hostScatterAdd (t : TileId) (sp : Nat) (s : State) : exec (.hostScatterAdd t sp) s = execHostScatterAdd t sp s := rfl
@[simp] theorem exec_bxSend (t : TileId) (sp : Nat) (s : State) : exec (.bxSend t sp) s = execBxSend t sp s := rfl
@[simp] theorem exec_bxArrive (t : TileId) (sp : Nat) (s : State) : exec (.bxArrive t sp) s = execBxArrive t sp s := rfl
@[simp] theorem exec_poolAdmit (t : TileId) (sp : Nat) (fails : BitVec 4) (s : State) : exec (.poolAdmit t sp fails) s = execPoolAdmit t sp fails s := rfl
@[simp] theorem exec_timestampRead (t : TileId) (sp : Nat) (now : U64) (s : State) : exec (.timestampRead t sp now) s = execTimestampRead t sp now s := rfl
@[simp] theorem exec_telemetryRead (t : TileId) (sp : Nat) (s : State) : exec (.telemetryRead t sp) s = execTelemetryRead t sp s := rfl
@[simp] theorem exec_tileSpmDataRead (t : TileId) (s : State) : exec (.tileSpmDataRead t) s = execTileSpmDataRead t s := rfl
@[simp] theorem exec_tileSpmDataWrite (t : TileId) (v : U32) (s : State) : exec (.tileSpmDataWrite t v) s = execTileSpmDataWrite t v s := rfl
@[simp] theorem exec_svcCtrlWrite (n : BitVec 9) (v : U32) (s : State) : exec (.svcCtrlWrite n v) s = execSvcCtrlWrite n v s := rfl
@[simp] theorem exec_svcContextWrite (n : BitVec 9) (off : Nat) (v : U32) (s : State) : exec (.svcContextWrite n off v) s = execSvcContextWrite n off v s := rfl
@[simp] theorem exec_syncCntWrite (c : BitVec 13) (v : U32) (s : State) : exec (.syncCntWrite c v) s = execSyncCntWrite c v s := rfl
@[simp] theorem exec_poweredOffAccess (off : Nat) (write : Bool) (mc : Bool) (s : State) : exec (.poweredOffAccess off write mc) s = execPoweredOffAccess off write mc s := rfl
@[simp] theorem exec_offaccessClear (s : State) : exec (.offaccessClear) s = execOffaccessClear s := rfl
@[simp] theorem exec_pairLoRead (off : Nat) (now : U64) (s : State) : exec (.pairLoRead off now) s = execPairLoRead off now s := rfl
@[simp] theorem exec_pairLoWrite (off : Nat) (v : U32) (s : State) : exec (.pairLoWrite off v) s = execPairLoWrite off v s := rfl
@[simp] theorem exec_pairHiWrite (off : Nat) (v : U32) (s : State) : exec (.pairHiWrite off v) s = execPairHiWrite off v s := rfl
@[simp] theorem exec_registerWrite (off : Nat) (v : U32) (enables : BitVec 4) (a : Access) (s : State) : exec (.registerWrite off v enables a) s = execRegisterWrite off v enables a s := rfl
@[simp] theorem exec_d2dReplay (d : DieId) (l : BitVec 2) (repair : Bool) (s : State) : exec (.d2dReplay d l repair) s = execD2dReplay d l repair s := rfl
@[simp] theorem exec_d2dLinkDown (d : DieId) (l : BitVec 2) (s : State) : exec (.d2dLinkDown d l) s = execD2dLinkDown d l s := rfl
@[simp] theorem exec_hbmRefresh (k : BitVec 5) (pc : Nat) (temp : BitVec 8) (ce : List Nat) (ue : List Nat) (s : State) : exec (.hbmRefresh k pc temp ce ue) s = execHbmRefresh k pc temp ce ue s := rfl
@[simp] theorem exec_retrainPend (k : BitVec 5) (s : State) : exec (.retrainPend k) s = execRetrainPend k s := rfl
@[simp] theorem exec_hbmFullRetrain (k : BitVec 5) (ok : Bool) (s : State) : exec (.hbmFullRetrain k ok) s = execHbmFullRetrain k ok s := rfl
@[simp] theorem exec_pcRemap (k : BitVec 5) (pc : Nat) (s : State) : exec (.pcRemap k pc) s = execPcRemap k pc s := rfl
@[simp] theorem exec_loadImage (q : BitVec 6) (s : State) : exec (.loadImage q) s = execLoadImage q s := rfl
@[simp] theorem exec_scheduleLoadComplete (slot : BitVec 2) (s : State) : exec (.scheduleLoadComplete slot) s = execScheduleLoadComplete slot s := rfl
@[simp] theorem exec_jobLoad (q : BitVec 6) (unread : Bool) (s : State) : exec (.jobLoad q unread) s = execJobLoad q unread s := rfl
@[simp] theorem exec_jobLoadComplete (s : State) : exec (.jobLoadComplete) s = execJobLoadComplete s := rfl
@[simp] theorem exec_jobEnd (q : BitVec 6) (s : State) : exec (.jobEnd q) s = execJobEnd q s := rfl
@[simp] theorem exec_pause (q : BitVec 6) (s : State) : exec (.pause q) s = execPause q s := rfl
@[simp] theorem exec_submit (q : BitVec 6) (s : State) : exec (.submit q) s = execSubmit q s := rfl
@[simp] theorem exec_post (q : BitVec 6) (s : State) : exec (.post q) s = execPost q s := rfl
@[simp] theorem exec_stepBoundary (ms : Nat) (s : State) : exec (.stepBoundary ms) s = execStepBoundary ms s := rfl
@[simp] theorem exec_checkpointComplete (split : Bool) (s : State) : exec (.checkpointComplete split) s = execCheckpointComplete split s := rfl
@[simp] theorem exec_echoDeliveryResume (s : State) : exec (.echoDeliveryResume) s = execEchoDeliveryResume s := rfl
@[simp] theorem exec_echoDrainWrite (v : U64) (s : State) : exec (.echoDrainWrite v) s = execEchoDrainWrite v s := rfl
@[simp] theorem exec_echoCtrlWrite (v : U32) (s : State) : exec (.echoCtrlWrite v) s = execEchoCtrlWrite v s := rfl
@[simp] theorem exec_echoHostFail (s : State) : exec (.echoHostFail) s = execEchoHostFail s := rfl
@[simp] theorem exec_echoTailWriteback (s : State) : exec (.echoTailWriteback) s = execEchoTailWriteback s := rfl
@[simp] theorem exec_faultRecovery (fixed : Bool) (linkUp : Bool) (lost : Bool) (now : Nat) (s : State) : exec (.faultRecovery fixed linkUp lost now) s = execFaultRecovery fixed linkUp lost now s := rfl
@[simp] theorem exec_rebuildTimeout (s : State) : exec (.rebuildTimeout) s = execRebuildTimeout s := rfl
@[simp] theorem exec_approve (fixed : Bool) (linkUp : Bool) (lost : Bool) (now : Nat) (s : State) : exec (.approve fixed linkUp lost now) s = execApprove fixed linkUp lost now s := rfl
@[simp] theorem exec_decline (s : State) : exec (.decline) s = execDecline s := rfl
@[simp] theorem exec_bist (force : Bool) (s : State) : exec (.bist force) s = execBist force s := rfl
@[simp] theorem exec_hbmRetrainRequest (force : Bool) (s : State) : exec (.hbmRetrainRequest force) s = execHbmRetrainRequest force s := rfl
@[simp] theorem exec_sensorRecalibration (force : Bool) (s : State) : exec (.sensorRecalibration force) s = execSensorRecalibration force s := rfl
@[simp] theorem exec_mcWatchdogExpiry (now : Nat) (s : State) : exec (.mcWatchdogExpiry now) s = execMcWatchdogExpiry now s := rfl
@[simp] theorem exec_mcSramUe (e : SramError) (s : State) : exec (.mcSramUe e) s = execMcSramUe e s := rfl
@[simp] theorem exec_mcRestart (s : State) : exec (.mcRestart) s = execMcRestart s := rfl
@[simp] theorem exec_governorFallback (s : State) : exec (.governorFallback) s = execGovernorFallback s := rfl
@[simp] theorem exec_sqTailDoorbell (q : BitVec 6) (v : U32) (now : U64) (s : State) : exec (.sqTailDoorbell q v now) s = execSqTailDoorbell q v now s := rfl
@[simp] theorem exec_sqFetch (q : BitVec 6) (fails : Bool) (s : State) : exec (.sqFetch q fails) s = execSqFetch q fails s := rfl
@[simp] theorem exec_cqHeadDoorbell (q : BitVec 6) (v : U32) (now : U64) (s : State) : exec (.cqHeadDoorbell q v now) s = execCqHeadDoorbell q v now s := rfl
@[simp] theorem exec_cqPost (q : BitVec 6) (s : State) : exec (.cqPost q) s = execCqPost q s := rfl
@[simp] theorem exec_sieveAnswer (n : BitVec 9) (v : U32) (now : U64) (s : State) : exec (.sieveAnswer n v now) s = execSieveAnswer n v now s := rfl
@[simp] theorem exec_queueEnable (q : BitVec 6) (v : U32) (s : State) : exec (.queueEnable q v) s = execQueueEnable q v s := rfl
@[simp] theorem exec_queueDisable (q : BitVec 6) (v : U32) (s : State) : exec (.queueDisable q v) s = execQueueDisable q v s := rfl
@[simp] theorem exec_dmaTailWrite (g : BitVec 5) (v : U32) (s : State) : exec (.dmaTailWrite g v) s = execDmaTailWrite g v s := rfl
@[simp] theorem exec_dmaComplete (place : Nat) (s : State) : exec (.dmaComplete place) s = execDmaComplete place s := rfl
@[simp] theorem exec_dmaRequestTimeout (place : Nat) (s : State) : exec (.dmaRequestTimeout place) s = execDmaRequestTimeout place s := rfl
@[simp] theorem exec_echoRing (len : Nat) (s : State) : exec (.echoRing len) s = execEchoRing len s := rfl
@[simp] theorem exec_ckptHost (len : Nat) (s : State) : exec (.ckptHost len) s = execCkptHost len s := rfl
@[simp] theorem exec_fwPush (len : Nat) (s : State) : exec (.fwPush len) s = execFwPush len s := rfl
@[simp] theorem exec_fwCommit (len : Nat) (s : State) : exec (.fwCommit len) s = execFwCommit len s := rfl
@[simp] theorem exec_flashProgramComplete (ok : Bool) (s : State) : exec (.flashProgramComplete ok) s = execFlashProgramComplete ok s := rfl
@[simp] theorem exec_fwRestart (s : State) : exec (.fwRestart) s = execFwRestart s := rfl
@[simp] theorem exec_rebuildDone (len : Nat) (s : State) : exec (.rebuildDone len) s = execRebuildDone len s := rfl
@[simp] theorem exec_echoSupply (len : Nat) (s : State) : exec (.echoSupply len) s = execEchoSupply len s := rfl
@[simp] theorem exec_drbgInput (len : Nat) (s : State) : exec (.drbgInput len) s = execDrbgInput len s := rfl
@[simp] theorem exec_unknownCommand (cmd : Nat) (s : State) : exec (.unknownCommand cmd) s = execUnknownCommand cmd s := rfl
@[simp] theorem exec_mbxEvtPop (s : State) : exec (.mbxEvtPop) s = execMbxEvtPop s := rfl
@[simp] theorem exec_linkDown (s : State) : exec (.linkDown) s = execLinkDown s := rfl
@[simp] theorem exec_linkLossPauseTimeout (s : State) : exec (.linkLossPauseTimeout) s = execLinkLossPauseTimeout s := rfl
@[simp] theorem exec_linkReturn (width : Nat) (rate : Nat) (s : State) : exec (.linkReturn width rate) s = execLinkReturn width rate s := rfl
@[simp] theorem exec_flr (s : State) : exec (.flr) s = execFlr s := rfl
@[simp] theorem exec_configRequest (ms : Nat) (resize : Nat) (s : State) : exec (.configRequest ms resize) s = execConfigRequest ms resize s := rfl
@[simp] theorem exec_bar2Write (off : Nat) (bytes : List Byte) (s : State) : exec (.bar2Write off bytes) s = execBar2Write off bytes s := rfl
@[simp] theorem exec_portDownrate (p : BitVec 4) (lane : Nat) (s : State) : exec (.portDownrate p lane) s = execPortDownrate p lane s := rfl
@[simp] theorem exec_lldpTransmit (p : BitVec 4) (s : State) : exec (.lldpTransmit p) s = execLldpTransmit p s := rfl
@[simp] theorem exec_lldp (p : BitVec 4) (tlv : Option Tlv) (preempt : Bool) (s : State) : exec (.lldp p tlv preempt) s = execLldp p tlv preempt s := rfl
@[simp] theorem exec_helloTransmit (s : State) : exec (.helloTransmit) s = execHelloTransmit s := rfl
@[simp] theorem exec_hello (f : Frame) (chain : Bool) (a : Access) (s : State) : exec (.hello f chain a) s = execHello f chain a s := rfl
@[simp] theorem exec_data (f : Frame) (s : State) : exec (.data f) s = execData f s := rfl
@[simp] theorem exec_mcast (f : Frame) (s : State) : exec (.mcast f) s = execMcast f s := rfl
@[simp] theorem exec_barrier (f : Frame) (now : U64) (s : State) : exec (.barrier f now) s = execBarrier f now s := rfl
@[simp] theorem exec_release (f : Frame) (now : U64) (s : State) : exec (.release f now) s = execRelease f now s := rfl
@[simp] theorem exec_releaseTimeReached (bid : Nat) (s : State) : exec (.releaseTimeReached bid) s = execReleaseTimeReached bid s := rfl
@[simp] theorem exec_member (f : Frame) (now : U64) (s : State) : exec (.member f now) s = execMember f now s := rfl
@[simp] theorem exec_joinTimeout (s : State) : exec (.joinTimeout) s = execJoinTimeout s := rfl
@[simp] theorem exec_memberLostTimeout (rank : Nat) (s : State) : exec (.memberLostTimeout rank) s = execMemberLostTimeout rank s := rfl
@[simp] theorem exec_rejoinTimeout (rank : Nat) (s : State) : exec (.rejoinTimeout rank) s = execRejoinTimeout rank s := rfl
@[simp] theorem exec_retransmitTimeout (rank : Nat) (channel : Nat) (express : Bool) (s : State) : exec (.retransmitTimeout rank channel express) s = execRetransmitTimeout rank channel express s := rfl
@[simp] theorem exec_echoSyncSeed (f : Frame) (s : State) : exec (.echoSyncSeed f) s = execEchoSyncSeed f s := rfl
@[simp] theorem exec_echoSyncRecover (f : Frame) (s : State) : exec (.echoSyncRecover f) s = execEchoSyncRecover f s := rfl
@[simp] theorem exec_ckptReport (f : Frame) (s : State) : exec (.ckptReport f) s = execCkptReport f s := rfl
@[simp] theorem exec_ckptChoice (f : Frame) (s : State) : exec (.ckptChoice f) s = execCkptChoice f s := rfl
@[simp] theorem exec_echoSyncResume (f : Frame) (s : State) : exec (.echoSyncResume f) s = execEchoSyncResume f s := rfl
@[simp] theorem exec_ptpMessage (port : Nat) (via : PtpVia) (body : PtpBody) (now : U64) (s : State) : exec (.ptpMessage port via body now) s = execPtpMessage port via body now s := rfl
@[simp] theorem exec_ppsInEdge (now : U64) (s : State) : exec (.ppsInEdge now) s = execPpsInEdge now s := rfl
@[simp] theorem exec_ppsOutEdge (sec : Nat) (s : State) : exec (.ppsOutEdge sec) s = execPpsOutEdge sec s := rfl
@[simp] theorem exec_pwrEntryRequest (v : U32) (delays : Nat) (silent : Nat) (s : State) : exec (.pwrEntryRequest v delays silent) s = execPwrEntryRequest v delays silent s := rfl
@[simp] theorem exec_agentDelayExpiry (agent : Nat) (again : Bool) (s : State) : exec (.agentDelayExpiry agent again) s = execAgentDelayExpiry agent again s := rfl
@[simp] theorem exec_agentAnswerTimeout (agent : Nat) (s : State) : exec (.agentAnswerTimeout agent) s = execAgentAnswerTimeout agent s := rfl
@[simp] theorem exec_powerCommit (now : U64) (s : State) : exec (.powerCommit now) s = execPowerCommit now s := rfl
@[simp] theorem exec_pwrWakeRequest (now : U64) (s : State) : exec (.pwrWakeRequest now) s = execPwrWakeRequest now s := rfl
@[simp] theorem exec_powerGoodTimeout (what : Nat) (s : State) : exec (.powerGoodTimeout what) s = execPowerGoodTimeout what s := rfl
@[simp] theorem exec_wakeTimerExpiry (now : U64) (s : State) : exec (.wakeTimerExpiry now) s = execWakeTimerExpiry now s := rfl
@[simp] theorem exec_idleS1Timeout (delays : Nat) (silent : Nat) (s : State) : exec (.idleS1Timeout delays silent) s = execIdleS1Timeout delays silent s := rfl
@[simp] theorem exec_idleS2Timeout (delays : Nat) (silent : Nat) (s : State) : exec (.idleS2Timeout delays silent) s = execIdleS2Timeout delays silent s := rfl
@[simp] theorem exec_hbmTrainingComplete (k : BitVec 5) (s : State) : exec (.hbmTrainingComplete k) s = execHbmTrainingComplete k s := rfl
@[simp] theorem exec_pmcsrD3hot (delays : Nat) (silent : Nat) (s : State) : exec (.pmcsrD3hot delays silent) s = execPmcsrD3hot delays silent s := rfl
@[simp] theorem exec_d3hotRequestRepeat (delays : Nat) (silent : Nat) (s : State) : exec (.d3hotRequestRepeat delays silent) s = execD3hotRequestRepeat delays silent s := rfl
@[simp] theorem exec_pmcsrD0 (now : U64) (s : State) : exec (.pmcsrD0 now) s = execPmcsrD0 now s := rfl
@[simp] theorem exec_perstNAssert (delays : Nat) (silent : Nat) (s : State) : exec (.perstNAssert delays silent) s = execPerstNAssert delays silent s := rfl
@[simp] theorem exec_perstNDeassert (ref25 : Bool) (now : U64) (s : State) : exec (.perstNDeassert ref25 now) s = execPerstNDeassert ref25 now s := rfl
@[simp] theorem exec_thermalWarning (x : Sensor) (c : Nat) (s : State) : exec (.thermalWarning x c) s = execThermalWarning x c s := rfl
@[simp] theorem exec_thermalWarningClear (x : Sensor) (c : Nat) (s : State) : exec (.thermalWarningClear x c) s = execThermalWarningClear x c s := rfl
@[simp] theorem exec_thermalLimit (x : Sensor) (c : Nat) (s : State) : exec (.thermalLimit x c) s = execThermalLimit x c s := rfl
@[simp] theorem exec_thermalTrip (x : Sensor) (c : Nat) (hbm100 : Bool) (now : U64) (s : State) : exec (.thermalTrip x c hbm100 now) s = execThermalTrip x c hbm100 now s := rfl
@[simp] theorem exec_inputUndervoltage (s : State) : exec (.inputUndervoltage) s = execInputUndervoltage s := rfl
@[simp] theorem exec_inputFault (mv : Nat) (now : U64) (s : State) : exec (.inputFault mv now) s = execInputFault mv now s := rfl
@[simp] theorem exec_railPowerGoodLoss (rail : Nat) (now : U64) (s : State) : exec (.railPowerGoodLoss rail now) s = execRailPowerGoodLoss rail now s := rfl
@[simp] theorem exec_refclkLoss (clk : Nat) (now : U64) (s : State) : exec (.refclkLoss clk now) s = execRefclkLoss clk now s := rfl
@[simp] theorem exec_peakClear (s : State) : exec (.peakClear) s = execPeakClear s := rfl
@[simp] theorem exec_inputPowerUp (strap : BitVec 2) (ref25 : Bool) (s : State) : exec (.inputPowerUp strap ref25) s = execInputPowerUp strap ref25 s := rfl
@[simp] theorem exec_bootPhaseEnd (unread : Bool) (tests : TileTests) (s : State) : exec (.bootPhaseEnd unread tests) s = execBootPhaseEnd unread tests s := rfl
@[simp] theorem exec_phaseBoundExpiry (tiles : List TileId) (badStacks : List (BitVec 5)) (links : List (DieId × BitVec 2)) (s : State) : exec (.phaseBoundExpiry tiles badStacks links) s = execPhaseBoundExpiry tiles badStacks links s := rfl
@[simp] theorem exec_start (s : State) : exec (.start) s = execStart s := rfl
@[simp] theorem exec_enterRecovery (s : State) : exec (.enterRecovery) s = execEnterRecovery s := rfl
@[simp] theorem exec_healthTestFail (src : Nat) (bits : List Bool) (s : State) : exec (.healthTestFail src bits) s = execHealthTestFail src bits s := rfl
@[simp] theorem exec_conditionedOutput (src : Nat) (bits : BitVec 1024) (s : State) : exec (.conditionedOutput src bits) s = execConditionedOutput src bits s := rfl
@[simp] theorem exec_drbgGenerate (s : State) : exec (.drbgGenerate) s = execDrbgGenerate s := rfl
@[simp] theorem exec_reseed (s : State) : exec (.reseed) s = execReseed s := rfl
@[simp] theorem exec_kat (s : State) : exec (.kat) s = execKat s := rfl
@[simp] theorem exec_katComplete (condOk : Bool) (drbgOk : Bool) (s : State) : exec (.katComplete condOk drbgOk) s = execKatComplete condOk drbgOk s := rfl
@[simp] theorem exec_lifecycleTransition (target : BitVec 3) (bad : Option Nat) (s : State) : exec (.lifecycleTransition target bad) s = execLifecycleTransition target bad s := rfl
@[simp] theorem exec_lifecycleSelfReset (s : State) : exec (.lifecycleSelfReset) s = execLifecycleSelfReset s := rfl
@[simp] theorem exec_tokenVerify (s : State) : exec (.tokenVerify) s = execTokenVerify s := rfl
@[simp] theorem exec_newChallenge (s : State) : exec (.newChallenge) s = execNewChallenge s := rfl
@[simp] theorem exec_debugOpen (v : U32) (jtag : Bool) (s : State) : exec (.debugOpen v jtag) s = execDebugOpen v jtag s := rfl
@[simp] theorem exec_debugClose (s : State) : exec (.debugClose) s = execDebugClose s := rfl
@[simp] theorem exec_haltTile (v : U32) (s : State) : exec (.haltTile v) s = execHaltTile v s := rfl
@[simp] theorem exec_resumeTile (v : U32) (s : State) : exec (.resumeTile v) s = execResumeTile v s := rfl
@[simp] theorem exec_stepTile (v : U32) (s : State) : exec (.stepTile v) s = execStepTile v s := rfl
@[simp] theorem exec_keyRevoke (bad : Bool) (s : State) : exec (.keyRevoke bad) s = execKeyRevoke bad s := rfl
@[simp] theorem exec_attestationRequest (s : State) : exec (.attestationRequest) s = execAttestationRequest s := rfl
@[simp] theorem exec_attestationDone (s : State) : exec (.attestationDone) s = execAttestationDone s := rfl
@[simp] theorem exec_tapInstruction (ir : Tap) (s : State) : exec (.tapInstruction ir) s = execTapInstruction ir s := rfl
@[simp] theorem exec_tapReset (s : State) : exec (.tapReset) s = execTapReset s := rfl
@[simp] theorem exec_readReg (off : Nat) (now : U64) (s : State) : exec (.readReg off now) s = execReadReg off now s := rfl
@[simp] theorem exec_writeReg (off : Nat) (v : U32) (a : Access) (s : State) : exec (.writeReg off v a) s = execWriteReg off v a s := rfl
@[simp] theorem exec_wake (now : U64) (s : State) : exec (.wake now) s = execWake now s := rfl
@[simp] theorem exec_status (s : State) : exec (.status) s = execStatus s := rfl
@[simp] theorem exec_smbusAlertResponse (s : State) : exec (.smbusAlertResponse) s = execSmbusAlertResponse s := rfl
@[simp] theorem exec_portLinkUp (p : BitVec 4) (failed : Nat) (s : State) : exec (.portLinkUp p failed) s = execPortLinkUp p failed s := rfl
@[simp] theorem exec_thermalLimitEnd (x : Sensor) (c : Nat) (s : State) : exec (.thermalLimitEnd x c) s = execThermalLimitEnd x c s := rfl
@[simp] theorem exec_stepDigestComplete (s : State) : exec (.stepDigestComplete) s = execStepDigestComplete s := rfl
@[simp] theorem exec_savedContextWritten (s : State) : exec (.savedContextWritten) s = execSavedContextWritten s := rfl
@[simp] theorem exec_selftestResult (ok : Bool) (tiles : List TileId) (spares : List Nat) (badStacks : List Nat) (s : State) : exec (.selftestResult ok tiles spares badStacks) s = execSelftestResult ok tiles spares badStacks s := rfl
@[simp] theorem exec_inputPowerLoss (s : State) : exec (.inputPowerLoss) s = execInputPowerLoss s := rfl

end Sys2Proof.Machine
end

