-- ==== Sys2Proof/Laws/Mem.lean ====
section
/-!
SUPPORT. Memory: every operation keeps the canonical form, a byte written reads back, and every other byte stays.
-/
namespace Sys2Proof.Machine

theorem memFrom_le {j k : Nat} (h : j ≤ k) : ∀ {m : List Host.Cell}, memFrom k m = true → memFrom j m = true
  | [], _ => rfl
  | (a, v) :: m, hm => by
    simp only [memFrom, Bool.and_eq_true, decide_eq_true_eq] at hm ⊢
    exact ⟨⟨Nat.le_trans h hm.1.1, hm.1.2⟩, hm.2⟩

theorem memSet_from {a : Nat} {b : Byte} : ∀ {k : Nat} {m : List Host.Cell}, k ≤ a → memFrom k m = true → memFrom k (memSet m a b) = true
  | k, [], h, _ => by
    unfold memSet; split <;> rename_i hb
    · rfl
    · simp [memFrom, h, hb]
  | k, (c, v) :: m, h, hm => by
    simp only [memFrom, Bool.and_eq_true, decide_eq_true_eq] at hm
    obtain ⟨⟨hk, hv⟩, hm⟩ := hm
    unfold memSet
    split
    · rename_i hc
      simp only [memFrom, Bool.and_eq_true, decide_eq_true_eq]
      exact ⟨⟨hk, hv⟩, memSet_from (by omega) hm⟩
    · split
      · split
        · exact memFrom_le (by omega) hm
        · rename_i hc hb
          subst hc
          simp [memFrom, h, hb, hm]
      · split
        · simp [memFrom, hk, hm]; simpa using hv
        · rename_i h1 h2 hb
          have : a < c := by omega
          simp only [memFrom, Bool.and_eq_true, decide_eq_true_eq, bne_iff_ne, ne_eq]
          exact ⟨⟨h, hb⟩, ⟨by omega, by simpa using hv⟩, hm⟩

/-- Setting a byte keeps the canonical form. -/
theorem memSet_wf {m : List Host.Cell} (a : Nat) (b : Byte) (h : Memory.wf m = true) : Memory.wf (memSet m a b) = true :=
  memSet_from (Nat.zero_le a) h

/-- Writing bytes keeps the canonical form. -/
theorem memWrite_wf : ∀ (bs : List Byte) {m : List Host.Cell} (a : Nat), Memory.wf m = true → Memory.wf (memWrite m a bs) = true
  | [], _, _, h => h
  | b :: bs, _, a, h => memWrite_wf bs (a + 1) (memSet_wf a b h)

theorem memFilter_from (p : Host.Cell → Bool) : ∀ {k : Nat} {m : List Host.Cell}, memFrom k m = true → memFrom k (m.filter p) = true
  | _, [], _ => rfl
  | k, (a, v) :: m, hm => by
    simp only [memFrom, Bool.and_eq_true, decide_eq_true_eq] at hm
    rw [List.filter_cons]
    split
    · simp only [memFrom, Bool.and_eq_true, decide_eq_true_eq]
      exact ⟨hm.1, memFilter_from p hm.2⟩
    · exact memFrom_le (by omega) (memFilter_from p hm.2)

/-- Wiping a range keeps the canonical form. -/
theorem memWipe_wf {m : List Host.Cell} (lo hi : Nat) (h : Memory.wf m = true) : Memory.wf (memWipe m lo hi) = true :=
  memFilter_from _ h

theorem memGet_below {a : Nat} : ∀ {k : Nat} {m : List Host.Cell}, memFrom k m = true → a < k → memGet m a = memDefault
  | _, [], _, _ => rfl
  | k, (c, v) :: m, hm, h => by
    simp only [memFrom, Bool.and_eq_true, decide_eq_true_eq] at hm
    have : a < c := by omega
    simp [memGet, Nat.ne_of_gt this, this]

theorem memGet_memSet_from {a k : Nat} {b : Byte} (e : Nat) : ∀ {m : List Host.Cell}, memFrom k m = true →
    memGet (memSet m a b) e = if e = a then b else memGet m e := by
  intro m hm
  induction m generalizing k with
  | nil =>
    unfold memSet; split <;> rename_i hb
    · subst hb; simp [memGet]
    · by_cases he : e = a
      · subst he; simp [memGet]
      · simp [memGet, he, Ne.symm he]
  | cons p m ih =>
    obtain ⟨c, v⟩ := p
    simp only [memFrom, Bool.and_eq_true, decide_eq_true_eq] at hm
    obtain ⟨⟨hk, hv⟩, hm⟩ := hm
    unfold memSet
    split
    · rename_i hc
      by_cases h1 : c = e
      · subst h1
        have : c ≠ a := by omega
        simp [memGet, this]
      · by_cases h2 : e < c
        · have : e ≠ a := by omega
          simp [memGet, h1, h2, this]
        · simp only [memGet, h1, h2, if_false]; exact ih hm
    · split
      · rename_i hn hc
        subst hc
        split
        · rename_i hb
          subst hb
          by_cases h1 : e = c
          · subst h1; simp [memGet_below hm (Nat.lt_succ_self _)]
          · by_cases h2 : e < c
            · rw [memGet_below hm (by omega)]; simp [memGet, h1, Ne.symm h1, h2]
            · simp [memGet, h1, Ne.symm h1, h2]
        · by_cases h1 : e = c
          · subst h1; simp [memGet]
          · simp [memGet, h1, Ne.symm h1]
      · rename_i h1 h2
        have hlt : a < c := by omega
        split
        · rename_i hb
          subst hb
          by_cases he : e = a
          · subst he; simp [memGet, Nat.ne_of_gt hlt, hlt]
          · simp [he]
        · by_cases he : e = a
          · subst he; simp [memGet]
          · by_cases hea : e < a
            · have : e < c := by omega
              simp [memGet, he, Ne.symm he, hea, Nat.ne_of_gt this, this]
            · simp [memGet, he, Ne.symm he, hea]

/-- Read after write of one byte. -/
theorem memGet_memSet {m : List Host.Cell} (h : Memory.wf m = true) (a : Nat) (b : Byte) (e : Nat) :
    memGet (memSet m a b) e = if e = a then b else memGet m e := memGet_memSet_from e h

/-- Bytes outside a write stay. -/
theorem memGet_memWrite_out (bs : List Byte) : ∀ {m : List Host.Cell} (a : Nat) {e : Nat}, Memory.wf m = true → (e < a ∨ a + bs.length ≤ e) →
    memGet (memWrite m a bs) e = memGet m e := by
  induction bs with
  | nil => intros; rfl
  | cons b bs ih =>
    intro m a e h he
    have hl : (b :: bs).length = bs.length + 1 := rfl
    have : e ≠ a := by rw [hl] at he; omega
    rw [memWrite, ih (a + 1) (memSet_wf a b h) (by rw [hl] at he; omega), memGet_memSet h, if_neg this]

/-- Bytes inside a write read back. -/
theorem memGet_memWrite_in (bs : List Byte) : ∀ {m : List Host.Cell} (a : Nat) {i : Nat} (hi : i < bs.length), Memory.wf m = true →
    memGet (memWrite m a bs) (a + i) = bs[i] := by
  induction bs with
  | nil => intro _ _ i hi; exact absurd hi (Nat.not_lt_zero _)
  | cons b bs ih =>
    intro m a i hi h
    cases i with
    | zero =>
      rw [memWrite, memGet_memWrite_out bs (a + 1) (memSet_wf a b h) (by omega), memGet_memSet h]
      simp
    | succ i =>
      have := ih (a + 1) (i := i) (by simpa using hi) (memSet_wf a b h)
      rw [memWrite, show a + (i + 1) = a + 1 + i by omega, this]
      rfl

/-- What a write stored, read back as a whole. -/
theorem memRead_memWrite {m : List Host.Cell} (h : Memory.wf m = true) (a : Nat) (bs : List Byte) :
    memRead (memWrite m a bs) a bs.length = bs := by
  apply List.ext_getElem
  · simp [memRead]
  · intro i h1 h2
    simp only [memRead, List.getElem_map, List.getElem_range]
    exact memGet_memWrite_in bs a h2 h

/-- Bytes outside a wiped range stay. -/
theorem memGet_memWipe_out {lo hi e : Nat} (he : e < lo ∨ hi ≤ e) : ∀ {k : Nat} {m : List Host.Cell}, memFrom k m = true →
    memGet (memWipe m lo hi) e = memGet m e
  | _, [], _ => rfl
  | k, (a, v) :: m, hm => by
    simp only [memFrom, Bool.and_eq_true, decide_eq_true_eq] at hm
    have ih := memGet_memWipe_out he (k := a + 1) hm.2
    have hw := memWipe_wf lo hi (m := m) (memFrom_le (Nat.zero_le _) hm.2)
    unfold memWipe at ih hw ⊢
    rw [List.filter_cons]
    split
    · simp only [memGet, ih]
    · rename_i hc
      rw [ih]
      have : a ≠ e := by rintro rfl; simp at hc; omega
      by_cases h : e < a
      · rw [memGet_below hm.2 (by omega)]; simp [memGet, this, h]
      · simp [memGet, this, h]

end Sys2Proof.Machine
end

