-- ==== Sys2Proof/Laws/State.lean ====
section
/-!
SUPPORT. One lemma per field and effect: what the effect leaves in the field.
-/
namespace Sys2Proof.Machine

section
variable (s : State) (r : Reg) (v : U32)
@[simp] theorem apply_reg_regs : (s.apply (.reg r v)).regs = tset s.regs r (v &&& r.impl) := rfl
@[simp] theorem apply_reg_latched : (s.apply (.reg r v)).latched = s.latched := rfl
@[simp] theorem apply_reg_held : (s.apply (.reg r v)).held = s.held := rfl
@[simp] theorem apply_reg_mem : (s.apply (.reg r v)).mem = s.mem := rfl
@[simp] theorem apply_reg_tiles : (s.apply (.reg r v)).tiles = s.tiles := rfl
@[simp] theorem apply_reg_rows : (s.apply (.reg r v)).rows = s.rows := rfl
@[simp] theorem apply_reg_slots : (s.apply (.reg r v)).slots = s.slots := rfl
@[simp] theorem apply_reg_job : (s.apply (.reg r v)).job = s.job := rfl
@[simp] theorem apply_reg_echo : (s.apply (.reg r v)).echo = s.echo := rfl
@[simp] theorem apply_reg_flt : (s.apply (.reg r v)).flt = s.flt := rfl
@[simp] theorem apply_reg_hif : (s.apply (.reg r v)).hif = s.hif := rfl
@[simp] theorem apply_reg_net : (s.apply (.reg r v)).net = s.net := rfl
@[simp] theorem apply_reg_pwr : (s.apply (.reg r v)).pwr = s.pwr := rfl
@[simp] theorem apply_reg_boot : (s.apply (.reg r v)).boot = s.boot := rfl
@[simp] theorem apply_reg_ent : (s.apply (.reg r v)).ent = s.ent := rfl
@[simp] theorem apply_reg_sec : (s.apply (.reg r v)).sec = s.sec := rfl
@[simp] theorem apply_reg_otp : (s.apply (.reg r v)).otp = s.otp := rfl
@[simp] theorem apply_reg_pins : (s.apply (.reg r v)).pins = s.pins := rfl
@[simp] theorem apply_reg_out : (s.apply (.reg r v)).out = s.out := rfl
@[simp] theorem apply_reg_free : (s.apply (.reg r v)).free = s.free := rfl
@[simp] theorem apply_reg_pending : (s.apply (.reg r v)).pending = s.pending := rfl
end

section
variable (s : State) (t : Tab Reg U32)
@[simp] theorem apply_regs_regs : (s.apply (.regs t)).regs = maskRegs t := rfl
@[simp] theorem apply_regs_latched : (s.apply (.regs t)).latched = s.latched := rfl
@[simp] theorem apply_regs_held : (s.apply (.regs t)).held = s.held := rfl
@[simp] theorem apply_regs_mem : (s.apply (.regs t)).mem = s.mem := rfl
@[simp] theorem apply_regs_tiles : (s.apply (.regs t)).tiles = s.tiles := rfl
@[simp] theorem apply_regs_rows : (s.apply (.regs t)).rows = s.rows := rfl
@[simp] theorem apply_regs_slots : (s.apply (.regs t)).slots = s.slots := rfl
@[simp] theorem apply_regs_job : (s.apply (.regs t)).job = s.job := rfl
@[simp] theorem apply_regs_echo : (s.apply (.regs t)).echo = s.echo := rfl
@[simp] theorem apply_regs_flt : (s.apply (.regs t)).flt = s.flt := rfl
@[simp] theorem apply_regs_hif : (s.apply (.regs t)).hif = s.hif := rfl
@[simp] theorem apply_regs_net : (s.apply (.regs t)).net = s.net := rfl
@[simp] theorem apply_regs_pwr : (s.apply (.regs t)).pwr = s.pwr := rfl
@[simp] theorem apply_regs_boot : (s.apply (.regs t)).boot = s.boot := rfl
@[simp] theorem apply_regs_ent : (s.apply (.regs t)).ent = s.ent := rfl
@[simp] theorem apply_regs_sec : (s.apply (.regs t)).sec = s.sec := rfl
@[simp] theorem apply_regs_otp : (s.apply (.regs t)).otp = s.otp := rfl
@[simp] theorem apply_regs_pins : (s.apply (.regs t)).pins = s.pins := rfl
@[simp] theorem apply_regs_out : (s.apply (.regs t)).out = s.out := rfl
@[simp] theorem apply_regs_free : (s.apply (.regs t)).free = s.free := rfl
@[simp] theorem apply_regs_pending : (s.apply (.regs t)).pending = s.pending := rfl
end

section
variable (s : State) (t : Tab Reg U32)
@[simp] theorem apply_latched_regs : (s.apply (.latched t)).regs = s.regs := rfl
@[simp] theorem apply_latched_latched : (s.apply (.latched t)).latched = t := rfl
@[simp] theorem apply_latched_held : (s.apply (.latched t)).held = s.held := rfl
@[simp] theorem apply_latched_mem : (s.apply (.latched t)).mem = s.mem := rfl
@[simp] theorem apply_latched_tiles : (s.apply (.latched t)).tiles = s.tiles := rfl
@[simp] theorem apply_latched_rows : (s.apply (.latched t)).rows = s.rows := rfl
@[simp] theorem apply_latched_slots : (s.apply (.latched t)).slots = s.slots := rfl
@[simp] theorem apply_latched_job : (s.apply (.latched t)).job = s.job := rfl
@[simp] theorem apply_latched_echo : (s.apply (.latched t)).echo = s.echo := rfl
@[simp] theorem apply_latched_flt : (s.apply (.latched t)).flt = s.flt := rfl
@[simp] theorem apply_latched_hif : (s.apply (.latched t)).hif = s.hif := rfl
@[simp] theorem apply_latched_net : (s.apply (.latched t)).net = s.net := rfl
@[simp] theorem apply_latched_pwr : (s.apply (.latched t)).pwr = s.pwr := rfl
@[simp] theorem apply_latched_boot : (s.apply (.latched t)).boot = s.boot := rfl
@[simp] theorem apply_latched_ent : (s.apply (.latched t)).ent = s.ent := rfl
@[simp] theorem apply_latched_sec : (s.apply (.latched t)).sec = s.sec := rfl
@[simp] theorem apply_latched_otp : (s.apply (.latched t)).otp = s.otp := rfl
@[simp] theorem apply_latched_pins : (s.apply (.latched t)).pins = s.pins := rfl
@[simp] theorem apply_latched_out : (s.apply (.latched t)).out = s.out := rfl
@[simp] theorem apply_latched_free : (s.apply (.latched t)).free = s.free := rfl
@[simp] theorem apply_latched_pending : (s.apply (.latched t)).pending = s.pending := rfl
end

section
variable (s : State) (t : Tab Reg U32)
@[simp] theorem apply_held_regs : (s.apply (.held t)).regs = s.regs := rfl
@[simp] theorem apply_held_latched : (s.apply (.held t)).latched = s.latched := rfl
@[simp] theorem apply_held_held : (s.apply (.held t)).held = t := rfl
@[simp] theorem apply_held_mem : (s.apply (.held t)).mem = s.mem := rfl
@[simp] theorem apply_held_tiles : (s.apply (.held t)).tiles = s.tiles := rfl
@[simp] theorem apply_held_rows : (s.apply (.held t)).rows = s.rows := rfl
@[simp] theorem apply_held_slots : (s.apply (.held t)).slots = s.slots := rfl
@[simp] theorem apply_held_job : (s.apply (.held t)).job = s.job := rfl
@[simp] theorem apply_held_echo : (s.apply (.held t)).echo = s.echo := rfl
@[simp] theorem apply_held_flt : (s.apply (.held t)).flt = s.flt := rfl
@[simp] theorem apply_held_hif : (s.apply (.held t)).hif = s.hif := rfl
@[simp] theorem apply_held_net : (s.apply (.held t)).net = s.net := rfl
@[simp] theorem apply_held_pwr : (s.apply (.held t)).pwr = s.pwr := rfl
@[simp] theorem apply_held_boot : (s.apply (.held t)).boot = s.boot := rfl
@[simp] theorem apply_held_ent : (s.apply (.held t)).ent = s.ent := rfl
@[simp] theorem apply_held_sec : (s.apply (.held t)).sec = s.sec := rfl
@[simp] theorem apply_held_otp : (s.apply (.held t)).otp = s.otp := rfl
@[simp] theorem apply_held_pins : (s.apply (.held t)).pins = s.pins := rfl
@[simp] theorem apply_held_out : (s.apply (.held t)).out = s.out := rfl
@[simp] theorem apply_held_free : (s.apply (.held t)).free = s.free := rfl
@[simp] theorem apply_held_pending : (s.apply (.held t)).pending = s.pending := rfl
end

section
variable (s : State) (a : Nat) (bs : List Byte)
@[simp] theorem apply_store_regs : (s.apply (.store a bs)).regs = s.regs := rfl
@[simp] theorem apply_store_latched : (s.apply (.store a bs)).latched = s.latched := rfl
@[simp] theorem apply_store_held : (s.apply (.store a bs)).held = s.held := rfl
@[simp] theorem apply_store_mem : (s.apply (.store a bs)).mem = memWrite s.mem a bs := rfl
@[simp] theorem apply_store_tiles : (s.apply (.store a bs)).tiles = s.tiles := rfl
@[simp] theorem apply_store_rows : (s.apply (.store a bs)).rows = s.rows := rfl
@[simp] theorem apply_store_slots : (s.apply (.store a bs)).slots = s.slots := rfl
@[simp] theorem apply_store_job : (s.apply (.store a bs)).job = s.job := rfl
@[simp] theorem apply_store_echo : (s.apply (.store a bs)).echo = s.echo := rfl
@[simp] theorem apply_store_flt : (s.apply (.store a bs)).flt = s.flt := rfl
@[simp] theorem apply_store_hif : (s.apply (.store a bs)).hif = s.hif := rfl
@[simp] theorem apply_store_net : (s.apply (.store a bs)).net = s.net := rfl
@[simp] theorem apply_store_pwr : (s.apply (.store a bs)).pwr = s.pwr := rfl
@[simp] theorem apply_store_boot : (s.apply (.store a bs)).boot = s.boot := rfl
@[simp] theorem apply_store_ent : (s.apply (.store a bs)).ent = s.ent := rfl
@[simp] theorem apply_store_sec : (s.apply (.store a bs)).sec = s.sec := rfl
@[simp] theorem apply_store_otp : (s.apply (.store a bs)).otp = s.otp := rfl
@[simp] theorem apply_store_pins : (s.apply (.store a bs)).pins = s.pins := rfl
@[simp] theorem apply_store_out : (s.apply (.store a bs)).out = s.out := rfl
@[simp] theorem apply_store_free : (s.apply (.store a bs)).free = s.free := rfl
@[simp] theorem apply_store_pending : (s.apply (.store a bs)).pending = s.pending := rfl
end

section
variable (s : State) (lo hi : Nat)
@[simp] theorem apply_wipe_regs : (s.apply (.wipe lo hi)).regs = s.regs := rfl
@[simp] theorem apply_wipe_latched : (s.apply (.wipe lo hi)).latched = s.latched := rfl
@[simp] theorem apply_wipe_held : (s.apply (.wipe lo hi)).held = s.held := rfl
@[simp] theorem apply_wipe_mem : (s.apply (.wipe lo hi)).mem = memWipe s.mem lo hi := rfl
@[simp] theorem apply_wipe_tiles : (s.apply (.wipe lo hi)).tiles = s.tiles := rfl
@[simp] theorem apply_wipe_rows : (s.apply (.wipe lo hi)).rows = s.rows := rfl
@[simp] theorem apply_wipe_slots : (s.apply (.wipe lo hi)).slots = s.slots := rfl
@[simp] theorem apply_wipe_job : (s.apply (.wipe lo hi)).job = s.job := rfl
@[simp] theorem apply_wipe_echo : (s.apply (.wipe lo hi)).echo = s.echo := rfl
@[simp] theorem apply_wipe_flt : (s.apply (.wipe lo hi)).flt = s.flt := rfl
@[simp] theorem apply_wipe_hif : (s.apply (.wipe lo hi)).hif = s.hif := rfl
@[simp] theorem apply_wipe_net : (s.apply (.wipe lo hi)).net = s.net := rfl
@[simp] theorem apply_wipe_pwr : (s.apply (.wipe lo hi)).pwr = s.pwr := rfl
@[simp] theorem apply_wipe_boot : (s.apply (.wipe lo hi)).boot = s.boot := rfl
@[simp] theorem apply_wipe_ent : (s.apply (.wipe lo hi)).ent = s.ent := rfl
@[simp] theorem apply_wipe_sec : (s.apply (.wipe lo hi)).sec = s.sec := rfl
@[simp] theorem apply_wipe_otp : (s.apply (.wipe lo hi)).otp = s.otp := rfl
@[simp] theorem apply_wipe_pins : (s.apply (.wipe lo hi)).pins = s.pins := rfl
@[simp] theorem apply_wipe_out : (s.apply (.wipe lo hi)).out = s.out := rfl
@[simp] theorem apply_wipe_free : (s.apply (.wipe lo hi)).free = s.free := rfl
@[simp] theorem apply_wipe_pending : (s.apply (.wipe lo hi)).pending = s.pending := rfl
end

section
variable (s : State) (t : TileId) (v : Tile)
@[simp] theorem apply_tile_regs : (s.apply (.tile t v)).regs = s.regs := rfl
@[simp] theorem apply_tile_latched : (s.apply (.tile t v)).latched = s.latched := rfl
@[simp] theorem apply_tile_held : (s.apply (.tile t v)).held = s.held := rfl
@[simp] theorem apply_tile_mem : (s.apply (.tile t v)).mem = s.mem := rfl
@[simp] theorem apply_tile_tiles : (s.apply (.tile t v)).tiles = tset s.tiles t v := rfl
@[simp] theorem apply_tile_rows : (s.apply (.tile t v)).rows = s.rows := rfl
@[simp] theorem apply_tile_slots : (s.apply (.tile t v)).slots = s.slots := rfl
@[simp] theorem apply_tile_job : (s.apply (.tile t v)).job = s.job := rfl
@[simp] theorem apply_tile_echo : (s.apply (.tile t v)).echo = s.echo := rfl
@[simp] theorem apply_tile_flt : (s.apply (.tile t v)).flt = s.flt := rfl
@[simp] theorem apply_tile_hif : (s.apply (.tile t v)).hif = s.hif := rfl
@[simp] theorem apply_tile_net : (s.apply (.tile t v)).net = s.net := rfl
@[simp] theorem apply_tile_pwr : (s.apply (.tile t v)).pwr = s.pwr := rfl
@[simp] theorem apply_tile_boot : (s.apply (.tile t v)).boot = s.boot := rfl
@[simp] theorem apply_tile_ent : (s.apply (.tile t v)).ent = s.ent := rfl
@[simp] theorem apply_tile_sec : (s.apply (.tile t v)).sec = s.sec := rfl
@[simp] theorem apply_tile_otp : (s.apply (.tile t v)).otp = s.otp := rfl
@[simp] theorem apply_tile_pins : (s.apply (.tile t v)).pins = s.pins := rfl
@[simp] theorem apply_tile_out : (s.apply (.tile t v)).out = s.out := rfl
@[simp] theorem apply_tile_free : (s.apply (.tile t v)).free = s.free := rfl
@[simp] theorem apply_tile_pending : (s.apply (.tile t v)).pending = s.pending := rfl
end

section
variable (s : State) (t : Tab TileId Tile)
@[simp] theorem apply_tiles_regs : (s.apply (.tiles t)).regs = s.regs := rfl
@[simp] theorem apply_tiles_latched : (s.apply (.tiles t)).latched = s.latched := rfl
@[simp] theorem apply_tiles_held : (s.apply (.tiles t)).held = s.held := rfl
@[simp] theorem apply_tiles_mem : (s.apply (.tiles t)).mem = s.mem := rfl
@[simp] theorem apply_tiles_tiles : (s.apply (.tiles t)).tiles = t := rfl
@[simp] theorem apply_tiles_rows : (s.apply (.tiles t)).rows = s.rows := rfl
@[simp] theorem apply_tiles_slots : (s.apply (.tiles t)).slots = s.slots := rfl
@[simp] theorem apply_tiles_job : (s.apply (.tiles t)).job = s.job := rfl
@[simp] theorem apply_tiles_echo : (s.apply (.tiles t)).echo = s.echo := rfl
@[simp] theorem apply_tiles_flt : (s.apply (.tiles t)).flt = s.flt := rfl
@[simp] theorem apply_tiles_hif : (s.apply (.tiles t)).hif = s.hif := rfl
@[simp] theorem apply_tiles_net : (s.apply (.tiles t)).net = s.net := rfl
@[simp] theorem apply_tiles_pwr : (s.apply (.tiles t)).pwr = s.pwr := rfl
@[simp] theorem apply_tiles_boot : (s.apply (.tiles t)).boot = s.boot := rfl
@[simp] theorem apply_tiles_ent : (s.apply (.tiles t)).ent = s.ent := rfl
@[simp] theorem apply_tiles_sec : (s.apply (.tiles t)).sec = s.sec := rfl
@[simp] theorem apply_tiles_otp : (s.apply (.tiles t)).otp = s.otp := rfl
@[simp] theorem apply_tiles_pins : (s.apply (.tiles t)).pins = s.pins := rfl
@[simp] theorem apply_tiles_out : (s.apply (.tiles t)).out = s.out := rfl
@[simp] theorem apply_tiles_free : (s.apply (.tiles t)).free = s.free := rfl
@[simp] theorem apply_tiles_pending : (s.apply (.tiles t)).pending = s.pending := rfl
end

section
variable (s : State) (n : BitVec 9) (v : Row)
@[simp] theorem apply_row_regs : (s.apply (.row n v)).regs = s.regs := rfl
@[simp] theorem apply_row_latched : (s.apply (.row n v)).latched = s.latched := rfl
@[simp] theorem apply_row_held : (s.apply (.row n v)).held = s.held := rfl
@[simp] theorem apply_row_mem : (s.apply (.row n v)).mem = s.mem := rfl
@[simp] theorem apply_row_tiles : (s.apply (.row n v)).tiles = s.tiles := rfl
@[simp] theorem apply_row_rows : (s.apply (.row n v)).rows = tset s.rows n v := rfl
@[simp] theorem apply_row_slots : (s.apply (.row n v)).slots = s.slots := rfl
@[simp] theorem apply_row_job : (s.apply (.row n v)).job = s.job := rfl
@[simp] theorem apply_row_echo : (s.apply (.row n v)).echo = s.echo := rfl
@[simp] theorem apply_row_flt : (s.apply (.row n v)).flt = s.flt := rfl
@[simp] theorem apply_row_hif : (s.apply (.row n v)).hif = s.hif := rfl
@[simp] theorem apply_row_net : (s.apply (.row n v)).net = s.net := rfl
@[simp] theorem apply_row_pwr : (s.apply (.row n v)).pwr = s.pwr := rfl
@[simp] theorem apply_row_boot : (s.apply (.row n v)).boot = s.boot := rfl
@[simp] theorem apply_row_ent : (s.apply (.row n v)).ent = s.ent := rfl
@[simp] theorem apply_row_sec : (s.apply (.row n v)).sec = s.sec := rfl
@[simp] theorem apply_row_otp : (s.apply (.row n v)).otp = s.otp := rfl
@[simp] theorem apply_row_pins : (s.apply (.row n v)).pins = s.pins := rfl
@[simp] theorem apply_row_out : (s.apply (.row n v)).out = s.out := rfl
@[simp] theorem apply_row_free : (s.apply (.row n v)).free = s.free := rfl
@[simp] theorem apply_row_pending : (s.apply (.row n v)).pending = s.pending := rfl
end

section
variable (s : State) (t : Tab (BitVec 9) Row)
@[simp] theorem apply_rows_regs : (s.apply (.rows t)).regs = s.regs := rfl
@[simp] theorem apply_rows_latched : (s.apply (.rows t)).latched = s.latched := rfl
@[simp] theorem apply_rows_held : (s.apply (.rows t)).held = s.held := rfl
@[simp] theorem apply_rows_mem : (s.apply (.rows t)).mem = s.mem := rfl
@[simp] theorem apply_rows_tiles : (s.apply (.rows t)).tiles = s.tiles := rfl
@[simp] theorem apply_rows_rows : (s.apply (.rows t)).rows = t := rfl
@[simp] theorem apply_rows_slots : (s.apply (.rows t)).slots = s.slots := rfl
@[simp] theorem apply_rows_job : (s.apply (.rows t)).job = s.job := rfl
@[simp] theorem apply_rows_echo : (s.apply (.rows t)).echo = s.echo := rfl
@[simp] theorem apply_rows_flt : (s.apply (.rows t)).flt = s.flt := rfl
@[simp] theorem apply_rows_hif : (s.apply (.rows t)).hif = s.hif := rfl
@[simp] theorem apply_rows_net : (s.apply (.rows t)).net = s.net := rfl
@[simp] theorem apply_rows_pwr : (s.apply (.rows t)).pwr = s.pwr := rfl
@[simp] theorem apply_rows_boot : (s.apply (.rows t)).boot = s.boot := rfl
@[simp] theorem apply_rows_ent : (s.apply (.rows t)).ent = s.ent := rfl
@[simp] theorem apply_rows_sec : (s.apply (.rows t)).sec = s.sec := rfl
@[simp] theorem apply_rows_otp : (s.apply (.rows t)).otp = s.otp := rfl
@[simp] theorem apply_rows_pins : (s.apply (.rows t)).pins = s.pins := rfl
@[simp] theorem apply_rows_out : (s.apply (.rows t)).out = s.out := rfl
@[simp] theorem apply_rows_free : (s.apply (.rows t)).free = s.free := rfl
@[simp] theorem apply_rows_pending : (s.apply (.rows t)).pending = s.pending := rfl
end

section
variable (s : State) (j : Nat) (v : Slot)
@[simp] theorem apply_slot_regs : (s.apply (.slot j v)).regs = s.regs := rfl
@[simp] theorem apply_slot_latched : (s.apply (.slot j v)).latched = s.latched := rfl
@[simp] theorem apply_slot_held : (s.apply (.slot j v)).held = s.held := rfl
@[simp] theorem apply_slot_mem : (s.apply (.slot j v)).mem = s.mem := rfl
@[simp] theorem apply_slot_tiles : (s.apply (.slot j v)).tiles = s.tiles := rfl
@[simp] theorem apply_slot_rows : (s.apply (.slot j v)).rows = s.rows := rfl
@[simp] theorem apply_slot_slots : (s.apply (.slot j v)).slots = tset s.slots j v := rfl
@[simp] theorem apply_slot_job : (s.apply (.slot j v)).job = s.job := rfl
@[simp] theorem apply_slot_echo : (s.apply (.slot j v)).echo = s.echo := rfl
@[simp] theorem apply_slot_flt : (s.apply (.slot j v)).flt = s.flt := rfl
@[simp] theorem apply_slot_hif : (s.apply (.slot j v)).hif = s.hif := rfl
@[simp] theorem apply_slot_net : (s.apply (.slot j v)).net = s.net := rfl
@[simp] theorem apply_slot_pwr : (s.apply (.slot j v)).pwr = s.pwr := rfl
@[simp] theorem apply_slot_boot : (s.apply (.slot j v)).boot = s.boot := rfl
@[simp] theorem apply_slot_ent : (s.apply (.slot j v)).ent = s.ent := rfl
@[simp] theorem apply_slot_sec : (s.apply (.slot j v)).sec = s.sec := rfl
@[simp] theorem apply_slot_otp : (s.apply (.slot j v)).otp = s.otp := rfl
@[simp] theorem apply_slot_pins : (s.apply (.slot j v)).pins = s.pins := rfl
@[simp] theorem apply_slot_out : (s.apply (.slot j v)).out = s.out := rfl
@[simp] theorem apply_slot_free : (s.apply (.slot j v)).free = s.free := rfl
@[simp] theorem apply_slot_pending : (s.apply (.slot j v)).pending = s.pending := rfl
end

section
variable (s : State) (t : Tab Nat Slot)
@[simp] theorem apply_slots_regs : (s.apply (.slots t)).regs = s.regs := rfl
@[simp] theorem apply_slots_latched : (s.apply (.slots t)).latched = s.latched := rfl
@[simp] theorem apply_slots_held : (s.apply (.slots t)).held = s.held := rfl
@[simp] theorem apply_slots_mem : (s.apply (.slots t)).mem = s.mem := rfl
@[simp] theorem apply_slots_tiles : (s.apply (.slots t)).tiles = s.tiles := rfl
@[simp] theorem apply_slots_rows : (s.apply (.slots t)).rows = s.rows := rfl
@[simp] theorem apply_slots_slots : (s.apply (.slots t)).slots = t := rfl
@[simp] theorem apply_slots_job : (s.apply (.slots t)).job = s.job := rfl
@[simp] theorem apply_slots_echo : (s.apply (.slots t)).echo = s.echo := rfl
@[simp] theorem apply_slots_flt : (s.apply (.slots t)).flt = s.flt := rfl
@[simp] theorem apply_slots_hif : (s.apply (.slots t)).hif = s.hif := rfl
@[simp] theorem apply_slots_net : (s.apply (.slots t)).net = s.net := rfl
@[simp] theorem apply_slots_pwr : (s.apply (.slots t)).pwr = s.pwr := rfl
@[simp] theorem apply_slots_boot : (s.apply (.slots t)).boot = s.boot := rfl
@[simp] theorem apply_slots_ent : (s.apply (.slots t)).ent = s.ent := rfl
@[simp] theorem apply_slots_sec : (s.apply (.slots t)).sec = s.sec := rfl
@[simp] theorem apply_slots_otp : (s.apply (.slots t)).otp = s.otp := rfl
@[simp] theorem apply_slots_pins : (s.apply (.slots t)).pins = s.pins := rfl
@[simp] theorem apply_slots_out : (s.apply (.slots t)).out = s.out := rfl
@[simp] theorem apply_slots_free : (s.apply (.slots t)).free = s.free := rfl
@[simp] theorem apply_slots_pending : (s.apply (.slots t)).pending = s.pending := rfl
end

section
variable (s : State) (v : Job)
@[simp] theorem apply_job_regs : (s.apply (.job v)).regs = s.regs := rfl
@[simp] theorem apply_job_latched : (s.apply (.job v)).latched = s.latched := rfl
@[simp] theorem apply_job_held : (s.apply (.job v)).held = s.held := rfl
@[simp] theorem apply_job_mem : (s.apply (.job v)).mem = s.mem := rfl
@[simp] theorem apply_job_tiles : (s.apply (.job v)).tiles = s.tiles := rfl
@[simp] theorem apply_job_rows : (s.apply (.job v)).rows = s.rows := rfl
@[simp] theorem apply_job_slots : (s.apply (.job v)).slots = s.slots := rfl
@[simp] theorem apply_job_job : (s.apply (.job v)).job = v := rfl
@[simp] theorem apply_job_echo : (s.apply (.job v)).echo = s.echo := rfl
@[simp] theorem apply_job_flt : (s.apply (.job v)).flt = s.flt := rfl
@[simp] theorem apply_job_hif : (s.apply (.job v)).hif = s.hif := rfl
@[simp] theorem apply_job_net : (s.apply (.job v)).net = s.net := rfl
@[simp] theorem apply_job_pwr : (s.apply (.job v)).pwr = s.pwr := rfl
@[simp] theorem apply_job_boot : (s.apply (.job v)).boot = s.boot := rfl
@[simp] theorem apply_job_ent : (s.apply (.job v)).ent = s.ent := rfl
@[simp] theorem apply_job_sec : (s.apply (.job v)).sec = s.sec := rfl
@[simp] theorem apply_job_otp : (s.apply (.job v)).otp = s.otp := rfl
@[simp] theorem apply_job_pins : (s.apply (.job v)).pins = s.pins := rfl
@[simp] theorem apply_job_out : (s.apply (.job v)).out = s.out := rfl
@[simp] theorem apply_job_free : (s.apply (.job v)).free = s.free := rfl
@[simp] theorem apply_job_pending : (s.apply (.job v)).pending = s.pending := rfl
end

section
variable (s : State) (v : Echo)
@[simp] theorem apply_echo_regs : (s.apply (.echo v)).regs = s.regs := rfl
@[simp] theorem apply_echo_latched : (s.apply (.echo v)).latched = s.latched := rfl
@[simp] theorem apply_echo_held : (s.apply (.echo v)).held = s.held := rfl
@[simp] theorem apply_echo_mem : (s.apply (.echo v)).mem = s.mem := rfl
@[simp] theorem apply_echo_tiles : (s.apply (.echo v)).tiles = s.tiles := rfl
@[simp] theorem apply_echo_rows : (s.apply (.echo v)).rows = s.rows := rfl
@[simp] theorem apply_echo_slots : (s.apply (.echo v)).slots = s.slots := rfl
@[simp] theorem apply_echo_job : (s.apply (.echo v)).job = s.job := rfl
@[simp] theorem apply_echo_echo : (s.apply (.echo v)).echo = v := rfl
@[simp] theorem apply_echo_flt : (s.apply (.echo v)).flt = s.flt := rfl
@[simp] theorem apply_echo_hif : (s.apply (.echo v)).hif = s.hif := rfl
@[simp] theorem apply_echo_net : (s.apply (.echo v)).net = s.net := rfl
@[simp] theorem apply_echo_pwr : (s.apply (.echo v)).pwr = s.pwr := rfl
@[simp] theorem apply_echo_boot : (s.apply (.echo v)).boot = s.boot := rfl
@[simp] theorem apply_echo_ent : (s.apply (.echo v)).ent = s.ent := rfl
@[simp] theorem apply_echo_sec : (s.apply (.echo v)).sec = s.sec := rfl
@[simp] theorem apply_echo_otp : (s.apply (.echo v)).otp = s.otp := rfl
@[simp] theorem apply_echo_pins : (s.apply (.echo v)).pins = s.pins := rfl
@[simp] theorem apply_echo_out : (s.apply (.echo v)).out = s.out := rfl
@[simp] theorem apply_echo_free : (s.apply (.echo v)).free = s.free := rfl
@[simp] theorem apply_echo_pending : (s.apply (.echo v)).pending = s.pending := rfl
end

section
variable (s : State) (v : Flt)
@[simp] theorem apply_flt_regs : (s.apply (.flt v)).regs = s.regs := rfl
@[simp] theorem apply_flt_latched : (s.apply (.flt v)).latched = s.latched := rfl
@[simp] theorem apply_flt_held : (s.apply (.flt v)).held = s.held := rfl
@[simp] theorem apply_flt_mem : (s.apply (.flt v)).mem = s.mem := rfl
@[simp] theorem apply_flt_tiles : (s.apply (.flt v)).tiles = s.tiles := rfl
@[simp] theorem apply_flt_rows : (s.apply (.flt v)).rows = s.rows := rfl
@[simp] theorem apply_flt_slots : (s.apply (.flt v)).slots = s.slots := rfl
@[simp] theorem apply_flt_job : (s.apply (.flt v)).job = s.job := rfl
@[simp] theorem apply_flt_echo : (s.apply (.flt v)).echo = s.echo := rfl
@[simp] theorem apply_flt_flt : (s.apply (.flt v)).flt = v := rfl
@[simp] theorem apply_flt_hif : (s.apply (.flt v)).hif = s.hif := rfl
@[simp] theorem apply_flt_net : (s.apply (.flt v)).net = s.net := rfl
@[simp] theorem apply_flt_pwr : (s.apply (.flt v)).pwr = s.pwr := rfl
@[simp] theorem apply_flt_boot : (s.apply (.flt v)).boot = s.boot := rfl
@[simp] theorem apply_flt_ent : (s.apply (.flt v)).ent = s.ent := rfl
@[simp] theorem apply_flt_sec : (s.apply (.flt v)).sec = s.sec := rfl
@[simp] theorem apply_flt_otp : (s.apply (.flt v)).otp = s.otp := rfl
@[simp] theorem apply_flt_pins : (s.apply (.flt v)).pins = s.pins := rfl
@[simp] theorem apply_flt_out : (s.apply (.flt v)).out = s.out := rfl
@[simp] theorem apply_flt_free : (s.apply (.flt v)).free = s.free := rfl
@[simp] theorem apply_flt_pending : (s.apply (.flt v)).pending = s.pending := rfl
end

section
variable (s : State) (v : Hif)
@[simp] theorem apply_hif_regs : (s.apply (.hif v)).regs = s.regs := rfl
@[simp] theorem apply_hif_latched : (s.apply (.hif v)).latched = s.latched := rfl
@[simp] theorem apply_hif_held : (s.apply (.hif v)).held = s.held := rfl
@[simp] theorem apply_hif_mem : (s.apply (.hif v)).mem = s.mem := rfl
@[simp] theorem apply_hif_tiles : (s.apply (.hif v)).tiles = s.tiles := rfl
@[simp] theorem apply_hif_rows : (s.apply (.hif v)).rows = s.rows := rfl
@[simp] theorem apply_hif_slots : (s.apply (.hif v)).slots = s.slots := rfl
@[simp] theorem apply_hif_job : (s.apply (.hif v)).job = s.job := rfl
@[simp] theorem apply_hif_echo : (s.apply (.hif v)).echo = s.echo := rfl
@[simp] theorem apply_hif_flt : (s.apply (.hif v)).flt = s.flt := rfl
@[simp] theorem apply_hif_hif : (s.apply (.hif v)).hif = v := rfl
@[simp] theorem apply_hif_net : (s.apply (.hif v)).net = s.net := rfl
@[simp] theorem apply_hif_pwr : (s.apply (.hif v)).pwr = s.pwr := rfl
@[simp] theorem apply_hif_boot : (s.apply (.hif v)).boot = s.boot := rfl
@[simp] theorem apply_hif_ent : (s.apply (.hif v)).ent = s.ent := rfl
@[simp] theorem apply_hif_sec : (s.apply (.hif v)).sec = s.sec := rfl
@[simp] theorem apply_hif_otp : (s.apply (.hif v)).otp = s.otp := rfl
@[simp] theorem apply_hif_pins : (s.apply (.hif v)).pins = s.pins := rfl
@[simp] theorem apply_hif_out : (s.apply (.hif v)).out = s.out := rfl
@[simp] theorem apply_hif_free : (s.apply (.hif v)).free = s.free := rfl
@[simp] theorem apply_hif_pending : (s.apply (.hif v)).pending = s.pending := rfl
end

section
variable (s : State) (v : Bexir)
@[simp] theorem apply_net_regs : (s.apply (.net v)).regs = s.regs := rfl
@[simp] theorem apply_net_latched : (s.apply (.net v)).latched = s.latched := rfl
@[simp] theorem apply_net_held : (s.apply (.net v)).held = s.held := rfl
@[simp] theorem apply_net_mem : (s.apply (.net v)).mem = s.mem := rfl
@[simp] theorem apply_net_tiles : (s.apply (.net v)).tiles = s.tiles := rfl
@[simp] theorem apply_net_rows : (s.apply (.net v)).rows = s.rows := rfl
@[simp] theorem apply_net_slots : (s.apply (.net v)).slots = s.slots := rfl
@[simp] theorem apply_net_job : (s.apply (.net v)).job = s.job := rfl
@[simp] theorem apply_net_echo : (s.apply (.net v)).echo = s.echo := rfl
@[simp] theorem apply_net_flt : (s.apply (.net v)).flt = s.flt := rfl
@[simp] theorem apply_net_hif : (s.apply (.net v)).hif = s.hif := rfl
@[simp] theorem apply_net_net : (s.apply (.net v)).net = v := rfl
@[simp] theorem apply_net_pwr : (s.apply (.net v)).pwr = s.pwr := rfl
@[simp] theorem apply_net_boot : (s.apply (.net v)).boot = s.boot := rfl
@[simp] theorem apply_net_ent : (s.apply (.net v)).ent = s.ent := rfl
@[simp] theorem apply_net_sec : (s.apply (.net v)).sec = s.sec := rfl
@[simp] theorem apply_net_otp : (s.apply (.net v)).otp = s.otp := rfl
@[simp] theorem apply_net_pins : (s.apply (.net v)).pins = s.pins := rfl
@[simp] theorem apply_net_out : (s.apply (.net v)).out = s.out := rfl
@[simp] theorem apply_net_free : (s.apply (.net v)).free = s.free := rfl
@[simp] theorem apply_net_pending : (s.apply (.net v)).pending = s.pending := rfl
end

section
variable (s : State) (v : Power)
@[simp] theorem apply_pwr_regs : (s.apply (.pwr v)).regs = s.regs := rfl
@[simp] theorem apply_pwr_latched : (s.apply (.pwr v)).latched = s.latched := rfl
@[simp] theorem apply_pwr_held : (s.apply (.pwr v)).held = s.held := rfl
@[simp] theorem apply_pwr_mem : (s.apply (.pwr v)).mem = s.mem := rfl
@[simp] theorem apply_pwr_tiles : (s.apply (.pwr v)).tiles = s.tiles := rfl
@[simp] theorem apply_pwr_rows : (s.apply (.pwr v)).rows = s.rows := rfl
@[simp] theorem apply_pwr_slots : (s.apply (.pwr v)).slots = s.slots := rfl
@[simp] theorem apply_pwr_job : (s.apply (.pwr v)).job = s.job := rfl
@[simp] theorem apply_pwr_echo : (s.apply (.pwr v)).echo = s.echo := rfl
@[simp] theorem apply_pwr_flt : (s.apply (.pwr v)).flt = s.flt := rfl
@[simp] theorem apply_pwr_hif : (s.apply (.pwr v)).hif = s.hif := rfl
@[simp] theorem apply_pwr_net : (s.apply (.pwr v)).net = s.net := rfl
@[simp] theorem apply_pwr_pwr : (s.apply (.pwr v)).pwr = v := rfl
@[simp] theorem apply_pwr_boot : (s.apply (.pwr v)).boot = s.boot := rfl
@[simp] theorem apply_pwr_ent : (s.apply (.pwr v)).ent = s.ent := rfl
@[simp] theorem apply_pwr_sec : (s.apply (.pwr v)).sec = s.sec := rfl
@[simp] theorem apply_pwr_otp : (s.apply (.pwr v)).otp = s.otp := rfl
@[simp] theorem apply_pwr_pins : (s.apply (.pwr v)).pins = s.pins := rfl
@[simp] theorem apply_pwr_out : (s.apply (.pwr v)).out = s.out := rfl
@[simp] theorem apply_pwr_free : (s.apply (.pwr v)).free = s.free := rfl
@[simp] theorem apply_pwr_pending : (s.apply (.pwr v)).pending = s.pending := rfl
end

section
variable (s : State) (v : Boot)
@[simp] theorem apply_boot_regs : (s.apply (.boot v)).regs = s.regs := rfl
@[simp] theorem apply_boot_latched : (s.apply (.boot v)).latched = s.latched := rfl
@[simp] theorem apply_boot_held : (s.apply (.boot v)).held = s.held := rfl
@[simp] theorem apply_boot_mem : (s.apply (.boot v)).mem = s.mem := rfl
@[simp] theorem apply_boot_tiles : (s.apply (.boot v)).tiles = s.tiles := rfl
@[simp] theorem apply_boot_rows : (s.apply (.boot v)).rows = s.rows := rfl
@[simp] theorem apply_boot_slots : (s.apply (.boot v)).slots = s.slots := rfl
@[simp] theorem apply_boot_job : (s.apply (.boot v)).job = s.job := rfl
@[simp] theorem apply_boot_echo : (s.apply (.boot v)).echo = s.echo := rfl
@[simp] theorem apply_boot_flt : (s.apply (.boot v)).flt = s.flt := rfl
@[simp] theorem apply_boot_hif : (s.apply (.boot v)).hif = s.hif := rfl
@[simp] theorem apply_boot_net : (s.apply (.boot v)).net = s.net := rfl
@[simp] theorem apply_boot_pwr : (s.apply (.boot v)).pwr = s.pwr := rfl
@[simp] theorem apply_boot_boot : (s.apply (.boot v)).boot = v := rfl
@[simp] theorem apply_boot_ent : (s.apply (.boot v)).ent = s.ent := rfl
@[simp] theorem apply_boot_sec : (s.apply (.boot v)).sec = s.sec := rfl
@[simp] theorem apply_boot_otp : (s.apply (.boot v)).otp = s.otp := rfl
@[simp] theorem apply_boot_pins : (s.apply (.boot v)).pins = s.pins := rfl
@[simp] theorem apply_boot_out : (s.apply (.boot v)).out = s.out := rfl
@[simp] theorem apply_boot_free : (s.apply (.boot v)).free = s.free := rfl
@[simp] theorem apply_boot_pending : (s.apply (.boot v)).pending = s.pending := rfl
end

section
variable (s : State) (v : Ent)
@[simp] theorem apply_ent_regs : (s.apply (.ent v)).regs = s.regs := rfl
@[simp] theorem apply_ent_latched : (s.apply (.ent v)).latched = s.latched := rfl
@[simp] theorem apply_ent_held : (s.apply (.ent v)).held = s.held := rfl
@[simp] theorem apply_ent_mem : (s.apply (.ent v)).mem = s.mem := rfl
@[simp] theorem apply_ent_tiles : (s.apply (.ent v)).tiles = s.tiles := rfl
@[simp] theorem apply_ent_rows : (s.apply (.ent v)).rows = s.rows := rfl
@[simp] theorem apply_ent_slots : (s.apply (.ent v)).slots = s.slots := rfl
@[simp] theorem apply_ent_job : (s.apply (.ent v)).job = s.job := rfl
@[simp] theorem apply_ent_echo : (s.apply (.ent v)).echo = s.echo := rfl
@[simp] theorem apply_ent_flt : (s.apply (.ent v)).flt = s.flt := rfl
@[simp] theorem apply_ent_hif : (s.apply (.ent v)).hif = s.hif := rfl
@[simp] theorem apply_ent_net : (s.apply (.ent v)).net = s.net := rfl
@[simp] theorem apply_ent_pwr : (s.apply (.ent v)).pwr = s.pwr := rfl
@[simp] theorem apply_ent_boot : (s.apply (.ent v)).boot = s.boot := rfl
@[simp] theorem apply_ent_ent : (s.apply (.ent v)).ent = v := rfl
@[simp] theorem apply_ent_sec : (s.apply (.ent v)).sec = s.sec := rfl
@[simp] theorem apply_ent_otp : (s.apply (.ent v)).otp = s.otp := rfl
@[simp] theorem apply_ent_pins : (s.apply (.ent v)).pins = s.pins := rfl
@[simp] theorem apply_ent_out : (s.apply (.ent v)).out = s.out := rfl
@[simp] theorem apply_ent_free : (s.apply (.ent v)).free = s.free := rfl
@[simp] theorem apply_ent_pending : (s.apply (.ent v)).pending = s.pending := rfl
end

section
variable (s : State) (v : Sec)
@[simp] theorem apply_sec_regs : (s.apply (.sec v)).regs = s.regs := rfl
@[simp] theorem apply_sec_latched : (s.apply (.sec v)).latched = s.latched := rfl
@[simp] theorem apply_sec_held : (s.apply (.sec v)).held = s.held := rfl
@[simp] theorem apply_sec_mem : (s.apply (.sec v)).mem = s.mem := rfl
@[simp] theorem apply_sec_tiles : (s.apply (.sec v)).tiles = s.tiles := rfl
@[simp] theorem apply_sec_rows : (s.apply (.sec v)).rows = s.rows := rfl
@[simp] theorem apply_sec_slots : (s.apply (.sec v)).slots = s.slots := rfl
@[simp] theorem apply_sec_job : (s.apply (.sec v)).job = s.job := rfl
@[simp] theorem apply_sec_echo : (s.apply (.sec v)).echo = s.echo := rfl
@[simp] theorem apply_sec_flt : (s.apply (.sec v)).flt = s.flt := rfl
@[simp] theorem apply_sec_hif : (s.apply (.sec v)).hif = s.hif := rfl
@[simp] theorem apply_sec_net : (s.apply (.sec v)).net = s.net := rfl
@[simp] theorem apply_sec_pwr : (s.apply (.sec v)).pwr = s.pwr := rfl
@[simp] theorem apply_sec_boot : (s.apply (.sec v)).boot = s.boot := rfl
@[simp] theorem apply_sec_ent : (s.apply (.sec v)).ent = s.ent := rfl
@[simp] theorem apply_sec_sec : (s.apply (.sec v)).sec = v := rfl
@[simp] theorem apply_sec_otp : (s.apply (.sec v)).otp = s.otp := rfl
@[simp] theorem apply_sec_pins : (s.apply (.sec v)).pins = s.pins := rfl
@[simp] theorem apply_sec_out : (s.apply (.sec v)).out = s.out := rfl
@[simp] theorem apply_sec_free : (s.apply (.sec v)).free = s.free := rfl
@[simp] theorem apply_sec_pending : (s.apply (.sec v)).pending = s.pending := rfl
end

section
variable (s : State) (v : Pins)
@[simp] theorem apply_pins_regs : (s.apply (.pins v)).regs = s.regs := rfl
@[simp] theorem apply_pins_latched : (s.apply (.pins v)).latched = s.latched := rfl
@[simp] theorem apply_pins_held : (s.apply (.pins v)).held = s.held := rfl
@[simp] theorem apply_pins_mem : (s.apply (.pins v)).mem = s.mem := rfl
@[simp] theorem apply_pins_tiles : (s.apply (.pins v)).tiles = s.tiles := rfl
@[simp] theorem apply_pins_rows : (s.apply (.pins v)).rows = s.rows := rfl
@[simp] theorem apply_pins_slots : (s.apply (.pins v)).slots = s.slots := rfl
@[simp] theorem apply_pins_job : (s.apply (.pins v)).job = s.job := rfl
@[simp] theorem apply_pins_echo : (s.apply (.pins v)).echo = s.echo := rfl
@[simp] theorem apply_pins_flt : (s.apply (.pins v)).flt = s.flt := rfl
@[simp] theorem apply_pins_hif : (s.apply (.pins v)).hif = s.hif := rfl
@[simp] theorem apply_pins_net : (s.apply (.pins v)).net = s.net := rfl
@[simp] theorem apply_pins_pwr : (s.apply (.pins v)).pwr = s.pwr := rfl
@[simp] theorem apply_pins_boot : (s.apply (.pins v)).boot = s.boot := rfl
@[simp] theorem apply_pins_ent : (s.apply (.pins v)).ent = s.ent := rfl
@[simp] theorem apply_pins_sec : (s.apply (.pins v)).sec = s.sec := rfl
@[simp] theorem apply_pins_otp : (s.apply (.pins v)).otp = s.otp := rfl
@[simp] theorem apply_pins_pins : (s.apply (.pins v)).pins = v := rfl
@[simp] theorem apply_pins_out : (s.apply (.pins v)).out = s.out := rfl
@[simp] theorem apply_pins_free : (s.apply (.pins v)).free = s.free := rfl
@[simp] theorem apply_pins_pending : (s.apply (.pins v)).pending = s.pending := rfl
end

section
variable (s : State) (v : Out)
@[simp] theorem apply_out_regs : (s.apply (.out v)).regs = s.regs := rfl
@[simp] theorem apply_out_latched : (s.apply (.out v)).latched = s.latched := rfl
@[simp] theorem apply_out_held : (s.apply (.out v)).held = s.held := rfl
@[simp] theorem apply_out_mem : (s.apply (.out v)).mem = s.mem := rfl
@[simp] theorem apply_out_tiles : (s.apply (.out v)).tiles = s.tiles := rfl
@[simp] theorem apply_out_rows : (s.apply (.out v)).rows = s.rows := rfl
@[simp] theorem apply_out_slots : (s.apply (.out v)).slots = s.slots := rfl
@[simp] theorem apply_out_job : (s.apply (.out v)).job = s.job := rfl
@[simp] theorem apply_out_echo : (s.apply (.out v)).echo = s.echo := rfl
@[simp] theorem apply_out_flt : (s.apply (.out v)).flt = s.flt := rfl
@[simp] theorem apply_out_hif : (s.apply (.out v)).hif = s.hif := rfl
@[simp] theorem apply_out_net : (s.apply (.out v)).net = s.net := rfl
@[simp] theorem apply_out_pwr : (s.apply (.out v)).pwr = s.pwr := rfl
@[simp] theorem apply_out_boot : (s.apply (.out v)).boot = s.boot := rfl
@[simp] theorem apply_out_ent : (s.apply (.out v)).ent = s.ent := rfl
@[simp] theorem apply_out_sec : (s.apply (.out v)).sec = s.sec := rfl
@[simp] theorem apply_out_otp : (s.apply (.out v)).otp = s.otp := rfl
@[simp] theorem apply_out_pins : (s.apply (.out v)).pins = s.pins := rfl
@[simp] theorem apply_out_out : (s.apply (.out v)).out = v := rfl
@[simp] theorem apply_out_free : (s.apply (.out v)).free = s.free := rfl
@[simp] theorem apply_out_pending : (s.apply (.out v)).pending = s.pending := rfl
end

section
variable (s : State)
@[simp] theorem apply_tick_regs : (s.apply .tick).regs = s.regs := rfl
@[simp] theorem apply_tick_latched : (s.apply .tick).latched = s.latched := rfl
@[simp] theorem apply_tick_held : (s.apply .tick).held = s.held := rfl
@[simp] theorem apply_tick_mem : (s.apply .tick).mem = s.mem := rfl
@[simp] theorem apply_tick_tiles : (s.apply .tick).tiles = s.tiles := rfl
@[simp] theorem apply_tick_rows : (s.apply .tick).rows = s.rows := rfl
@[simp] theorem apply_tick_slots : (s.apply .tick).slots = s.slots := rfl
@[simp] theorem apply_tick_job : (s.apply .tick).job = s.job := rfl
@[simp] theorem apply_tick_echo : (s.apply .tick).echo = s.echo := rfl
@[simp] theorem apply_tick_flt : (s.apply .tick).flt = s.flt := rfl
@[simp] theorem apply_tick_hif : (s.apply .tick).hif = s.hif := rfl
@[simp] theorem apply_tick_net : (s.apply .tick).net = s.net := rfl
@[simp] theorem apply_tick_pwr : (s.apply .tick).pwr = s.pwr := rfl
@[simp] theorem apply_tick_boot : (s.apply .tick).boot = s.boot := rfl
@[simp] theorem apply_tick_ent : (s.apply .tick).ent = s.ent := rfl
@[simp] theorem apply_tick_sec : (s.apply .tick).sec = s.sec := rfl
@[simp] theorem apply_tick_otp : (s.apply .tick).otp = s.otp := rfl
@[simp] theorem apply_tick_pins : (s.apply .tick).pins = s.pins := rfl
@[simp] theorem apply_tick_out : (s.apply .tick).out = s.out := rfl
@[simp] theorem apply_tick_free : (s.apply .tick).free = s.free + 1 := rfl
@[simp] theorem apply_tick_pending : (s.apply .tick).pending = s.pending := rfl
end

section
variable (s : State) (c : Nat) (v : U32)
@[simp] theorem apply_otpLc_regs : (s.apply (.otpLc c v)).regs = s.regs := rfl
@[simp] theorem apply_otpLc_latched : (s.apply (.otpLc c v)).latched = s.latched := rfl
@[simp] theorem apply_otpLc_held : (s.apply (.otpLc c v)).held = s.held := rfl
@[simp] theorem apply_otpLc_mem : (s.apply (.otpLc c v)).mem = s.mem := rfl
@[simp] theorem apply_otpLc_tiles : (s.apply (.otpLc c v)).tiles = s.tiles := rfl
@[simp] theorem apply_otpLc_rows : (s.apply (.otpLc c v)).rows = s.rows := rfl
@[simp] theorem apply_otpLc_slots : (s.apply (.otpLc c v)).slots = s.slots := rfl
@[simp] theorem apply_otpLc_job : (s.apply (.otpLc c v)).job = s.job := rfl
@[simp] theorem apply_otpLc_echo : (s.apply (.otpLc c v)).echo = s.echo := rfl
@[simp] theorem apply_otpLc_flt : (s.apply (.otpLc c v)).flt = s.flt := rfl
@[simp] theorem apply_otpLc_hif : (s.apply (.otpLc c v)).hif = s.hif := rfl
@[simp] theorem apply_otpLc_net : (s.apply (.otpLc c v)).net = s.net := rfl
@[simp] theorem apply_otpLc_pwr : (s.apply (.otpLc c v)).pwr = s.pwr := rfl
@[simp] theorem apply_otpLc_boot : (s.apply (.otpLc c v)).boot = s.boot := rfl
@[simp] theorem apply_otpLc_ent : (s.apply (.otpLc c v)).ent = s.ent := rfl
@[simp] theorem apply_otpLc_sec : (s.apply (.otpLc c v)).sec = s.sec := rfl
@[simp] theorem apply_otpLc_pins : (s.apply (.otpLc c v)).pins = s.pins := rfl
@[simp] theorem apply_otpLc_out : (s.apply (.otpLc c v)).out = s.out := rfl
@[simp] theorem apply_otpLc_free : (s.apply (.otpLc c v)).free = s.free := rfl
@[simp] theorem apply_otpLc_pending : (s.apply (.otpLc c v)).pending = s.pending := rfl
end

section
variable (s : State) (c : Nat) (v : BitVec 4)
@[simp] theorem apply_otpRevoke_regs : (s.apply (.otpRevoke c v)).regs = s.regs := rfl
@[simp] theorem apply_otpRevoke_latched : (s.apply (.otpRevoke c v)).latched = s.latched := rfl
@[simp] theorem apply_otpRevoke_held : (s.apply (.otpRevoke c v)).held = s.held := rfl
@[simp] theorem apply_otpRevoke_mem : (s.apply (.otpRevoke c v)).mem = s.mem := rfl
@[simp] theorem apply_otpRevoke_tiles : (s.apply (.otpRevoke c v)).tiles = s.tiles := rfl
@[simp] theorem apply_otpRevoke_rows : (s.apply (.otpRevoke c v)).rows = s.rows := rfl
@[simp] theorem apply_otpRevoke_slots : (s.apply (.otpRevoke c v)).slots = s.slots := rfl
@[simp] theorem apply_otpRevoke_job : (s.apply (.otpRevoke c v)).job = s.job := rfl
@[simp] theorem apply_otpRevoke_echo : (s.apply (.otpRevoke c v)).echo = s.echo := rfl
@[simp] theorem apply_otpRevoke_flt : (s.apply (.otpRevoke c v)).flt = s.flt := rfl
@[simp] theorem apply_otpRevoke_hif : (s.apply (.otpRevoke c v)).hif = s.hif := rfl
@[simp] theorem apply_otpRevoke_net : (s.apply (.otpRevoke c v)).net = s.net := rfl
@[simp] theorem apply_otpRevoke_pwr : (s.apply (.otpRevoke c v)).pwr = s.pwr := rfl
@[simp] theorem apply_otpRevoke_boot : (s.apply (.otpRevoke c v)).boot = s.boot := rfl
@[simp] theorem apply_otpRevoke_ent : (s.apply (.otpRevoke c v)).ent = s.ent := rfl
@[simp] theorem apply_otpRevoke_sec : (s.apply (.otpRevoke c v)).sec = s.sec := rfl
@[simp] theorem apply_otpRevoke_pins : (s.apply (.otpRevoke c v)).pins = s.pins := rfl
@[simp] theorem apply_otpRevoke_out : (s.apply (.otpRevoke c v)).out = s.out := rfl
@[simp] theorem apply_otpRevoke_free : (s.apply (.otpRevoke c v)).free = s.free := rfl
@[simp] theorem apply_otpRevoke_pending : (s.apply (.otpRevoke c v)).pending = s.pending := rfl
end

section
variable (s : State) (k : Nat) (v : IdentEntry)
@[simp] theorem apply_otpIdent_regs : (s.apply (.otpIdent k v)).regs = s.regs := by simp only [State.apply]; split <;> rfl
@[simp] theorem apply_otpIdent_latched : (s.apply (.otpIdent k v)).latched = s.latched := by simp only [State.apply]; split <;> rfl
@[simp] theorem apply_otpIdent_held : (s.apply (.otpIdent k v)).held = s.held := by simp only [State.apply]; split <;> rfl
@[simp] theorem apply_otpIdent_mem : (s.apply (.otpIdent k v)).mem = s.mem := by simp only [State.apply]; split <;> rfl
@[simp] theorem apply_otpIdent_tiles : (s.apply (.otpIdent k v)).tiles = s.tiles := by simp only [State.apply]; split <;> rfl
@[simp] theorem apply_otpIdent_rows : (s.apply (.otpIdent k v)).rows = s.rows := by simp only [State.apply]; split <;> rfl
@[simp] theorem apply_otpIdent_slots : (s.apply (.otpIdent k v)).slots = s.slots := by simp only [State.apply]; split <;> rfl
@[simp] theorem apply_otpIdent_job : (s.apply (.otpIdent k v)).job = s.job := by simp only [State.apply]; split <;> rfl
@[simp] theorem apply_otpIdent_echo : (s.apply (.otpIdent k v)).echo = s.echo := by simp only [State.apply]; split <;> rfl
@[simp] theorem apply_otpIdent_flt : (s.apply (.otpIdent k v)).flt = s.flt := by simp only [State.apply]; split <;> rfl
@[simp] theorem apply_otpIdent_hif : (s.apply (.otpIdent k v)).hif = s.hif := by simp only [State.apply]; split <;> rfl
@[simp] theorem apply_otpIdent_net : (s.apply (.otpIdent k v)).net = s.net := by simp only [State.apply]; split <;> rfl
@[simp] theorem apply_otpIdent_pwr : (s.apply (.otpIdent k v)).pwr = s.pwr := by simp only [State.apply]; split <;> rfl
@[simp] theorem apply_otpIdent_boot : (s.apply (.otpIdent k v)).boot = s.boot := by simp only [State.apply]; split <;> rfl
@[simp] theorem apply_otpIdent_ent : (s.apply (.otpIdent k v)).ent = s.ent := by simp only [State.apply]; split <;> rfl
@[simp] theorem apply_otpIdent_sec : (s.apply (.otpIdent k v)).sec = s.sec := by simp only [State.apply]; split <;> rfl
@[simp] theorem apply_otpIdent_pins : (s.apply (.otpIdent k v)).pins = s.pins := by simp only [State.apply]; split <;> rfl
@[simp] theorem apply_otpIdent_out : (s.apply (.otpIdent k v)).out = s.out := by simp only [State.apply]; split <;> rfl
@[simp] theorem apply_otpIdent_free : (s.apply (.otpIdent k v)).free = s.free := by simp only [State.apply]; split <;> rfl
@[simp] theorem apply_otpIdent_pending : (s.apply (.otpIdent k v)).pending = s.pending := by simp only [State.apply]; split <;> rfl
end

section
variable (s : State) (k : Nat) (v : OwnerEntry)
@[simp] theorem apply_otpOwner_regs : (s.apply (.otpOwner k v)).regs = s.regs := by simp only [State.apply]; split <;> rfl
@[simp] theorem apply_otpOwner_latched : (s.apply (.otpOwner k v)).latched = s.latched := by simp only [State.apply]; split <;> rfl
@[simp] theorem apply_otpOwner_held : (s.apply (.otpOwner k v)).held = s.held := by simp only [State.apply]; split <;> rfl
@[simp] theorem apply_otpOwner_mem : (s.apply (.otpOwner k v)).mem = s.mem := by simp only [State.apply]; split <;> rfl
@[simp] theorem apply_otpOwner_tiles : (s.apply (.otpOwner k v)).tiles = s.tiles := by simp only [State.apply]; split <;> rfl
@[simp] theorem apply_otpOwner_rows : (s.apply (.otpOwner k v)).rows = s.rows := by simp only [State.apply]; split <;> rfl
@[simp] theorem apply_otpOwner_slots : (s.apply (.otpOwner k v)).slots = s.slots := by simp only [State.apply]; split <;> rfl
@[simp] theorem apply_otpOwner_job : (s.apply (.otpOwner k v)).job = s.job := by simp only [State.apply]; split <;> rfl
@[simp] theorem apply_otpOwner_echo : (s.apply (.otpOwner k v)).echo = s.echo := by simp only [State.apply]; split <;> rfl
@[simp] theorem apply_otpOwner_flt : (s.apply (.otpOwner k v)).flt = s.flt := by simp only [State.apply]; split <;> rfl
@[simp] theorem apply_otpOwner_hif : (s.apply (.otpOwner k v)).hif = s.hif := by simp only [State.apply]; split <;> rfl
@[simp] theorem apply_otpOwner_net : (s.apply (.otpOwner k v)).net = s.net := by simp only [State.apply]; split <;> rfl
@[simp] theorem apply_otpOwner_pwr : (s.apply (.otpOwner k v)).pwr = s.pwr := by simp only [State.apply]; split <;> rfl
@[simp] theorem apply_otpOwner_boot : (s.apply (.otpOwner k v)).boot = s.boot := by simp only [State.apply]; split <;> rfl
@[simp] theorem apply_otpOwner_ent : (s.apply (.otpOwner k v)).ent = s.ent := by simp only [State.apply]; split <;> rfl
@[simp] theorem apply_otpOwner_sec : (s.apply (.otpOwner k v)).sec = s.sec := by simp only [State.apply]; split <;> rfl
@[simp] theorem apply_otpOwner_pins : (s.apply (.otpOwner k v)).pins = s.pins := by simp only [State.apply]; split <;> rfl
@[simp] theorem apply_otpOwner_out : (s.apply (.otpOwner k v)).out = s.out := by simp only [State.apply]; split <;> rfl
@[simp] theorem apply_otpOwner_free : (s.apply (.otpOwner k v)).free = s.free := by simp only [State.apply]; split <;> rfl
@[simp] theorem apply_otpOwner_pending : (s.apply (.otpOwner k v)).pending = s.pending := by simp only [State.apply]; split <;> rfl
end

end Sys2Proof.Machine
end

