-- ==== Sys2Proof/Laws/Run.lean ====
section
/-!
SUPPORT. What a meaning leaves behind, combinator by combinator, and how the named reads see an effect.
-/
namespace Sys2Proof.Machine

@[simp] theorem run_nil (s : State) : s.run [] = s := rfl
@[simp] theorem run_cons (s : State) (e : Eff) (es : List Eff) : s.run (e :: es) = (s.apply e).run es := rfl

theorem run_append (s : State) (es fs : List Eff) : s.run (es ++ fs) = (s.run es).run fs := by
  induction es generalizing s with
  | nil => rfl
  | cons e es ih => exact ih (s.apply e)

/-! ### Combinators -/

theorem does_eq (s : State) (a : Act) : s.does a = .next (s.after a) := rfl

@[simp] theorem after_nop (s : State) : s.after actNop = s := rfl
@[simp] theorem after_seq (s : State) (a b : Act) : s.after (actSeq a b) = (s.after a).after b := run_append _ _ _
@[simp] theorem after_all_nil (s : State) : s.after (actAll []) = s := rfl
@[simp] theorem after_all_cons (s : State) (a : Act) (as : List Act) : s.after (actAll (a :: as)) = (s.after a).after (actAll as) := after_seq s a (actAll as)
@[simp] theorem after_each_nil {α : Type} (s : State) (f : α → Act) : s.after (actEach [] f) = s := rfl
@[simp] theorem after_each_cons {α : Type} (s : State) (x : α) (xs : List α) (f : α → Act) :
    s.after (actEach (x :: xs) f) = (s.after (f x)).after (actEach xs f) := after_seq s (f x) (actEach xs f)
@[simp] theorem after_if (s : State) (c : State → Bool) (a b : Act) : s.after (actIf c a b) = if c s then s.after a else s.after b := by
  simp only [State.after, actIf]; split <;> rfl
@[simp] theorem after_when (s : State) (c : State → Bool) (a : Act) : s.after (actWhen c a) = if c s then s.after a else s := after_if s c a actNop
@[simp] theorem after_on (s : State) (c : Bool) (a : Act) : s.after (actOn c a) = if c then s.after a else s := by cases c <;> rfl
@[simp] theorem after_get {α : Type} (s : State) (f : State → α) (k : α → Act) : s.after (actGet f k) = s.after (k (f s)) := rfl
@[simp] theorem after_opt_none {α : Type} (s : State) (k : α → Act) : s.after (actOpt none k) = s := rfl
@[simp] theorem after_opt_some {α : Type} (s : State) (x : α) (k : α → Act) : s.after (actOpt (some x) k) = s.after (k x) := rfl
@[simp] theorem after_ite (s : State) (c : Prop) [Decidable c] (a b : Act) : s.after (if c then a else b) = if c then s.after a else s.after b := by
  split <;> rfl
@[simp] theorem after_free (s : State) (k : BitVec 512 → Act) : s.after (withFree k) = (s.apply .tick).after (k (Config.freeValue s.free)) := rfl

/-! ### Single effects -/

@[simp] theorem after_setReg (s : State) (r : Reg) (v : U32) : s.after (setReg r v) = s.apply (.reg r v) := rfl
@[simp] theorem after_modReg (s : State) (r : Reg) (f : U32 → U32) : s.after (modReg r f) = s.apply (.reg r (f (s.reg r))) := rfl
@[simp] theorem after_setF (s : State) (r : Reg) (f : Fld) (v : Nat) : s.after (setF r f v) = s.apply (.reg r (f.put (s.reg r) v)) := rfl
@[simp] theorem after_incReg (s : State) (r : Reg) (n : Nat) : s.after (incReg r n) = s.apply (.reg r (sat32 (s.reg r) n)) := rfl
@[simp] theorem after_incF (s : State) (r : Reg) (f : Fld) (n : Nat) : s.after (incF r f n) = s.apply (.reg r (satFld (s.reg r) f.hi f.lo n)) := rfl
@[simp] theorem after_setPair (s : State) (lo hi : Reg) (v : Nat) :
    s.after (setPair lo hi v) = (s.apply (.reg lo (BitVec.ofNat 32 v))).apply (.reg hi (BitVec.ofNat 32 (v / 2 ^ 32))) := rfl
@[simp] theorem after_modTile (s : State) (t : TileId) (f : Tile → Tile) : s.after (modTile t f) = s.apply (.tile t (f (s.tile t))) := rfl
@[simp] theorem after_modRow (s : State) (n : BitVec 9) (f : Row → Row) : s.after (modRow n f) = s.apply (.row n (f (s.row n))) := rfl
@[simp] theorem after_modSlot (s : State) (j : Nat) (f : Slot → Slot) : s.after (modSlot j f) = s.apply (.slot j (f (s.slot j))) := rfl
@[simp] theorem after_modJob (s : State) (f : Job → Job) : s.after (modJob f) = s.apply (.job (f s.job)) := rfl
@[simp] theorem after_modEcho (s : State) (f : Echo → Echo) : s.after (modEcho f) = s.apply (.echo (f s.echo)) := rfl
@[simp] theorem after_modFlt (s : State) (f : Flt → Flt) : s.after (modFlt f) = s.apply (.flt (f s.flt)) := rfl
@[simp] theorem after_modHif (s : State) (f : Hif → Hif) : s.after (modHif f) = s.apply (.hif (f s.hif)) := rfl
@[simp] theorem after_modNet (s : State) (f : Bexir → Bexir) : s.after (modNet f) = s.apply (.net (f s.net)) := rfl
@[simp] theorem after_modPwr (s : State) (f : Power → Power) : s.after (modPwr f) = s.apply (.pwr (f s.pwr)) := rfl
@[simp] theorem after_modBoot (s : State) (f : Boot → Boot) : s.after (modBoot f) = s.apply (.boot (f s.boot)) := rfl
@[simp] theorem after_modEnt (s : State) (f : Ent → Ent) : s.after (modEnt f) = s.apply (.ent (f s.ent)) := rfl
@[simp] theorem after_modSec (s : State) (f : Sec → Sec) : s.after (modSec f) = s.apply (.sec (f s.sec)) := rfl
@[simp] theorem after_modPins (s : State) (f : Pins → Pins) : s.after (modPins f) = s.apply (.pins (f s.pins)) := rfl
@[simp] theorem after_modOut (s : State) (f : Out → Out) : s.after (modOut f) = s.apply (.out (f s.out)) := rfl
@[simp] theorem after_store (s : State) (a : Nat) (bs : List Byte) : s.after (store a bs) = s.apply (.store a bs) := rfl
@[simp] theorem after_wipe (s : State) (lo hi : Nat) : s.after (wipe lo hi) = s.apply (.wipe lo hi) := rfl

/-! ### Reads after an effect -/

theorem reg_apply_reg (s : State) (r q : Reg) (v : U32) : (s.apply (.reg r v)).reg q = if q = r then v &&& r.impl else s.reg q := by
  simp only [State.reg, apply_reg_regs]
  by_cases h : q = r
  · subst h; simp
  · rw [tget_tset_ne _ _ _ (Ne.symm h), if_neg h]

@[simp] theorem reg_apply_reg_same (s : State) (r : Reg) (v : U32) : (s.apply (.reg r v)).reg r = v &&& r.impl := by simp [reg_apply_reg]

@[simp] theorem tile_apply_tile_same (s : State) (t : TileId) (v : Tile) : (s.apply (.tile t v)).tile t = v := by simp [State.tile]

theorem tile_apply_tile (s : State) (t u : TileId) (v : Tile) : (s.apply (.tile t v)).tile u = if u = t then v else s.tile u := by
  by_cases h : u = t
  · subst h; simp
  · simp [State.tile, h, tget_tset_ne _ _ _ (Ne.symm h)]

@[simp] theorem row_apply_row_same (s : State) (n : BitVec 9) (v : Row) : (s.apply (.row n v)).row n = v := by simp [State.row]
@[simp] theorem slot_apply_slot_same (s : State) (j : Nat) (v : Slot) : (s.apply (.slot j v)).slot j = v := by simp [State.slot]

@[simp] theorem tile_apply_reg (s : State) (r : Reg) (v : U32) (u : TileId) : (s.apply (.reg r v)).tile u = s.tile u := by simp [State.tile]
@[simp] theorem row_apply_reg (s : State) (r : Reg) (v : U32) (m : BitVec 9) : (s.apply (.reg r v)).row m = s.row m := by simp [State.row]
@[simp] theorem slot_apply_reg (s : State) (r : Reg) (v : U32) (m : Nat) : (s.apply (.reg r v)).slot m = s.slot m := by simp [State.slot]
@[simp] theorem byte_apply_reg (s : State) (r : Reg) (v : U32) (m : Nat) : (s.apply (.reg r v)).byte m = s.byte m := by simp [State.byte]
@[simp] theorem tile_apply_regs (s : State) (t : Tab Reg U32) (u : TileId) : (s.apply (.regs t)).tile u = s.tile u := by simp [State.tile]
@[simp] theorem row_apply_regs (s : State) (t : Tab Reg U32) (m : BitVec 9) : (s.apply (.regs t)).row m = s.row m := by simp [State.row]
@[simp] theorem slot_apply_regs (s : State) (t : Tab Reg U32) (m : Nat) : (s.apply (.regs t)).slot m = s.slot m := by simp [State.slot]
@[simp] theorem byte_apply_regs (s : State) (t : Tab Reg U32) (m : Nat) : (s.apply (.regs t)).byte m = s.byte m := by simp [State.byte]
@[simp] theorem reg_apply_latched (s : State) (t : Tab Reg U32) (q : Reg) : (s.apply (.latched t)).reg q = s.reg q := by simp [State.reg]
@[simp] theorem tile_apply_latched (s : State) (t : Tab Reg U32) (u : TileId) : (s.apply (.latched t)).tile u = s.tile u := by simp [State.tile]
@[simp] theorem row_apply_latched (s : State) (t : Tab Reg U32) (m : BitVec 9) : (s.apply (.latched t)).row m = s.row m := by simp [State.row]
@[simp] theorem slot_apply_latched (s : State) (t : Tab Reg U32) (m : Nat) : (s.apply (.latched t)).slot m = s.slot m := by simp [State.slot]
@[simp] theorem byte_apply_latched (s : State) (t : Tab Reg U32) (m : Nat) : (s.apply (.latched t)).byte m = s.byte m := by simp [State.byte]
@[simp] theorem reg_apply_held (s : State) (t : Tab Reg U32) (q : Reg) : (s.apply (.held t)).reg q = s.reg q := by simp [State.reg]
@[simp] theorem tile_apply_held (s : State) (t : Tab Reg U32) (u : TileId) : (s.apply (.held t)).tile u = s.tile u := by simp [State.tile]
@[simp] theorem row_apply_held (s : State) (t : Tab Reg U32) (m : BitVec 9) : (s.apply (.held t)).row m = s.row m := by simp [State.row]
@[simp] theorem slot_apply_held (s : State) (t : Tab Reg U32) (m : Nat) : (s.apply (.held t)).slot m = s.slot m := by simp [State.slot]
@[simp] theorem byte_apply_held (s : State) (t : Tab Reg U32) (m : Nat) : (s.apply (.held t)).byte m = s.byte m := by simp [State.byte]
@[simp] theorem reg_apply_store (s : State) (a : Nat) (bs : List Byte) (q : Reg) : (s.apply (.store a bs)).reg q = s.reg q := by simp [State.reg]
@[simp] theorem tile_apply_store (s : State) (a : Nat) (bs : List Byte) (u : TileId) : (s.apply (.store a bs)).tile u = s.tile u := by simp [State.tile]
@[simp] theorem row_apply_store (s : State) (a : Nat) (bs : List Byte) (m : BitVec 9) : (s.apply (.store a bs)).row m = s.row m := by simp [State.row]
@[simp] theorem slot_apply_store (s : State) (a : Nat) (bs : List Byte) (m : Nat) : (s.apply (.store a bs)).slot m = s.slot m := by simp [State.slot]
@[simp] theorem reg_apply_wipe (s : State) (lo hi : Nat) (q : Reg) : (s.apply (.wipe lo hi)).reg q = s.reg q := by simp [State.reg]
@[simp] theorem tile_apply_wipe (s : State) (lo hi : Nat) (u : TileId) : (s.apply (.wipe lo hi)).tile u = s.tile u := by simp [State.tile]
@[simp] theorem row_apply_wipe (s : State) (lo hi : Nat) (m : BitVec 9) : (s.apply (.wipe lo hi)).row m = s.row m := by simp [State.row]
@[simp] theorem slot_apply_wipe (s : State) (lo hi : Nat) (m : Nat) : (s.apply (.wipe lo hi)).slot m = s.slot m := by simp [State.slot]
@[simp] theorem reg_apply_tile (s : State) (t : TileId) (v : Tile) (q : Reg) : (s.apply (.tile t v)).reg q = s.reg q := by simp [State.reg]
@[simp] theorem row_apply_tile (s : State) (t : TileId) (v : Tile) (m : BitVec 9) : (s.apply (.tile t v)).row m = s.row m := by simp [State.row]
@[simp] theorem slot_apply_tile (s : State) (t : TileId) (v : Tile) (m : Nat) : (s.apply (.tile t v)).slot m = s.slot m := by simp [State.slot]
@[simp] theorem byte_apply_tile (s : State) (t : TileId) (v : Tile) (m : Nat) : (s.apply (.tile t v)).byte m = s.byte m := by simp [State.byte]
@[simp] theorem reg_apply_tiles (s : State) (t : Tab TileId Tile) (q : Reg) : (s.apply (.tiles t)).reg q = s.reg q := by simp [State.reg]
@[simp] theorem row_apply_tiles (s : State) (t : Tab TileId Tile) (m : BitVec 9) : (s.apply (.tiles t)).row m = s.row m := by simp [State.row]
@[simp] theorem slot_apply_tiles (s : State) (t : Tab TileId Tile) (m : Nat) : (s.apply (.tiles t)).slot m = s.slot m := by simp [State.slot]
@[simp] theorem byte_apply_tiles (s : State) (t : Tab TileId Tile) (m : Nat) : (s.apply (.tiles t)).byte m = s.byte m := by simp [State.byte]
@[simp] theorem reg_apply_row (s : State) (n : BitVec 9) (v : Row) (q : Reg) : (s.apply (.row n v)).reg q = s.reg q := by simp [State.reg]
@[simp] theorem tile_apply_row (s : State) (n : BitVec 9) (v : Row) (u : TileId) : (s.apply (.row n v)).tile u = s.tile u := by simp [State.tile]
@[simp] theorem slot_apply_row (s : State) (n : BitVec 9) (v : Row) (m : Nat) : (s.apply (.row n v)).slot m = s.slot m := by simp [State.slot]
@[simp] theorem byte_apply_row (s : State) (n : BitVec 9) (v : Row) (m : Nat) : (s.apply (.row n v)).byte m = s.byte m := by simp [State.byte]
@[simp] theorem reg_apply_rows (s : State) (t : Tab (BitVec 9) Row) (q : Reg) : (s.apply (.rows t)).reg q = s.reg q := by simp [State.reg]
@[simp] theorem tile_apply_rows (s : State) (t : Tab (BitVec 9) Row) (u : TileId) : (s.apply (.rows t)).tile u = s.tile u := by simp [State.tile]
@[simp] theorem slot_apply_rows (s : State) (t : Tab (BitVec 9) Row) (m : Nat) : (s.apply (.rows t)).slot m = s.slot m := by simp [State.slot]
@[simp] theorem byte_apply_rows (s : State) (t : Tab (BitVec 9) Row) (m : Nat) : (s.apply (.rows t)).byte m = s.byte m := by simp [State.byte]
@[simp] theorem reg_apply_slot (s : State) (j : Nat) (v : Slot) (q : Reg) : (s.apply (.slot j v)).reg q = s.reg q := by simp [State.reg]
@[simp] theorem tile_apply_slot (s : State) (j : Nat) (v : Slot) (u : TileId) : (s.apply (.slot j v)).tile u = s.tile u := by simp [State.tile]
@[simp] theorem row_apply_slot (s : State) (j : Nat) (v : Slot) (m : BitVec 9) : (s.apply (.slot j v)).row m = s.row m := by simp [State.row]
@[simp] theorem byte_apply_slot (s : State) (j : Nat) (v : Slot) (m : Nat) : (s.apply (.slot j v)).byte m = s.byte m := by simp [State.byte]
@[simp] theorem reg_apply_slots (s : State) (t : Tab Nat Slot) (q : Reg) : (s.apply (.slots t)).reg q = s.reg q := by simp [State.reg]
@[simp] theorem tile_apply_slots (s : State) (t : Tab Nat Slot) (u : TileId) : (s.apply (.slots t)).tile u = s.tile u := by simp [State.tile]
@[simp] theorem row_apply_slots (s : State) (t : Tab Nat Slot) (m : BitVec 9) : (s.apply (.slots t)).row m = s.row m := by simp [State.row]
@[simp] theorem byte_apply_slots (s : State) (t : Tab Nat Slot) (m : Nat) : (s.apply (.slots t)).byte m = s.byte m := by simp [State.byte]
@[simp] theorem reg_apply_job (s : State) (v : Job) (q : Reg) : (s.apply (.job v)).reg q = s.reg q := by simp [State.reg]
@[simp] theorem tile_apply_job (s : State) (v : Job) (u : TileId) : (s.apply (.job v)).tile u = s.tile u := by simp [State.tile]
@[simp] theorem row_apply_job (s : State) (v : Job) (m : BitVec 9) : (s.apply (.job v)).row m = s.row m := by simp [State.row]
@[simp] theorem slot_apply_job (s : State) (v : Job) (m : Nat) : (s.apply (.job v)).slot m = s.slot m := by simp [State.slot]
@[simp] theorem byte_apply_job (s : State) (v : Job) (m : Nat) : (s.apply (.job v)).byte m = s.byte m := by simp [State.byte]
@[simp] theorem reg_apply_echo (s : State) (v : Echo) (q : Reg) : (s.apply (.echo v)).reg q = s.reg q := by simp [State.reg]
@[simp] theorem tile_apply_echo (s : State) (v : Echo) (u : TileId) : (s.apply (.echo v)).tile u = s.tile u := by simp [State.tile]
@[simp] theorem row_apply_echo (s : State) (v : Echo) (m : BitVec 9) : (s.apply (.echo v)).row m = s.row m := by simp [State.row]
@[simp] theorem slot_apply_echo (s : State) (v : Echo) (m : Nat) : (s.apply (.echo v)).slot m = s.slot m := by simp [State.slot]
@[simp] theorem byte_apply_echo (s : State) (v : Echo) (m : Nat) : (s.apply (.echo v)).byte m = s.byte m := by simp [State.byte]
@[simp] theorem reg_apply_flt (s : State) (v : Flt) (q : Reg) : (s.apply (.flt v)).reg q = s.reg q := by simp [State.reg]
@[simp] theorem tile_apply_flt (s : State) (v : Flt) (u : TileId) : (s.apply (.flt v)).tile u = s.tile u := by simp [State.tile]
@[simp] theorem row_apply_flt (s : State) (v : Flt) (m : BitVec 9) : (s.apply (.flt v)).row m = s.row m := by simp [State.row]
@[simp] theorem slot_apply_flt (s : State) (v : Flt) (m : Nat) : (s.apply (.flt v)).slot m = s.slot m := by simp [State.slot]
@[simp] theorem byte_apply_flt (s : State) (v : Flt) (m : Nat) : (s.apply (.flt v)).byte m = s.byte m := by simp [State.byte]
@[simp] theorem reg_apply_hif (s : State) (v : Hif) (q : Reg) : (s.apply (.hif v)).reg q = s.reg q := by simp [State.reg]
@[simp] theorem tile_apply_hif (s : State) (v : Hif) (u : TileId) : (s.apply (.hif v)).tile u = s.tile u := by simp [State.tile]
@[simp] theorem row_apply_hif (s : State) (v : Hif) (m : BitVec 9) : (s.apply (.hif v)).row m = s.row m := by simp [State.row]
@[simp] theorem slot_apply_hif (s : State) (v : Hif) (m : Nat) : (s.apply (.hif v)).slot m = s.slot m := by simp [State.slot]
@[simp] theorem byte_apply_hif (s : State) (v : Hif) (m : Nat) : (s.apply (.hif v)).byte m = s.byte m := by simp [State.byte]
@[simp] theorem reg_apply_net (s : State) (v : Bexir) (q : Reg) : (s.apply (.net v)).reg q = s.reg q := by simp [State.reg]
@[simp] theorem tile_apply_net (s : State) (v : Bexir) (u : TileId) : (s.apply (.net v)).tile u = s.tile u := by simp [State.tile]
@[simp] theorem row_apply_net (s : State) (v : Bexir) (m : BitVec 9) : (s.apply (.net v)).row m = s.row m := by simp [State.row]
@[simp] theorem slot_apply_net (s : State) (v : Bexir) (m : Nat) : (s.apply (.net v)).slot m = s.slot m := by simp [State.slot]
@[simp] theorem byte_apply_net (s : State) (v : Bexir) (m : Nat) : (s.apply (.net v)).byte m = s.byte m := by simp [State.byte]
@[simp] theorem reg_apply_pwr (s : State) (v : Power) (q : Reg) : (s.apply (.pwr v)).reg q = s.reg q := by simp [State.reg]
@[simp] theorem tile_apply_pwr (s : State) (v : Power) (u : TileId) : (s.apply (.pwr v)).tile u = s.tile u := by simp [State.tile]
@[simp] theorem row_apply_pwr (s : State) (v : Power) (m : BitVec 9) : (s.apply (.pwr v)).row m = s.row m := by simp [State.row]
@[simp] theorem slot_apply_pwr (s : State) (v : Power) (m : Nat) : (s.apply (.pwr v)).slot m = s.slot m := by simp [State.slot]
@[simp] theorem byte_apply_pwr (s : State) (v : Power) (m : Nat) : (s.apply (.pwr v)).byte m = s.byte m := by simp [State.byte]
@[simp] theorem reg_apply_boot (s : State) (v : Boot) (q : Reg) : (s.apply (.boot v)).reg q = s.reg q := by simp [State.reg]
@[simp] theorem tile_apply_boot (s : State) (v : Boot) (u : TileId) : (s.apply (.boot v)).tile u = s.tile u := by simp [State.tile]
@[simp] theorem row_apply_boot (s : State) (v : Boot) (m : BitVec 9) : (s.apply (.boot v)).row m = s.row m := by simp [State.row]
@[simp] theorem slot_apply_boot (s : State) (v : Boot) (m : Nat) : (s.apply (.boot v)).slot m = s.slot m := by simp [State.slot]
@[simp] theorem byte_apply_boot (s : State) (v : Boot) (m : Nat) : (s.apply (.boot v)).byte m = s.byte m := by simp [State.byte]
@[simp] theorem reg_apply_ent (s : State) (v : Ent) (q : Reg) : (s.apply (.ent v)).reg q = s.reg q := by simp [State.reg]
@[simp] theorem tile_apply_ent (s : State) (v : Ent) (u : TileId) : (s.apply (.ent v)).tile u = s.tile u := by simp [State.tile]
@[simp] theorem row_apply_ent (s : State) (v : Ent) (m : BitVec 9) : (s.apply (.ent v)).row m = s.row m := by simp [State.row]
@[simp] theorem slot_apply_ent (s : State) (v : Ent) (m : Nat) : (s.apply (.ent v)).slot m = s.slot m := by simp [State.slot]
@[simp] theorem byte_apply_ent (s : State) (v : Ent) (m : Nat) : (s.apply (.ent v)).byte m = s.byte m := by simp [State.byte]
@[simp] theorem reg_apply_sec (s : State) (v : Sec) (q : Reg) : (s.apply (.sec v)).reg q = s.reg q := by simp [State.reg]
@[simp] theorem tile_apply_sec (s : State) (v : Sec) (u : TileId) : (s.apply (.sec v)).tile u = s.tile u := by simp [State.tile]
@[simp] theorem row_apply_sec (s : State) (v : Sec) (m : BitVec 9) : (s.apply (.sec v)).row m = s.row m := by simp [State.row]
@[simp] theorem slot_apply_sec (s : State) (v : Sec) (m : Nat) : (s.apply (.sec v)).slot m = s.slot m := by simp [State.slot]
@[simp] theorem byte_apply_sec (s : State) (v : Sec) (m : Nat) : (s.apply (.sec v)).byte m = s.byte m := by simp [State.byte]
@[simp] theorem reg_apply_pins (s : State) (v : Pins) (q : Reg) : (s.apply (.pins v)).reg q = s.reg q := by simp [State.reg]
@[simp] theorem tile_apply_pins (s : State) (v : Pins) (u : TileId) : (s.apply (.pins v)).tile u = s.tile u := by simp [State.tile]
@[simp] theorem row_apply_pins (s : State) (v : Pins) (m : BitVec 9) : (s.apply (.pins v)).row m = s.row m := by simp [State.row]
@[simp] theorem slot_apply_pins (s : State) (v : Pins) (m : Nat) : (s.apply (.pins v)).slot m = s.slot m := by simp [State.slot]
@[simp] theorem byte_apply_pins (s : State) (v : Pins) (m : Nat) : (s.apply (.pins v)).byte m = s.byte m := by simp [State.byte]
@[simp] theorem reg_apply_out (s : State) (v : Out) (q : Reg) : (s.apply (.out v)).reg q = s.reg q := by simp [State.reg]
@[simp] theorem tile_apply_out (s : State) (v : Out) (u : TileId) : (s.apply (.out v)).tile u = s.tile u := by simp [State.tile]
@[simp] theorem row_apply_out (s : State) (v : Out) (m : BitVec 9) : (s.apply (.out v)).row m = s.row m := by simp [State.row]
@[simp] theorem slot_apply_out (s : State) (v : Out) (m : Nat) : (s.apply (.out v)).slot m = s.slot m := by simp [State.slot]
@[simp] theorem byte_apply_out (s : State) (v : Out) (m : Nat) : (s.apply (.out v)).byte m = s.byte m := by simp [State.byte]
@[simp] theorem reg_apply_tick (s : State) (q : Reg) : (s.apply .tick).reg q = s.reg q := by simp [State.reg]
@[simp] theorem tile_apply_tick (s : State) (u : TileId) : (s.apply .tick).tile u = s.tile u := by simp [State.tile]
@[simp] theorem row_apply_tick (s : State) (m : BitVec 9) : (s.apply .tick).row m = s.row m := by simp [State.row]
@[simp] theorem slot_apply_tick (s : State) (m : Nat) : (s.apply .tick).slot m = s.slot m := by simp [State.slot]
@[simp] theorem byte_apply_tick (s : State) (m : Nat) : (s.apply .tick).byte m = s.byte m := by simp [State.byte]
@[simp] theorem reg_apply_otpLc (s : State) (c : Nat) (v : U32) (q : Reg) : (s.apply (.otpLc c v)).reg q = s.reg q := by simp [State.reg]
@[simp] theorem tile_apply_otpLc (s : State) (c : Nat) (v : U32) (u : TileId) : (s.apply (.otpLc c v)).tile u = s.tile u := by simp [State.tile]
@[simp] theorem row_apply_otpLc (s : State) (c : Nat) (v : U32) (m : BitVec 9) : (s.apply (.otpLc c v)).row m = s.row m := by simp [State.row]
@[simp] theorem slot_apply_otpLc (s : State) (c : Nat) (v : U32) (m : Nat) : (s.apply (.otpLc c v)).slot m = s.slot m := by simp [State.slot]
@[simp] theorem byte_apply_otpLc (s : State) (c : Nat) (v : U32) (m : Nat) : (s.apply (.otpLc c v)).byte m = s.byte m := by simp [State.byte]
@[simp] theorem reg_apply_otpRevoke (s : State) (c : Nat) (v : BitVec 4) (q : Reg) : (s.apply (.otpRevoke c v)).reg q = s.reg q := by simp [State.reg]
@[simp] theorem tile_apply_otpRevoke (s : State) (c : Nat) (v : BitVec 4) (u : TileId) : (s.apply (.otpRevoke c v)).tile u = s.tile u := by simp [State.tile]
@[simp] theorem row_apply_otpRevoke (s : State) (c : Nat) (v : BitVec 4) (m : BitVec 9) : (s.apply (.otpRevoke c v)).row m = s.row m := by simp [State.row]
@[simp] theorem slot_apply_otpRevoke (s : State) (c : Nat) (v : BitVec 4) (m : Nat) : (s.apply (.otpRevoke c v)).slot m = s.slot m := by simp [State.slot]
@[simp] theorem byte_apply_otpRevoke (s : State) (c : Nat) (v : BitVec 4) (m : Nat) : (s.apply (.otpRevoke c v)).byte m = s.byte m := by simp [State.byte]
@[simp] theorem reg_apply_otpIdent (s : State) (k : Nat) (v : IdentEntry) (q : Reg) : (s.apply (.otpIdent k v)).reg q = s.reg q := by simp [State.reg]
@[simp] theorem tile_apply_otpIdent (s : State) (k : Nat) (v : IdentEntry) (u : TileId) : (s.apply (.otpIdent k v)).tile u = s.tile u := by simp [State.tile]
@[simp] theorem row_apply_otpIdent (s : State) (k : Nat) (v : IdentEntry) (m : BitVec 9) : (s.apply (.otpIdent k v)).row m = s.row m := by simp [State.row]
@[simp] theorem slot_apply_otpIdent (s : State) (k : Nat) (v : IdentEntry) (m : Nat) : (s.apply (.otpIdent k v)).slot m = s.slot m := by simp [State.slot]
@[simp] theorem byte_apply_otpIdent (s : State) (k : Nat) (v : IdentEntry) (m : Nat) : (s.apply (.otpIdent k v)).byte m = s.byte m := by simp [State.byte]
@[simp] theorem reg_apply_otpOwner (s : State) (k : Nat) (v : OwnerEntry) (q : Reg) : (s.apply (.otpOwner k v)).reg q = s.reg q := by simp [State.reg]
@[simp] theorem tile_apply_otpOwner (s : State) (k : Nat) (v : OwnerEntry) (u : TileId) : (s.apply (.otpOwner k v)).tile u = s.tile u := by simp [State.tile]
@[simp] theorem row_apply_otpOwner (s : State) (k : Nat) (v : OwnerEntry) (m : BitVec 9) : (s.apply (.otpOwner k v)).row m = s.row m := by simp [State.row]
@[simp] theorem slot_apply_otpOwner (s : State) (k : Nat) (v : OwnerEntry) (m : Nat) : (s.apply (.otpOwner k v)).slot m = s.slot m := by simp [State.slot]
@[simp] theorem byte_apply_otpOwner (s : State) (k : Nat) (v : OwnerEntry) (m : Nat) : (s.apply (.otpOwner k v)).byte m = s.byte m := by simp [State.byte]

end Sys2Proof.Machine
end

