-- ==== Sys2Proof/Laws/Regs.lean ====
section
/-!
SUPPORT. Register fields: a field that is set reads back, other fields stay, and reserved bits are 0.
-/
namespace Sys2Proof.Machine

/-- The bits of a field [hi:lo]. -/
theorem fld_eq (w : U32) (hi lo : Nat) : fld w hi lo = (w.extractLsb' lo (hi + 1 - lo)).toNat := by
  simp [fld, BitVec.extractLsb'_toNat]

theorem getLsbD_fldMask (hi lo i : Nat) (h : i < 32) (hl : lo ≤ hi) :
    (BitVec.ofNat 32 ((2 ^ (hi + 1 - lo) - 1) <<< lo)).getLsbD i = (decide (lo ≤ i) && decide (i ≤ hi)) := by
  simp only [BitVec.getLsbD_ofNat, h, decide_true, Bool.true_and, Nat.testBit_shiftLeft, Nat.testBit_two_pow_sub_one, ge_iff_le]
  by_cases h1 : lo ≤ i
  · simp [h1]; omega
  · simp [h1]

theorem getLsbD_setFld (w : U32) (hi lo v i : Nat) (h : i < 32) (hl : lo ≤ hi) :
    (setFld w hi lo v).getLsbD i = if lo ≤ i ∧ i ≤ hi then v.testBit (i - lo) else w.getLsbD i := by
  simp only [setFld, BitVec.getLsbD_or, BitVec.getLsbD_and, BitVec.getLsbD_not, h, decide_true, Bool.true_and, getLsbD_fldMask hi lo i h hl,
    BitVec.getLsbD_ofNat, Nat.testBit_shiftLeft, ge_iff_le]
  by_cases h1 : lo ≤ i <;> by_cases h2 : i ≤ hi <;> simp [h1, h2]

/-- A field that is set reads back, cut to its width. -/
theorem fld_setFld (w : U32) (hi lo v : Nat) (hl : lo ≤ hi) (hh : hi < 32) : fld (setFld w hi lo v) hi lo = v % 2 ^ (hi + 1 - lo) := by
  apply Nat.eq_of_testBit_eq
  intro i
  rw [fld_eq, BitVec.testBit_toNat, BitVec.getLsbD_extractLsb', Nat.testBit_mod_two_pow]
  by_cases h : i < hi + 1 - lo
  · rw [getLsbD_setFld w hi lo v (lo + i) (by omega) hl]
    simp [h, show lo + i ≤ hi by omega]
  · simp [h]

/-- Another field stays. -/
theorem fld_setFld_ne (w : U32) (hi lo v hi' lo' : Nat) (hl : lo ≤ hi) (hh' : hi' < 32) (hd : hi < lo' ∨ hi' < lo) :
    fld (setFld w hi lo v) hi' lo' = fld w hi' lo' := by
  apply Nat.eq_of_testBit_eq
  intro i
  rw [fld_eq, fld_eq, BitVec.testBit_toNat, BitVec.testBit_toNat, BitVec.getLsbD_extractLsb', BitVec.getLsbD_extractLsb']
  by_cases h : i < hi' + 1 - lo'
  · rw [getLsbD_setFld w hi lo v (lo' + i) (by omega) hl]
    have : ¬ (lo ≤ lo' + i ∧ lo' + i ≤ hi) := by omega
    simp [this]
  · simp [h]

/-- A mask that holds a field's bits keeps the field. -/
theorem fld_and (w m : U32) (hi lo : Nat) (hm : fld m hi lo = 2 ^ (hi + 1 - lo) - 1) : fld (w &&& m) hi lo = fld w hi lo := by
  apply Nat.eq_of_testBit_eq
  intro i
  rw [fld_eq, fld_eq, BitVec.testBit_toNat, BitVec.testBit_toNat, BitVec.getLsbD_extractLsb', BitVec.getLsbD_extractLsb', BitVec.getLsbD_and]
  by_cases h : i < hi + 1 - lo
  · have hb : (fld m hi lo).testBit i = true := by rw [hm, Nat.testBit_two_pow_sub_one]; simp [h]
    rw [fld_eq, BitVec.testBit_toNat, BitVec.getLsbD_extractLsb'] at hb
    simp only [h, decide_true, Bool.true_and] at hb ⊢
    simp [hb]
  · simp [h]

/-- Setting a field of a register and reading it back through the reserved-bit mask. -/
theorem get_put_impl (f : Fld) (r : Reg) (w : U32) (v : Nat) (h : f.lo ≤ f.hi) (hh : f.hi < 32) (hm : fld r.impl f.hi f.lo = 2 ^ (f.hi + 1 - f.lo) - 1) :
    f.get (f.put w v &&& r.impl) = v % 2 ^ (f.hi + 1 - f.lo) := by
  simp only [Fld.get, Fld.put]
  rw [fld_and _ _ _ _ hm, fld_setFld _ _ _ _ h hh]

/-- A field of a register after `setF`. -/
theorem fget_setF (s : State) (f : Fld) (r : Reg) (v : Nat) (h : f.lo ≤ f.hi) (hh : f.hi < 32) (hm : fld r.impl f.hi f.lo = 2 ^ (f.hi + 1 - f.lo) - 1) :
    (s.after (setF r f v)).fget r f = v % 2 ^ (f.hi + 1 - f.lo) := by
  simp only [State.fget, after_setF, reg_apply_reg_same]
  exact get_put_impl f r _ v h hh hm

/-- Another register's field after `setF`. -/
theorem fget_setF_ne (s : State) (f g : Fld) (r q : Reg) (v : Nat) (h : q ≠ r) : (s.after (setF r f v)).fget q g = s.fget q g := by
  simp [State.fget, reg_apply_reg, h]

theorem reset_tileId (d : BitVec 3) (r c : BitVec 4) :
    BitVec.ofNat 32 (c.toNat <<< 12 ||| r.toNat <<< 8 ||| c.toNat <<< 4 ||| d.toNat) &&& ~~~0x0001FFFF#32 = 0#32 := by
  revert d r c; decide

/-- Reset values have their reserved bits at 0. -/
theorem reset_impl (r : Reg) : r.reset &&& ~~~r.impl = 0#32 := by
  cases r with
  | qCfg q => revert q; decide
  | tileId t => exact reset_tileId ..
  | utileId d r => revert d r; decide
  | dieRowmap d r => revert d r; decide
  | d2dStat d l => revert d l; decide
  | _ => first | exact BitVec.zero_and | rfl | (dsimp only [Reg.reset, Reg.impl]; decide)

/-- A register word with the reserved bits at 0 (R10). -/
theorem reg_impl {s : State} (h : RegsOk s) (r : Reg) : s.reg r &&& r.impl = s.reg r := by
  have key : ∀ l : Tab Reg U32, (∀ p ∈ l, p.2 &&& ~~~p.1.impl = 0#32) → ∀ d, d &&& ~~~r.impl = 0#32 → tget l d r &&& ~~~r.impl = 0#32 := by
    intro l hl d hd
    induction l with
    | nil => exact hd
    | cons p l ih =>
      obtain ⟨q, v⟩ := p
      by_cases hq : q = r
      · subst hq; simpa [tget] using hl _ (List.mem_cons_self ..)
      · simpa [tget, hq] using ih fun p hp => hl p (List.mem_cons_of_mem _ hp)
  have hz := key s.regs h r.reset (reset_impl r)
  change tget s.regs r.reset r &&& r.impl = tget s.regs r.reset r
  generalize tget s.regs r.reset r = w at hz
  apply BitVec.eq_of_getLsbD_eq
  intro i hi
  have := congrArg (fun x => x.getLsbD i) hz
  simp only [BitVec.getLsbD_and, BitVec.getLsbD_not, hi, decide_true, Bool.true_and, BitVec.getLsbD_zero] at this ⊢
  revert this; cases w.getLsbD i <;> cases r.impl.getLsbD i <;> simp

/-- A field that is set keeps every other bit of a register. -/
theorem bitsBut_put {s : State} (h : RegsOk s) (r : Reg) (f : Fld) (v : Nat) (hl : f.lo ≤ f.hi) :
    ∀ i, ¬ (f.lo ≤ i ∧ i ≤ f.hi) → (f.put (s.reg r) v &&& r.impl).getLsbD i = (s.reg r).getLsbD i := by
  intro i hi
  by_cases h32 : i < 32
  · have hr := congrArg (fun x => x.getLsbD i) (reg_impl h r)
    simp only [BitVec.getLsbD_and] at hr
    simp only [BitVec.getLsbD_and, Fld.put, getLsbD_setFld _ _ _ _ _ h32 hl, hi, if_false, hr]
  · rw [BitVec.getLsbD_of_ge _ _ (by omega), BitVec.getLsbD_of_ge _ _ (by omega)]

end Sys2Proof.Machine
end

