-- ==== Sys2Proof/Laws/Keep.lean ====
section
/-!
SUPPORT. What every effect keeps, and so every meaning: the canonical form of memory, reserved bits, the queue; and how a part of the
state that no effect of a meaning touches is carried through its combinators.
-/
namespace Sys2Proof.Machine

/-! ### A part of the state that a meaning leaves alone -/

/-- The meaning leaves what `p` reads unchanged. -/
def Keeps {α : Type} (p : State → α) (a : Act) : Prop := ∀ s, p (s.after a) = p s

section
variable {α : Type} {p : State → α}

theorem keeps_nop : Keeps p actNop := fun _ => rfl
theorem keeps_seq {a b : Act} (ha : Keeps p a) (hb : Keeps p b) : Keeps p (actSeq a b) := fun s => by rw [after_seq, hb, ha]
theorem keeps_all {as : List Act} (h : ∀ a ∈ as, Keeps p a) : Keeps p (actAll as) := by
  induction as with
  | nil => exact keeps_nop
  | cons a as ih => exact keeps_seq (h a (by simp)) (ih fun b hb => h b (by simp [hb]))
theorem keeps_each {β : Type} (xs : List β) {f : β → Act} (h : ∀ x, Keeps p (f x)) : Keeps p (actEach xs f) :=
  keeps_all fun a ha => by obtain ⟨x, -, rfl⟩ := List.mem_map.1 ha; exact h x
theorem keeps_if {c : State → Bool} {a b : Act} (ha : Keeps p a) (hb : Keeps p b) : Keeps p (actIf c a b) := fun s => by
  rw [after_if]; split
  · exact ha s
  · exact hb s
theorem keeps_when {c : State → Bool} {a : Act} (ha : Keeps p a) : Keeps p (actWhen c a) := keeps_if ha keeps_nop
theorem keeps_on {c : Bool} {a : Act} (ha : Keeps p a) : Keeps p (actOn c a) := by cases c; exacts [keeps_nop, ha]
theorem keeps_get {β : Type} {f : State → β} {k : β → Act} (h : ∀ x, Keeps p (k x)) : Keeps p (actGet f k) := fun s => h (f s) s
theorem keeps_opt {β : Type} (o : Option β) {k : β → Act} (h : ∀ x, Keeps p (k x)) : Keeps p (actOpt o k) := by cases o; exacts [keeps_nop, h _]
theorem keeps_ite {c : Prop} [Decidable c] {a b : Act} (ha : Keeps p a) (hb : Keeps p b) : Keeps p (if c then a else b) := by
  split <;> assumption
end

/-! ### Every effect keeps the queue, the canonical form and the reserved bits -/

theorem apply_pending (s : State) (e : Eff) : (s.apply e).pending = s.pending := by cases e <;> simp

theorem run_pending (s : State) (es : List Eff) : (s.run es).pending = s.pending := by
  induction es generalizing s with
  | nil => rfl
  | cons e es ih => rw [run_cons, ih, apply_pending]

theorem memOk_apply {s : State} (e : Eff) (h : MemOk s) : MemOk (s.apply e) := by
  unfold MemOk at *
  cases e <;> simp only [apply_reg_mem, apply_regs_mem, apply_latched_mem, apply_held_mem, apply_store_mem, apply_wipe_mem, apply_tile_mem,
    apply_tiles_mem, apply_row_mem, apply_rows_mem, apply_slot_mem, apply_slots_mem, apply_job_mem, apply_echo_mem, apply_flt_mem, apply_hif_mem,
    apply_net_mem, apply_pwr_mem, apply_boot_mem, apply_ent_mem, apply_sec_mem, apply_pins_mem, apply_out_mem, apply_tick_mem, apply_otpLc_mem,
    apply_otpRevoke_mem, apply_otpIdent_mem, apply_otpOwner_mem, h]
  · exact memWrite_wf _ _ h
  · exact memWipe_wf _ _ h

theorem mem_tdel {κ α : Type} [DecidableEq κ] {t : Tab κ α} {k : κ} {p : κ × α} (h : p ∈ tdel t k) : p ∈ t := by
  induction t with
  | nil => exact h
  | cons q t ih =>
    obtain ⟨j, v⟩ := q
    unfold tdel at h
    split at h
    · exact List.mem_cons_of_mem _ (ih h)
    · rcases List.mem_cons.1 h with h | h
      · exact h ▸ List.mem_cons_self ..
      · exact List.mem_cons_of_mem _ (ih h)

theorem and_impl_reserved (v m : U32) : (v &&& m) &&& ~~~m = 0#32 := by
  rw [BitVec.and_assoc, BitVec.and_not_self]; exact BitVec.and_zero

theorem regsOk_apply {s : State} (e : Eff) (h : RegsOk s) : RegsOk (s.apply e) := by
  unfold RegsOk at *
  cases e <;> simp only [apply_reg_regs, apply_regs_regs, apply_latched_regs, apply_held_regs, apply_store_regs, apply_wipe_regs, apply_tile_regs,
    apply_tiles_regs, apply_row_regs, apply_rows_regs, apply_slot_regs, apply_slots_regs, apply_job_regs, apply_echo_regs, apply_flt_regs,
    apply_hif_regs, apply_net_regs, apply_pwr_regs, apply_boot_regs, apply_ent_regs, apply_sec_regs, apply_pins_regs, apply_out_regs,
    apply_tick_regs, apply_otpLc_regs, apply_otpRevoke_regs, apply_otpIdent_regs, apply_otpOwner_regs] <;> try exact h
  · rename_i r v
    intro p hp
    rcases List.mem_cons.1 hp with hp | hp
    · subst hp; exact and_impl_reserved _ _
    · exact h p (mem_tdel hp)
  · intro p hp
    obtain ⟨q, -, rfl⟩ := List.mem_map.1 hp
    exact and_impl_reserved _ _

theorem inv_run {s : State} (es : List Eff) (h : Inv s) : Inv (s.run es) := by
  induction es generalizing s with
  | nil => exact h
  | cons e es ih => exact ih ⟨memOk_apply e h.1, regsOk_apply e h.2⟩

/-- A meaning keeps what holds of every state. -/
theorem inv_after {s : State} (a : Act) (h : Inv s) : Inv (s.after a) := inv_run _ h

end Sys2Proof.Machine
end

