-- ==== Sys2Proof/Laws/Frame.lean ====
section
/-!
SUPPORT. Frames: a meaning whose effects lie within a scope leaves everything else as it was; scopes through the combinators.
-/
namespace Sys2Proof.Machine

/-- The effect lies within the scope. -/
def Eff.within (c : Scope) : Eff → Prop
  | .reg r _ => c.regs r
  | .regs _ => ∀ r, c.regs r
  | .latched _ => .latched ∈ c.parts
  | .held _ => .held ∈ c.parts
  | .store a bs => ∀ x, a ≤ x → x < a + bs.length → c.mem x
  | .wipe lo hi => ∀ x, lo ≤ x → x < hi → c.mem x
  | .tile t _ => c.tiles t
  | .tiles _ => ∀ t, c.tiles t
  | .row _ _ => .rows ∈ c.parts
  | .rows _ => .rows ∈ c.parts
  | .slot _ _ => .slots ∈ c.parts
  | .slots _ => .slots ∈ c.parts
  | .job _ => .job ∈ c.parts
  | .echo _ => .echo ∈ c.parts
  | .flt _ => .flt ∈ c.parts
  | .hif _ => .hif ∈ c.parts
  | .net _ => .net ∈ c.parts
  | .pwr _ => .pwr ∈ c.parts
  | .boot _ => .boot ∈ c.parts
  | .ent _ => .ent ∈ c.parts
  | .sec _ => .sec ∈ c.parts
  | .pins _ => .pins ∈ c.parts
  | .out _ => .out ∈ c.parts
  | .otpLc _ _ => .otp ∈ c.parts
  | .otpRevoke _ _ => .otp ∈ c.parts
  | .otpIdent _ _ => .otp ∈ c.parts
  | .otpOwner _ _ => .otp ∈ c.parts
  | .tick => .free ∈ c.parts

/-- Every effect of the meaning in `s` lies within the scope. -/
def Within (c : Scope) (s : State) (a : Act) : Prop := ∀ e ∈ a s, e.within c

theorem only_refl (c : Scope) (s : State) : Only c s s := ⟨fun _ _ => rfl, fun _ _ => rfl, fun _ _ => rfl, fun p _ => by cases p <;> rfl, rfl⟩

theorem samePart_trans {s u w : State} {p : Part} (h : SamePart s u p) (k : SamePart u w p) : SamePart s w p := by
  cases p <;> exact Eq.trans k h

theorem only_trans {c : Scope} {s u w : State} (h : Only c s u) (k : Only c u w) : Only c s w :=
  ⟨fun r hr => (k.reg r hr).trans (h.reg r hr), fun t ht => (k.tile t ht).trans (h.tile t ht), fun a ha => (k.byte a ha).trans (h.byte a ha),
    fun p hp => samePart_trans (h.part p hp) (k.part p hp), k.queue.trans h.queue⟩

/-- Bytes outside a store or a wipe stay, in canonical memory. -/
theorem byte_apply {c : Scope} {s : State} {e : Eff} (h : e.within c) (hm : MemOk s ∨ ∀ x, ¬ c.mem x) {x : Nat} (hx : ¬ c.mem x) :
    (s.apply e).byte x = s.byte x := by
  cases e <;> simp only [Eff.within] at h <;> try (simp [State.byte]; done)
  · rename_i a bs
    have ho : x < a ∨ a + bs.length ≤ x := by
      by_contra hc; exact hx (h x (by omega) (by omega))
    rcases hm with hm | hm
    · exact memGet_memWrite_out bs a hm ho
    · cases bs with
      | nil => rfl
      | cons b bs => exact absurd (h a (Nat.le_refl _) (by simp)) (hm a)
  · rename_i lo hi
    have ho : x < lo ∨ hi ≤ x := by
      by_contra hc; exact hx (h x (by omega) (by omega))
    rcases hm with hm | hm
    · exact memGet_memWipe_out ho hm
    · have hl : ¬ lo < hi := fun hl => hm lo (h lo (Nat.le_refl _) hl)
      have : memWipe s.mem lo hi = s.mem := by
        refine List.filter_eq_self.2 fun p _ => ?_
        simp only [Bool.not_eq_true', Bool.and_eq_false_iff, decide_eq_false_iff_not]; omega
      simp [State.byte, this]

theorem reg_apply {c : Scope} {s : State} {e : Eff} (h : e.within c) {r : Reg} (hr : ¬ c.regs r) : (s.apply e).reg r = s.reg r := by
  cases e with
  | reg q v => rw [reg_apply_reg, if_neg]; rintro rfl; exact hr h
  | regs t => exact absurd (h r) hr
  | otpIdent k v => simp [State.reg]
  | otpOwner k v => simp [State.reg]
  | _ => rfl

theorem tile_apply {c : Scope} {s : State} {e : Eff} (h : e.within c) {t : TileId} (ht : ¬ c.tiles t) : (s.apply e).tile t = s.tile t := by
  cases e with
  | tile q v => rw [tile_apply_tile, if_neg]; rintro rfl; exact ht h
  | tiles t' => exact absurd (h t) ht
  | otpIdent k v => simp [State.tile]
  | otpOwner k v => simp [State.tile]
  | _ => rfl

theorem part_apply {c : Scope} {s : State} {e : Eff} (h : e.within c) {p : Part} (hp : p ∉ c.parts) : SamePart s (s.apply e) p := by
  cases e <;> simp only [Eff.within] at h <;> cases p <;> first | exact absurd h hp | simp [SamePart]

theorem only_apply {c : Scope} {s : State} {e : Eff} (h : e.within c) (hm : MemOk s ∨ ∀ x, ¬ c.mem x) : Only c s (s.apply e) :=
  ⟨fun _ => reg_apply h, fun _ => tile_apply h, fun _ => byte_apply h hm, fun _ => part_apply h, apply_pending s e⟩

theorem only_run {c : Scope} (es : List Eff) : ∀ {s : State}, (∀ e ∈ es, e.within c) → (MemOk s ∨ ∀ x, ¬ c.mem x) → Only c s (s.run es) := by
  induction es with
  | nil => exact fun _ _ => only_refl _ _
  | cons e es ih =>
    intro s h hm
    exact only_trans (only_apply (h e (by simp)) hm) (ih (fun e he => h e (by simp [he])) (hm.imp (memOk_apply e) id))

/-- A meaning whose effects lie within a scope leaves everything else. -/
theorem only_after {c : Scope} {s : State} {a : Act} (h : Within c s a) (hm : MemOk s ∨ ∀ x, ¬ c.mem x) : Only c s (s.after a) := only_run _ h hm

/-! ### Scopes through the combinators -/

section
variable {c : Scope} {s : State}

theorem within_nop : Within c s actNop := by simp [Within, actNop]
theorem within_seq {a b : Act} (ha : Within c s a) (hb : Within c (s.after a) b) : Within c s (actSeq a b) := fun e he =>
  (List.mem_append.1 he).elim (ha e) (hb e)
theorem within_all {as : List Act} (h : ∀ a ∈ as, ∀ s, Within c s a) : Within c s (actAll as) := by
  induction as generalizing s with
  | nil => exact within_nop
  | cons a as ih => exact within_seq (h a (by simp) s) (ih fun b hb => h b (by simp [hb]))
theorem within_all_nil : Within c s (actAll []) := within_nop
theorem within_all_cons {a : Act} {as : List Act} (ha : Within c s a) (h : Within c (s.after a) (actAll as)) : Within c s (actAll (a :: as)) := within_seq ha h
theorem within_each {β : Type} (xs : List β) {f : β → Act} (h : ∀ x ∈ xs, ∀ s, Within c s (f x)) : Within c s (actEach xs f) :=
  within_all fun a ha s => by obtain ⟨x, hx, rfl⟩ := List.mem_map.1 ha; exact h x hx s
theorem within_if {g : State → Bool} {a b : Act} (ha : g s = true → Within c s a) (hb : g s = false → Within c s b) : Within c s (actIf g a b) := by
  unfold Within actIf; split
  · exact ha ‹_›
  · rename_i h; exact hb (Bool.eq_false_iff.2 h)
theorem within_when {g : State → Bool} {a : Act} (ha : g s = true → Within c s a) : Within c s (actWhen g a) := within_if ha fun _ => within_nop
theorem within_on {g : Bool} {a : Act} (ha : g = true → Within c s a) : Within c s (actOn g a) := by
  cases g; exacts [within_nop, ha rfl]
theorem within_get {β : Type} {f : State → β} {k : β → Act} (h : Within c s (k (f s))) : Within c s (actGet f k) := h
theorem within_opt {β : Type} {o : Option β} {k : β → Act} (h : ∀ x, o = some x → Within c s (k x)) : Within c s (actOpt o k) := by
  cases o; exacts [within_nop, h _ rfl]
theorem within_ite {g : Prop} [Decidable g] {a b : Act} (ha : g → Within c s a) (hb : ¬ g → Within c s b) : Within c s (if g then a else b) := by
  split; exacts [ha ‹_›, hb ‹_›]
theorem within_free {k : BitVec 512 → Act} (hf : .free ∈ c.parts) (h : ∀ w s, Within c s (k w)) : Within c s (withFree k) := fun e he => by
  rcases List.mem_cons.1 he with rfl | he
  · exact hf
  · exact h _ _ e he
theorem within_one {e : Eff} (h : e.within c) : Within c s (fun _ => [e]) := by intro e' he; rw [List.mem_singleton.1 he]; exact h
theorem within_setReg {r : Reg} {v : U32} (h : c.regs r) : Within c s (setReg r v) := within_one h
theorem within_modReg {r : Reg} {f : U32 → U32} (h : c.regs r) : Within c s (modReg r f) := by intro e he; rw [List.mem_singleton.1 he]; exact h
theorem within_setF {r : Reg} {f : Fld} {v : Nat} (h : c.regs r) : Within c s (setF r f v) := within_modReg h
theorem within_incReg {r : Reg} {n : Nat} (h : c.regs r) : Within c s (incReg r n) := within_modReg h
theorem within_incF {r : Reg} {f : Fld} {n : Nat} (h : c.regs r) : Within c s (incF r f n) := within_modReg h
theorem within_setPair {lo hi : Reg} {v : Nat} (h : c.regs lo) (k : c.regs hi) : Within c s (setPair lo hi v) := by
  intro e he
  simp only [setPair, List.mem_cons, List.not_mem_nil, or_false] at he
  rcases he with rfl | rfl
  exacts [h, k]
theorem within_modTile {t : TileId} {f : Tile → Tile} (h : c.tiles t) : Within c s (modTile t f) := by intro e he; rw [List.mem_singleton.1 he]; exact h
theorem within_modRow {n : BitVec 9} {f : Row → Row} (h : .rows ∈ c.parts) : Within c s (modRow n f) := by intro e he; rw [List.mem_singleton.1 he]; exact h
theorem within_modSlot {n : Nat} {f : Slot → Slot} (h : .slots ∈ c.parts) : Within c s (modSlot n f) := by intro e he; rw [List.mem_singleton.1 he]; exact h
theorem within_modJob {f : Job → Job} (h : .job ∈ c.parts) : Within c s (modJob f) := by intro e he; rw [List.mem_singleton.1 he]; exact h
theorem within_modEcho {f : Echo → Echo} (h : .echo ∈ c.parts) : Within c s (modEcho f) := by intro e he; rw [List.mem_singleton.1 he]; exact h
theorem within_modFlt {f : Flt → Flt} (h : .flt ∈ c.parts) : Within c s (modFlt f) := by intro e he; rw [List.mem_singleton.1 he]; exact h
theorem within_modHif {f : Hif → Hif} (h : .hif ∈ c.parts) : Within c s (modHif f) := by intro e he; rw [List.mem_singleton.1 he]; exact h
theorem within_modNet {f : Bexir → Bexir} (h : .net ∈ c.parts) : Within c s (modNet f) := by intro e he; rw [List.mem_singleton.1 he]; exact h
theorem within_modPwr {f : Power → Power} (h : .pwr ∈ c.parts) : Within c s (modPwr f) := by intro e he; rw [List.mem_singleton.1 he]; exact h
theorem within_modBoot {f : Boot → Boot} (h : .boot ∈ c.parts) : Within c s (modBoot f) := by intro e he; rw [List.mem_singleton.1 he]; exact h
theorem within_modEnt {f : Ent → Ent} (h : .ent ∈ c.parts) : Within c s (modEnt f) := by intro e he; rw [List.mem_singleton.1 he]; exact h
theorem within_modSec {f : Sec → Sec} (h : .sec ∈ c.parts) : Within c s (modSec f) := by intro e he; rw [List.mem_singleton.1 he]; exact h
theorem within_modPins {f : Pins → Pins} (h : .pins ∈ c.parts) : Within c s (modPins f) := by intro e he; rw [List.mem_singleton.1 he]; exact h
theorem within_modOut {f : Out → Out} (h : .out ∈ c.parts) : Within c s (modOut f) := by intro e he; rw [List.mem_singleton.1 he]; exact h
theorem within_store {a : Nat} {bs : List Byte} (h : ∀ x, a ≤ x → x < a + bs.length → c.mem x) : Within c s (store a bs) := within_one h
theorem within_wipe {lo hi : Nat} (h : ∀ x, lo ≤ x → x < hi → c.mem x) : Within c s (wipe lo hi) := within_one h
end

end Sys2Proof.Machine
end

