-- ==== Sys2Proof/Laws/Answer.lean ====
section
/-!
SUPPORT. How completion and frames are shown: a command whose meaning completes answers the state that the meaning leaves; frames
compose, and each effect has its own.
-/
namespace Sys2Proof.Machine

theorem answers_of {i : Instr} {s : State} {P : State → Prop} {a : Act} (h : exec i s = s.does a) (hp : P (s.after a)) : Answers i s P :=
  ⟨s.after a, h, hp⟩

/-- Every command completes with the effects of a meaning. -/
theorem exec_does (c : Instr) (s : State) : ∃ a, exec c s = s.does a := by cases c <;> exact ⟨_, rfl⟩

/-- What holds of the state that a completed meaning leaves. -/
@[simp] theorem exists_does {s : State} {P : State → Prop} {a : Act} : (∃ u, s.does a = .next u ∧ P u) ↔ P (s.after a) := by
  constructor
  · rintro ⟨u, h, hp⟩; injection h with h; exact h ▸ hp
  · exact fun hp => ⟨s.after a, rfl, hp⟩

/-- An access to a block that answers has its effect. -/
theorem after_reachReg {s : State} {r : Reg} (h : Powered s r) (k : Act) : s.after (reachReg r k) = s.after k := by
  simp [reachReg, reach, h.1, h.2]

end Sys2Proof.Machine
end

