-- ==== Sys2Proof/Laws/Tile.lean ====
section
/-!
SUPPORT. The slots of a beat: what a slot sees and leaves, what settles, and the end of a beat in which nothing else is due.
-/
namespace Sys2Proof.Machine

theorem tdel_tdel {κ α : Type} [DecidableEq κ] (t : Tab κ α) (k : κ) : tdel (tdel t k) k = tdel t k := by
  induction t with
  | nil => rfl
  | cons p t ih =>
    obtain ⟨j, v⟩ := p
    by_cases h : j = k
    · simp [tdel, h, ih]
    · simp [tdel, h, ih]

@[simp] theorem tset_tset {κ α : Type} [DecidableEq κ] (t : Tab κ α) (k : κ) (v w : α) : tset (tset t k v) k w = tset t k w := by
  simp [tset, tdel, tdel_tdel]

/-- Of two settings of one tile the later stays. -/
@[simp] theorem apply_tile_tile (s : State) (t : TileId) (v w : Tile) : (s.apply (.tile t v)).apply (.tile t w) = s.apply (.tile t w) := by
  simp [State.apply]

/-- A slot that may act has its effect in the tile's beat (R14). -/
theorem after_inBeat {s : State} {t : TileId} (h : canAct s t = true) (a : Act) :
    s.after (inBeat t a) = (s.apply (.tile t (inItsBeat s t))).after a := by
  simp [inBeat, h, enterBeat, inItsBeat]

/-- A slot that may not act has no effect (notes/assumptions/6.md). -/
theorem after_inBeat_not {s : State} {t : TileId} (h : canAct s t = false) (a : Act) : s.after (inBeat t a) = s := by
  simp [inBeat, h]

@[simp] theorem inItsBeat_eq (s : State) (t : TileId) : { s.tile t with mid := true } = inItsBeat s t := rfl

/-! ### Settling -/

theorem settled_tile {s : State} (h : Settled s) (t : TileId) : (s.tile t).waits = [] ∧ (s.tile t).ctl = none := by
  unfold State.tile
  have : ∀ l : Tab TileId Tile, (∀ p ∈ l, p.2.waits = [] ∧ p.2.ctl = none) → (tget l {} t).waits = [] ∧ (tget l {} t).ctl = none := by
    intro l hl
    induction l with
    | nil => exact ⟨rfl, rfl⟩
    | cons p l ih =>
      obtain ⟨j, v⟩ := p
      by_cases hj : j = t
      · simpa [tget, hj] using hl _ (List.mem_cons_self ..)
      · simpa [tget, hj] using ih fun q hq => hl q (List.mem_cons_of_mem _ hq)
  exact this _ h

theorem canSettle_settled {s : State} (h : Settled s) (t : TileId) : canSettle s t = false := by
  simp [canSettle, (settled_tile h t).1, (settled_tile h t).2]

/-- With no wait and no held CTL slot there is nothing to settle (R14). -/
theorem after_settle {s : State} (h : Settled s) : s.after settle = s := by
  have key : ∀ n, s.after (settleLoop n) = s := by
    intro n
    cases n with
    | zero => rfl
    | succ n =>
      have : (tkeys s.tiles).filter (canSettle s) = [] := by
        refine List.filter_eq_nil_iff.2 fun t _ => ?_
        simp [canSettle_settled h]
      simp [settleLoop, this]
  simp [settle, key]

theorem settled_apply_tile {s : State} (h : Settled s) (t : TileId) (v : Tile) (hw : v.waits = []) (hc : v.ctl = none) :
    Settled (s.apply (.tile t v)) := by
  intro p hp
  rcases List.mem_cons.1 hp with rfl | hp
  · exact ⟨hw, hc⟩
  · exact h p (mem_tdel hp)

/-! ### The end of a beat -/

theorem land_keeps (τ : Tile) (w : RegW) :
    (τ.land w).mid = τ.mid ∧ (τ.land w).mode = τ.mode ∧ (τ.land w).beat = τ.beat ∧ (τ.land w).bpos = τ.bpos ∧ (τ.land w).loops = τ.loops ∧
      (τ.land w).step = τ.step ∧ (τ.land w).waits = τ.waits ∧ (τ.land w).ctl = τ.ctl ∧ (τ.land w).maint = τ.maint ∧
      (τ.land w).freezeReq = τ.freezeReq ∧ (τ.land w).haltReq = τ.haltReq ∧ (τ.land w).stepsLeft = τ.stepsLeft ∧ (τ.land w).fe = τ.fe := by
  cases w with
  | drain b v tag => cases b <;> simp [Tile.land, Tile.putSet]
  | _ => simp [Tile.land]

theorem foldl_land_keeps (ws : List RegW) : ∀ τ : Tile,
    (ws.foldl Tile.land τ).mid = τ.mid ∧ (ws.foldl Tile.land τ).mode = τ.mode ∧ (ws.foldl Tile.land τ).beat = τ.beat ∧
      (ws.foldl Tile.land τ).bpos = τ.bpos ∧ (ws.foldl Tile.land τ).loops = τ.loops ∧ (ws.foldl Tile.land τ).step = τ.step ∧
      (ws.foldl Tile.land τ).waits = τ.waits ∧ (ws.foldl Tile.land τ).ctl = τ.ctl ∧ (ws.foldl Tile.land τ).maint = τ.maint ∧
      (ws.foldl Tile.land τ).freezeReq = τ.freezeReq ∧ (ws.foldl Tile.land τ).haltReq = τ.haltReq ∧
      (ws.foldl Tile.land τ).stepsLeft = τ.stepsLeft ∧ (ws.foldl Tile.land τ).fe = τ.fe := by
  induction ws with
  | nil => intro τ; simp
  | cons w ws ih =>
    intro τ
    have h := ih (τ.land w)
    have k := land_keeps τ w
    simp only [List.foldl_cons]
    refine ⟨h.1.trans k.1, h.2.1.trans k.2.1, h.2.2.1.trans k.2.2.1, h.2.2.2.1.trans k.2.2.2.1, h.2.2.2.2.1.trans k.2.2.2.2.1,
      h.2.2.2.2.2.1.trans k.2.2.2.2.2.1, h.2.2.2.2.2.2.1.trans k.2.2.2.2.2.2.1, h.2.2.2.2.2.2.2.1.trans k.2.2.2.2.2.2.2.1,
      h.2.2.2.2.2.2.2.2.1.trans k.2.2.2.2.2.2.2.2.1, h.2.2.2.2.2.2.2.2.2.1.trans k.2.2.2.2.2.2.2.2.2.1,
      h.2.2.2.2.2.2.2.2.2.2.1.trans k.2.2.2.2.2.2.2.2.2.2.1, h.2.2.2.2.2.2.2.2.2.2.2.1.trans k.2.2.2.2.2.2.2.2.2.2.2.1,
      h.2.2.2.2.2.2.2.2.2.2.2.2.trans k.2.2.2.2.2.2.2.2.2.2.2.2⟩

section
variable (τ : Tile)
@[simp] theorem landed_mid : (landed τ).mid = τ.mid := (foldl_land_keeps _ τ).1
@[simp] theorem landed_mode : (landed τ).mode = τ.mode := (foldl_land_keeps _ τ).2.1
@[simp] theorem landed_beat : (landed τ).beat = τ.beat := (foldl_land_keeps _ τ).2.2.1
@[simp] theorem landed_bpos : (landed τ).bpos = τ.bpos := (foldl_land_keeps _ τ).2.2.2.1
@[simp] theorem landed_loops : (landed τ).loops = τ.loops := (foldl_land_keeps _ τ).2.2.2.2.1
@[simp] theorem landed_step : (landed τ).step = τ.step := (foldl_land_keeps _ τ).2.2.2.2.2.1
@[simp] theorem landed_waits : (landed τ).waits = τ.waits := (foldl_land_keeps _ τ).2.2.2.2.2.2.1
@[simp] theorem landed_ctl : (landed τ).ctl = τ.ctl := (foldl_land_keeps _ τ).2.2.2.2.2.2.2.1
@[simp] theorem landed_fe : (landed τ).fe = τ.fe := (foldl_land_keeps _ τ).2.2.2.2.2.2.2.2.2.2.2.2
@[simp] theorem landed_writes : (landed τ).writes = [] := rfl
end

theorem filter_false_of {α : Type} {p : α → Bool} {l : List α} (h : ∀ x ∈ l, p x = false) : l.filter p = [] :=
  List.filter_eq_nil_iff.2 fun x hx => by simp [h x hx]

theorem filter_true_of {α : Type} {p : α → Bool} {l : List α} (h : ∀ x ∈ l, p x = true) : l.filter p = l := List.filter_eq_self.2 h

section
variable {s : State} {t : TileId} {τ : Tile}

theorem after_tableDue (h : ∀ i ∈ τ.tabq, τ.beat < i.beat + 11) : (s.apply (.tile t τ)).after (tableDue t) = s.apply (.tile t τ) := by
  have h1 : τ.tabq.filter (fun i => decide (τ.beat < i.beat + 11)) = τ.tabq := filter_true_of fun i hi => by simpa using h i hi
  have h2 : τ.tabq.filter (fun i => !decide (τ.beat < i.beat + 11)) = [] := filter_false_of fun i hi => by simpa using h i hi
  simp [tableDue, h1, h2]

theorem after_emergeDue (h : ∀ i ∈ τ.pipe, τ.beat < i.beat + 10) : (s.apply (.tile t τ)).after (emergeDue t) = s.apply (.tile t τ) := by
  have h1 : τ.pipe.filter (fun i => decide (τ.beat < i.beat + 10)) = τ.pipe := filter_true_of fun i hi => by simpa using h i hi
  have h2 : τ.pipe.filter (fun i => !decide (τ.beat < i.beat + 10)) = [] := filter_false_of fun i hi => by simpa using h i hi
  simp [emergeDue, h1, h2]

theorem putSet_set (τ : Tile) (b : Bool) : τ.putSet b (τ.set b) = τ := by cases b <;> rfl

theorem after_nodesDue {b : Bool} (h : ∀ j ∈ (τ.set b).jobs, τ.beat < j.due) : (s.apply (.tile t τ)).after (nodesDue t b) = s.apply (.tile t τ) := by
  have h1 : (τ.set b).jobs.filter (fun j => decide (j.due ≤ τ.beat)) = [] := filter_false_of fun j hj => by simpa using h j hj
  have h2 : (τ.set b).jobs.filter (fun j => !decide (j.due ≤ τ.beat)) = (τ.set b).jobs := filter_true_of fun j hj => by simpa using h j hj
  simp only [nodesDue, formDue, modSet, after_get, after_all_cons, after_all_nil, after_modTile, tile_apply_tile_same, h1, h2, after_each_nil, apply_tile_tile]
  congr 2
  exact putSet_set τ b

theorem after_statsDue (h : ∀ j ∈ τ.statq, τ.beat < j.due) : (s.apply (.tile t τ)).after (statsDue t) = s.apply (.tile t τ) := by
  have h1 : τ.statq.filter (fun j => decide (j.due ≤ τ.beat)) = [] := filter_false_of fun j hj => by simpa using h j hj
  have h2 : τ.statq.filter (fun j => !decide (j.due ≤ τ.beat)) = τ.statq := filter_true_of fun j hj => by simpa using h j hj
  simp only [statsDue, after_get, after_all_cons, after_all_nil, after_modTile, tile_apply_tile_same, h1, h2, after_each_nil, apply_tile_tile]

theorem after_drainConvert {b : Bool} (h : (τ.set b).drain = none) : (s.apply (.tile t τ)).after (drainConvert t b) = s.apply (.tile t τ) := by
  unfold drainConvert
  rw [after_get, tile_apply_tile_same]
  dsimp only
  rw [h]
  rfl

theorem after_landWrites : (s.apply (.tile t τ)).after (landWrites t) = s.apply (.tile t (landed τ)) := by
  simp [landWrites, landed]

/-- The end of a beat in which nothing else is due: results land, and the CTL slot acts (R43, R48). -/
theorem after_endBeat (h : Quiet τ) {code : Nat} (hc : code ≠ 3) (arg : Nat) :
    (s.apply (.tile t τ)).after (endBeat t code arg) = s.apply (.tile t ((landed τ).ctlMove code arg).afterBeat) := by
  simp only [endBeat, after_all_cons, after_all_nil, after_tableDue h.tabq, after_emergeDue h.pipe, after_nodesDue (b := false) h.jobsA,
    after_nodesDue (b := true) h.jobsB, after_statsDue h.statq, after_drainConvert (b := false) h.drainA, after_drainConvert (b := true) h.drainB,
    after_landWrites, hc, after_on, decide_false, Bool.false_eq_true, if_false, after_modTile, tile_apply_tile_same, apply_tile_tile]
  
theorem quiet_mid (h : Quiet τ) : Quiet { τ with mid := true } := ⟨h.pipe, h.tabq, h.jobsA, h.jobsB, h.statq, h.drainA, h.drainB⟩

theorem afterBeat_waits (τ : Tile) : τ.afterBeat.waits = τ.waits := by
  unfold Tile.afterBeat; dsimp only; split <;> [skip; rfl]; split <;> [rfl; skip]; split <;> [skip; rfl]; split <;> rfl

theorem afterBeat_ctl (τ : Tile) : τ.afterBeat.ctl = none := by
  unfold Tile.afterBeat; dsimp only; split <;> [skip; rfl]; split <;> [rfl; skip]; split <;> [skip; rfl]; split <;> rfl

theorem ctlMove_waits (τ : Tile) (code arg : Nat) : (τ.ctlMove code arg).waits = τ.waits := by
  unfold Tile.ctlMove
  split <;> (repeat' split) <;> rfl

/-- The CTL slot of a beat in which nothing is awaited and nothing else is due (R14, R43). -/
theorem after_ctl (hs : Settled s) (ha : canAct s t = true) (hq : Quiet (s.tile t)) {code : Nat} (hc : code ≠ 3) (arg : Nat) :
    s.after (ctl t code arg) = s.apply (.tile t ((landed (inItsBeat s t)).ctlMove code arg).afterBeat) := by
  have hw : (inItsBeat s t).waits = [] := (settled_tile hs t).1
  have hl : Settled (s.apply (.tile t ((landed (inItsBeat s t)).ctlMove code arg).afterBeat)) :=
    settled_apply_tile hs t _ (by rw [afterBeat_waits, ctlMove_waits, landed_waits, hw]) (afterBeat_ctl _)
  simp only [ctl, after_all_cons, after_all_nil, after_inBeat ha, after_get, tile_apply_tile_same, hw, List.isEmpty_nil, if_true,
    after_endBeat (s := s) (t := t) (show Quiet (inItsBeat s t) from quiet_mid hq) hc arg]
  exact after_settle hl
end

/-! ### The moves of the CTL slot (R43, R44) -/

theorem ctlMove_begin (τ : Tile) (arg : Nat) : τ.ctlMove 1 arg =
    if τ.loops.head?.map Prod.fst = some τ.bpos then { τ with bpos := τ.bpos + 1 }
    else { τ with bpos := τ.bpos + 1, loops := (τ.bpos, arg + 1) :: τ.loops } := by
  rcases τ with ⟨_, _, _, _, bpos, _, ls, _⟩
  cases ls with
  | nil => rfl
  | cons p ls =>
    obtain ⟨b, n⟩ := p
    by_cases h : b = bpos
    · simp [Tile.ctlMove, h]
    · simp [Tile.ctlMove, h]

theorem ctlMove_end_open {τ : Tile} {b n : Nat} {ls : List (Nat × Nat)} (h : τ.loops = (b, n) :: ls) : τ.ctlMove 2 0 =
    if 1 < n then { τ with bpos := b, loops := (b, n - 1) :: ls } else { τ with bpos := τ.bpos + 1, loops := ls } := by
  cases τ; dsimp only at h; subst h; rfl

theorem ctlMove_end_none {τ : Tile} (h : τ.loops = []) : τ.ctlMove 2 0 = { τ with bpos := τ.bpos + 1 } := by
  cases τ; dsimp only at h; subst h; rfl

theorem ctlMove_one_first {τ : Tile} (arg : Nat) (h : τ.loops.head?.map Prod.fst ≠ some τ.bpos) : τ.ctlMove 7 arg =
    if 0 < arg then { τ with loops := (τ.bpos, arg) :: τ.loops } else { τ with bpos := τ.bpos + 1 } := by
  rcases τ with ⟨_, _, _, _, bpos, _, ls, _⟩
  cases ls with
  | nil => rfl
  | cons p ls =>
    obtain ⟨b, n⟩ := p
    have hb : b ≠ bpos := by rintro rfl; exact h rfl
    simp [Tile.ctlMove, hb]

theorem ctlMove_one_again {τ : Tile} (arg : Nat) {n : Nat} {ls : List (Nat × Nat)} (h : τ.loops = (τ.bpos, n) :: ls) : τ.ctlMove 7 arg =
    if 1 < n then { τ with loops := (τ.bpos, n - 1) :: ls } else { τ with bpos := τ.bpos + 1, loops := ls } := by
  cases τ; dsimp only at h; subst h; simp [Tile.ctlMove]

/-! ### Faults (R70, R309) -/

/-- Stopping a tile changes its mode or its request to stop, nothing else. -/
theorem freeze_eq (τ : Tile) : τ.freeze = { τ with mode := τ.freeze.mode, freezeReq := τ.freeze.freezeReq } := by
  unfold Tile.freeze; split <;> [split; skip; skip] <;> rfl

theorem freeze_mid {τ : Tile} (h : τ.mid = true) (hr : τ.mode = .run) : τ.freeze = { τ with freezeReq := true } := by
  simp [Tile.freeze, h, hr]

section
variable (τ : Tile)
@[simp] theorem freeze_waits : τ.freeze.waits = τ.waits := by rw [freeze_eq]
@[simp] theorem freeze_ctl : τ.freeze.ctl = τ.ctl := by rw [freeze_eq]
@[simp] theorem freeze_step : τ.freeze.step = τ.step := by rw [freeze_eq]
@[simp] theorem freeze_isMid : τ.freeze.mid = τ.mid := by rw [freeze_eq]
@[simp] theorem freeze_writes : τ.freeze.writes = τ.writes := by rw [freeze_eq]
@[simp] theorem freeze_beat : τ.freeze.beat = τ.beat := by rw [freeze_eq]
theorem freeze_quiet {τ : Tile} (h : Quiet τ) : Quiet τ.freeze := by
  rw [freeze_eq]; exact ⟨h.pipe, h.tabq, h.jobsA, h.jobsB, h.statq, h.drainA, h.drainB⟩
end

theorem tget_map {κ α : Type} [DecidableEq κ] (f : α → α) (d : α) (hd : f d = d) (l : Tab κ α) (k : κ) :
    tget (l.map fun p => (p.1, f p.2)) d k = f (tget l d k) := by
  induction l with
  | nil => exact hd.symm
  | cons p l ih =>
    obtain ⟨j, v⟩ := p
    by_cases h : j = k <;> simp [tget, h, ih]

/-- Every tile stops. -/
@[simp] theorem tile_apply_freeze (s : State) (ts : Tab TileId Tile) (t : TileId) :
    (s.apply (.tiles (ts.map fun p => (p.1, p.2.freeze)))).tile t = (tget ts {} t).freeze := tget_map Tile.freeze {} rfl ts t

/-- A fault waits for the MC once it is noted (R321). -/
theorem note_mem (x : Flt) (f : FaultRec) : f ∈ (x.note f).pending := by
  simp only [Flt.note]
  split
  · rename_i h; simpa using h
  · simp

@[simp] theorem note_self (x : Flt) (f : FaultRec) : (x.note f).pending ≠ [] := List.ne_nil_of_mem (note_mem x f)

/-- A fault while a job is loaded: its record is pending behind those that are, the running job and its tiles freeze, and FLT_STATUS shows it
(R70, R309, R320). -/
theorem after_raiseFault {s : State} (f : FaultRec) (h : jobLoaded s = true) :
    s.after (raiseFault f) = (((s.apply (.flt (s.flt.note f))).apply
      (.job { s.job with phase := if s.job.phase = .running then .frozen else s.job.phase })).apply
      (.tiles (s.tiles.map fun p => (p.1, p.2.freeze)))).after (setF .fltStatus F.fltStatus_STATE 1) := by
  simp only [raiseFault, after_when, h, if_true, after_all_cons, after_all_nil, after_modFlt, after_modJob]
  rfl

theorem after_raiseFault_none {s : State} (f : FaultRec) (h : jobLoaded s = false) : s.after (raiseFault f) = s := by
  simp [raiseFault, h]

theorem jobLoaded_congr {s u : State} (h : u.job = s.job) : jobLoaded u = jobLoaded s := by simp [jobLoaded, h]

/-- What a fault leaves: it is pending, nothing runs on, FLT_STATUS reads FROZEN (R70, R309, R320). -/
theorem faulted_raiseFault (s : State) (f : FaultRec) : Faulted f s (s.after (raiseFault f)) := by
  intro h
  rw [after_raiseFault f h]
  refine ⟨rfl, note_mem _ _, ?_, ?_⟩
  · simp only [after_setF, apply_reg_job, apply_tiles_job, apply_job_job]
    split
    · exact fun h => by cases h
    · assumption
  · rw [fget_setF _ _ _ _ (by decide) (by decide) (by decide)]; rfl

theorem stopping_raiseFault (s : State) (f : FaultRec) (h : jobLoaded s = true) : Stopping (s.after (raiseFault f)) := by
  intro t' ht
  rw [after_raiseFault f h] at ht ⊢
  simp only [after_setF, tile_apply_reg, tile_apply_freeze] at ht ⊢
  revert ht
  unfold Tile.freeze
  split
  · split <;> simp
  · simp
  · rename_i h1 _; intro h2; exact absurd h2 h1

theorem settled_freeze {s : State} (h : Settled s) : Settled (s.apply (.tiles (s.tiles.map fun p => (p.1, p.2.freeze)))) := by
  intro p hp
  obtain ⟨q, hq, rfl⟩ := List.mem_map.1 hp
  simpa using h q hq

/-! ### Status and fault bits of a tile (R70) -/

theorem regsOk_tile {s : State} (h : RegsOk s) (t : TileId) (v : Tile) : RegsOk (s.apply (.tile t v)) := h

theorem tileErr_bit (t : TileId) {i : Nat} (h : i < 15) : bitOf (Reg.impl (.tileErr t)) i = true := by
  have : ∀ i < 15, bitOf 0x7FFF#32 i = true := by decide
  exact this i h

/-- A one-bit field of TILE_ERR. -/
theorem tileErr_impl (t : TileId) {f : Fld} (h : f.lo = f.hi) (hi : f.lo < 15) :
    fld (Reg.impl (.tileErr t)) f.hi f.lo = 2 ^ (f.hi + 1 - f.lo) - 1 := by
  rw [← h, fld_eq]
  apply Nat.eq_of_testBit_eq
  intro i
  rw [BitVec.testBit_toNat, BitVec.getLsbD_extractLsb', Nat.testBit_two_pow_sub_one]
  have hm := tileErr_bit t hi
  by_cases hx : i = 0
  · subst hx
    simpa [bitOf] using hm
  · have : ¬ i < f.lo + 1 - f.lo := by omega
    simp only [this, decide_false, Bool.false_and]

/-- The bit of TILE_ERR reads 1 once it is set. -/
theorem flag_tileErr (s : State) (t : TileId) {f : Fld} (h : f.lo = f.hi) (hi : f.lo < 15) :
    (s.after (tileErr t f)).flag (.tileErr t) f = true := by
  have := fget_setF s f (.tileErr t) 1 (by omega) (by omega) (tileErr_impl t h hi)
  simp only [tileErr, State.flag, this, ← h, decide_eq_true_eq]
  simp

/-- Every other bit of TILE_ERR stays. -/
theorem bits_tileErr {s : State} (hr : RegsOk s) (t : TileId) {f : Fld} (h : f.lo = f.hi) :
    BitsBut [f.lo] (s.reg (.tileErr t)) ((s.after (tileErr t f)).reg (.tileErr t)) := by
  intro i hi
  simp only [tileErr, after_setF, reg_apply_reg_same]
  exact bitsBut_put hr _ f 1 (by omega) i (by simp at hi; omega)

theorem flag_of_bits {r : Reg} {f : Fld} {s u : State} (h : f.lo = f.hi) (hb : (u.reg r).getLsbD f.lo = (s.reg r).getLsbD f.lo) :
    u.flag r f = s.flag r f := by
  simp only [State.flag, State.fget, Fld.get, ← h, fld_eq]
  congr 2
  apply Nat.eq_of_testBit_eq
  intro i
  rw [BitVec.testBit_toNat, BitVec.testBit_toNat, BitVec.getLsbD_extractLsb', BitVec.getLsbD_extractLsb']
  by_cases hx : i = 0
  · subst hx; simp [hb]
  · have : ¬ i < f.lo + 1 - f.lo := by omega
    simp only [this, decide_false, Bool.false_and]

theorem after_tileErr (s : State) (t : TileId) (f : Fld) : s.after (tileErr t f) = s.apply (.reg (.tileErr t) (f.put (s.reg (.tileErr t)) 1)) := rfl

theorem regsOk_tileErr {s : State} (h : RegsOk s) (t : TileId) (f : Fld) : RegsOk (s.after (tileErr t f)) := regsOk_apply _ h

/-- The information bits of a floating-point operation (R91, R93). -/
theorem fpRaised_tileFp {s : State} (hr : RegsOk s) (t : TileId) (fl : FpFlags) : FpRaised t fl s (s.after (tileFp t fl)) := by
  have a1 := flag_tileErr s t (f := F.tileErr_FP_INVALID) rfl (by decide)
  have b1 := bits_tileErr hr t (f := F.tileErr_FP_INVALID) rfl
  have key : ∀ s : State, RegsOk s → ∀ b : Bool,
      (s.after (actOn b (tileErr t F.tileErr_FP_OVF))).flag (.tileErr t) F.tileErr_FP_OVF = (s.flag (.tileErr t) F.tileErr_FP_OVF || b) ∧
      BitsBut [F.tileErr_FP_OVF.lo] (s.reg (.tileErr t)) ((s.after (actOn b (tileErr t F.tileErr_FP_OVF))).reg (.tileErr t)) := by
    intro s hr b
    cases b
    · exact ⟨by simp, fun _ _ => by simp⟩
    · exact ⟨by simpa using flag_tileErr s t (f := F.tileErr_FP_OVF) rfl (by decide), by simpa using bits_tileErr hr t (f := F.tileErr_FP_OVF) rfl⟩
  simp only [tileFp, after_all_cons, after_all_nil]
  cases hi : fl.inv
  · have e : s.after (actOn false (tileErr t F.tileErr_FP_INVALID)) = s := rfl
    rw [e]
    obtain ⟨k1, k2⟩ := key s hr fl.ovf
    refine ⟨?_, k1, fun i h => k2 i (by simp at h ⊢; omega)⟩
    rw [hi, Bool.or_false]
    exact flag_of_bits (f := F.tileErr_FP_INVALID) rfl (k2 _ (by decide))
  · have e : s.after (actOn true (tileErr t F.tileErr_FP_INVALID)) = s.after (tileErr t F.tileErr_FP_INVALID) := rfl
    rw [e]
    obtain ⟨k1, k2⟩ := key _ (regsOk_tileErr hr t F.tileErr_FP_INVALID) fl.ovf
    refine ⟨?_, ?_, fun i h => (k2 i (by simp at h ⊢; omega)).trans (b1 i (by simp at h ⊢; omega))⟩
    · rw [flag_of_bits (f := F.tileErr_FP_INVALID) rfl (k2 _ (by decide)), a1, hi]; simp
    · rw [k1, flag_of_bits (f := F.tileErr_FP_OVF) rfl (b1 _ (by decide))]

/-- Nothing but TILE_ERR changes. -/
theorem only_tileFp (s : State) (t : TileId) (fl : FpFlags) (c : Scope) (h : c.regs (.tileErr t)) : Only c s (s.after (tileFp t fl)) := by
  have key : ∀ (s : State) (b : Bool) (f : Fld), Only c s (s.after (actOn b (tileErr t f))) := by
    intro s b f
    cases b
    · exact only_refl _ _
    · have hw : Within c s (tileErr t f) := within_setF h
      refine ⟨fun r hr => ?_, fun _ _ => ?_, fun _ _ => ?_, fun p _ => ?_, ?_⟩
      · simp only [after_on, if_true, after_tileErr]
        rw [reg_apply_reg, if_neg]; rintro rfl; exact hr h
      · simp [after_tileErr]
      · simp [after_tileErr]
      · cases p <;> simp [SamePart, after_tileErr]
      · simp [after_tileErr]
  simp only [tileFp, after_all_cons, after_all_nil]
  exact only_trans (key ..) (key ..)

theorem tile_tileFp (s : State) (t u : TileId) (fl : FpFlags) : (s.after (tileFp t fl)).tile u = s.tile u := by
  cases fl with | mk i o => cases i <;> cases o <;> simp [tileFp, after_tileErr]

/-- A vector result with its status bits, from the tile in its beat (R48, R263). -/
theorem vecResult_vx {s : State} {t : TileId} (hr : RegsOk s) (vd : Nat) (tag : Option U64) (r : Line × FpFlags) :
    VecResult t vd tag r s ((s.apply (.tile t (inItsBeat s t))).after (vxResult t vd tag r)) := by
  have e : (s.apply (.tile t (inItsBeat s t))).after (vxResult t vd tag r) =
      (s.apply (.tile t { inItsBeat s t with writes := (s.tile t).writes ++ [.vec vd r.1 tag] })).after (tileFp t r.2) := by
    simp only [vxResult, addWrite, after_all_cons, after_all_nil, after_modTile, tile_apply_tile_same, apply_tile_tile]
    rfl
  rw [e]
  have f := fpRaised_tileFp (regsOk_tile hr t { inItsBeat s t with writes := (s.tile t).writes ++ [.vec vd r.1 tag] }) t r.2
  refine ⟨by rw [tile_tileFp, tile_apply_tile_same], f, only_trans (u := s.apply (.tile t _)) ?_ (only_tileFp _ t r.2 _ rfl)⟩
  exact only_apply rfl (Or.inr fun _ h => h)

/-- A scope may grow. -/
theorem only_mono {c d : Scope} {s u : State} (h : Only c s u) (hr : ∀ r, c.regs r → d.regs r) (ht : ∀ t, c.tiles t → d.tiles t)
    (hm : ∀ a, c.mem a → d.mem a) (hp : ∀ p ∈ c.parts, p ∈ d.parts) : Only d s u :=
  ⟨fun r hn => h.reg r fun k => hn (hr r k), fun t hn => h.tile t fun k => hn (ht t k), fun a hn => h.byte a fun k => hn (hm a k),
    fun p hn => h.part p fun k => hn (hp p k), h.queue⟩

/-- A fault bit of TILE_ERR (R70, R309). -/
theorem tileFaulted_tileFault {s : State} (hr : RegsOk s) (t : TileId) {f : Fld} (h : f.lo = f.hi) (hi : f.lo < 15) : TileFaulted t f s (s.after (tileFault t f)) := by
  have a := flag_tileErr s t h hi
  have b := bits_tileErr hr t h
  have hp : (s.after (tileErr t f)).job = s.job ∧ (s.after (tileErr t f)).flt = s.flt := ⟨rfl, rfl⟩
  simp only [tileFault, after_all_cons, after_all_nil]
  have hl : jobLoaded (s.after (tileErr t f)) = jobLoaded s := jobLoaded_congr hp.1
  have hk : ((s.after (tileErr t f)).after (raiseFault (tileRec t f))).reg (.tileErr t) = (s.after (tileErr t f)).reg (.tileErr t) := by
    cases hj : jobLoaded (s.after (tileErr t f))
    · rw [after_raiseFault_none _ hj]
    · rw [after_raiseFault _ hj]; simp [reg_apply_reg]
  refine ⟨?_, ?_, ?_, fun h => stopping_raiseFault _ _ (by rw [hl]; exact h)⟩
  · have hg : ∀ v u : State, v.reg (.tileErr t) = u.reg (.tileErr t) → v.flag (.tileErr t) f = u.flag (.tileErr t) f := by
      intro v u h; unfold State.flag State.fget; rw [h]
    exact (hg _ _ hk).trans a
  · rw [hk]; exact b
  · intro h
    have := faulted_raiseFault (s.after (tileErr t f)) (tileRec t f) (by rw [hl]; exact h)
    rwa [hp.2] at this

/-- A change of one tile leaves the rest. -/
theorem only_tile (s : State) (t : TileId) (v : Tile) : Only { tiles := (· = t) } s (s.apply (.tile t v)) :=
  only_apply (by exact rfl) (Or.inr fun _ h => h)

end Sys2Proof.Machine
end

