-- ==== Sys2Proof/WellFormed.lean ====
section
/-!
DEFINITION. Which commands are well formed: every operand lies in the range that the rule of its command gives it.
-/
namespace Sys2Proof

/-- The operands of a command lie in their ranges. -/
def Instr.wf : Instr → Bool
  | .droopHoldAssert _ r => decide (r.sensor < 64)
  | .sensorFail _ sensor => decide (sensor < 64)
  | .sensorRetire _ sensor _ => decide (sensor < 64)
  | .vsetAdjust duty => decide (duty < 101)
  | .loopBegin _ arg => decide (arg < 4096)
  | .loopOne _ arg => decide (arg < 4096)
  | .maintBegin _ arg _ _ _ => decide (arg < 4096)
  | .leaf _ _ td areg _ breg _ _ bx _ _ _ => decide (td < 256) && decide (areg < 8) && decide (breg < 8) && decide (bx < 8)
  | .park _ _ td => decide (td < 256)
  | .resume _ _ td => decide (td < 256)
  | .vadd _ vd va vb rmode fmt => decide (vd < 64) && decide (va < 64) && decide (vb < 64) && decide (rmode < 4) && decide (fmt < 16)
  | .vsub _ vd va vb rmode fmt => decide (vd < 64) && decide (va < 64) && decide (vb < 64) && decide (rmode < 4) && decide (fmt < 16)
  | .vmul _ vd va vb rmode fmt => decide (vd < 64) && decide (va < 64) && decide (vb < 64) && decide (rmode < 4) && decide (fmt < 16)
  | .vfma _ vd va vb vc rmode fmt => decide (vd < 64) && decide (va < 64) && decide (vb < 64) && decide (vc < 64) && decide (rmode < 4) && decide (fmt < 16)
  | .vmax _ vd va vb fmt => decide (vd < 64) && decide (va < 64) && decide (vb < 64) && decide (fmt < 16)
  | .vmin _ vd va vb fmt => decide (vd < 64) && decide (va < 64) && decide (vb < 64) && decide (fmt < 16)
  | .vcmp _ vd va vb pred fmt => decide (vd < 64) && decide (va < 64) && decide (vb < 64) && decide (pred < 8) && decide (fmt < 16)
  | .vsel _ vd va vb vc => decide (vd < 64) && decide (va < 64) && decide (vb < 64) && decide (vc < 64)
  | .vcvt _ vd va src fmt rmode _ => decide (vd < 64) && decide (va < 64) && decide (src < 16) && decide (fmt < 16) && decide (rmode < 4)
  | .vqmx _ vd va rmode => decide (vd < 64) && decide (va < 64) && decide (rmode < 4)
  | .exp2 _ vd va => decide (vd < 64) && decide (va < 64)
  | .combine _ vd va vb trm slot => decide (vd < 64) && decide (va < 64) && decide (vb < 64) && decide (trm < 4) && decide (slot < 4)
  | .pass _ vd va _ => decide (vd < 64) && decide (va < 64)
  | .fsAdd _ va ln => decide (va < 64) && decide (ln < 16)
  | .fsRead _ vd ln => decide (vd < 64) && decide (ln < 16)
  | .fsRdclr _ vd ln => decide (vd < 64) && decide (ln < 16)
  | .statsFin _ vd va vb => decide (vd < 64) && decide (va < 64) && decide (vb < 64)
  | .ldv _ bank line _ ix _ reg _ => decide (bank < 32) && decide (line < 512) && decide (ix < 8) && decide (reg < 64)
  | .stv _ bank line _ ix _ reg => decide (bank < 32) && decide (line < 512) && decide (ix < 8) && decide (reg < 64)
  | .ldm _ bank line _ ix _ reg _ => decide (bank < 32) && decide (line < 512) && decide (ix < 8) && decide (reg < 64)
  | .tkv _ bank line _ ix _ reg _ => decide (bank < 32) && decide (line < 512) && decide (ix < 8) && decide (reg < 64)
  | .tkm _ bank line _ ix _ reg _ => decide (bank < 32) && decide (line < 512) && decide (ix < 8) && decide (reg < 64)
  | .std _ bank line _ ix _ _ => decide (bank < 32) && decide (line < 512) && decide (ix < 8)
  | .ixset _ ix line => decide (ix < 8) && decide (line < 512)
  | .fwd _ port mask _ => decide (port < 5) && decide (mask < 32)
  | .recv _ port _ _ ix _ _ => decide (port < 5) && decide (ix < 8)
  | .send _ port _ _ ix _ _ => decide (port < 5) && decide (ix < 8)
  | .addf _ in1 in2 out slot _ _ => decide (in1 < 5) && decide (in2 < 5) && decide (out < 5) && decide (slot < 4)
  | .flitResend _ port _ => decide (port < 5)
  | .set _ handle vreg _ => decide (handle < 256) && decide (vreg < 4)
  | .inc _ handle => decide (handle < 256)
  | .add _ handle vreg _ => decide (handle < 256) && decide (vreg < 4)
  | .waitGe _ handle vreg _ => decide (handle < 256) && decide (vreg < 4)
  | .cgLdkey _ _ slot => decide (slot < 4)
  | .cgXset _ sp => decide (sp < 256)
  | .cgDraw _ sp slot xreg _ code => decide (sp < 256) && decide (slot < 4) && decide (xreg < 8) && decide (code < 4)
  | .svLdkey _ sp slot => decide (sp < 256) && decide (slot < 4)
  | .svPass _ sp xreg _ code => decide (sp < 256) && decide (xreg < 8) && decide (code < 4)
  | .svDraw _ sp slot xreg _ code quarter => decide (sp < 256) && decide (slot < 4) && decide (xreg < 8) && decide (code < 4) && decide (quarter < 4)
  | .svCtxrd _ sp => decide (sp < 256)
  | .feEval _ sp _ _ => decide (sp < 256)
  | .feSeval _ sp _ _ => decide (sp < 256)
  | .pcUpdate _ sp slot => decide (sp < 256) && decide (slot < 4)
  | .pcOhdraw _ sp slot => decide (sp < 256) && decide (slot < 4)
  | .feRot a => decide (a.sp < 256)
  | .feStore _ sp => decide (sp < 256)
  | .feMagclr _ sp => decide (sp < 256)
  | .rsUpdate _ sp slot => decide (sp < 256) && decide (slot < 4)
  | .annealXchgLock _ sp => decide (sp < 256)
  | .annealXchgAsync _ sp => decide (sp < 256)
  | .dmaRd _ sp => decide (sp < 256)
  | .dmaWr _ sp => decide (sp < 256)
  | .hostScatterAdd _ sp => decide (sp < 256)
  | .bxSend _ sp => decide (sp < 256)
  | .bxArrive _ sp => decide (sp < 256)
  | .poolAdmit _ sp _ => decide (sp < 256)
  | .timestampRead _ sp _ => decide (sp < 256)
  | .telemetryRead _ sp => decide (sp < 256)
  | .hbmRefresh _ pc _ _ _ => decide (pc < 64)
  | .pcRemap _ pc => decide (pc < 64)
  | .healthTestFail src _ => decide (src < 3)
  | .conditionedOutput src _ => decide (src < 3)
  | .idleBeat _ => true
  | .stallWatchdogExpiry _ => true
  | .droopHoldRelease _ _ => true
  | .droopStuck _ => true
  | .budgetDivide _ _ _ => true
  | .pacingAdjust _ _ _ _ _ => true
  | .hostCapWrite _ => true
  | .hbmStreamIssue _ => true
  | .hbmStreamElementArrival _ _ => true
  | .next _ => true
  | .loopEnd _ => true
  | .stepEnd _ => true
  | .maintEnd _ => true
  | .halt _ => true
  | .treeNodeForm _ _ => true
  | .drain _ _ _ => true
  | .drainConvert _ _ => true
  | .fsClr _ => true
  | .cgBlockEmerge _ => true
  | .tableTransform _ => true
  | .freshSeed _ _ => true
  | .freshSeedComplete _ => true
  | .sieveDecision _ => true
  | .combRetry _ _ _ => true
  | .hostTimeout _ => true
  | .profileParams _ => true
  | .rsEnergy _ => true
  | .tileSpmDataRead _ => true
  | .tileSpmDataWrite _ _ => true
  | .svcCtrlWrite _ _ => true
  | .svcContextWrite _ _ _ => true
  | .syncCntWrite _ _ => true
  | .poweredOffAccess _ _ _ => true
  | .offaccessClear => true
  | .pairLoRead _ _ => true
  | .pairLoWrite _ _ => true
  | .pairHiWrite _ _ => true
  | .registerWrite _ _ _ _ => true
  | .d2dReplay _ _ _ => true
  | .d2dLinkDown _ _ => true
  | .retrainPend _ => true
  | .hbmFullRetrain _ _ => true
  | .loadImage _ => true
  | .scheduleLoadComplete _ => true
  | .jobLoad _ _ => true
  | .jobLoadComplete => true
  | .jobEnd _ => true
  | .pause _ => true
  | .submit _ => true
  | .post _ => true
  | .stepBoundary _ => true
  | .checkpointComplete _ => true
  | .echoDeliveryResume => true
  | .echoDrainWrite _ => true
  | .echoCtrlWrite _ => true
  | .echoHostFail => true
  | .echoTailWriteback => true
  | .faultRecovery _ _ _ _ => true
  | .rebuildTimeout => true
  | .approve _ _ _ _ => true
  | .decline => true
  | .bist _ => true
  | .hbmRetrainRequest _ => true
  | .sensorRecalibration _ => true
  | .mcWatchdogExpiry _ => true
  | .mcSramUe _ => true
  | .mcRestart => true
  | .governorFallback => true
  | .sqTailDoorbell _ _ _ => true
  | .sqFetch _ _ => true
  | .cqHeadDoorbell _ _ _ => true
  | .cqPost _ => true
  | .sieveAnswer _ _ _ => true
  | .queueEnable _ _ => true
  | .queueDisable _ _ => true
  | .dmaTailWrite _ _ => true
  | .dmaComplete _ => true
  | .dmaRequestTimeout _ => true
  | .echoRing _ => true
  | .ckptHost _ => true
  | .fwPush _ => true
  | .fwCommit _ => true
  | .flashProgramComplete _ => true
  | .fwRestart => true
  | .rebuildDone _ => true
  | .echoSupply _ => true
  | .drbgInput _ => true
  | .unknownCommand _ => true
  | .mbxEvtPop => true
  | .linkDown => true
  | .linkLossPauseTimeout => true
  | .linkReturn _ _ => true
  | .flr => true
  | .configRequest _ _ => true
  | .bar2Write _ _ => true
  | .portDownrate _ _ => true
  | .lldpTransmit _ => true
  | .lldp _ _ _ => true
  | .helloTransmit => true
  | .hello _ _ _ => true
  | .data _ => true
  | .mcast _ => true
  | .barrier _ _ => true
  | .release _ _ => true
  | .releaseTimeReached _ => true
  | .member _ _ => true
  | .joinTimeout => true
  | .memberLostTimeout _ => true
  | .rejoinTimeout _ => true
  | .retransmitTimeout _ _ _ => true
  | .echoSyncSeed _ => true
  | .echoSyncRecover _ => true
  | .ckptReport _ => true
  | .ckptChoice _ => true
  | .echoSyncResume _ => true
  | .ptpMessage _ _ _ _ => true
  | .ppsInEdge _ => true
  | .ppsOutEdge _ => true
  | .pwrEntryRequest _ _ _ => true
  | .agentDelayExpiry _ _ => true
  | .agentAnswerTimeout _ => true
  | .powerCommit _ => true
  | .pwrWakeRequest _ => true
  | .powerGoodTimeout _ => true
  | .wakeTimerExpiry _ => true
  | .idleS1Timeout _ _ => true
  | .idleS2Timeout _ _ => true
  | .hbmTrainingComplete _ => true
  | .pmcsrD3hot _ _ => true
  | .d3hotRequestRepeat _ _ => true
  | .pmcsrD0 _ => true
  | .perstNAssert _ _ => true
  | .perstNDeassert _ _ => true
  | .thermalWarning _ _ => true
  | .thermalWarningClear _ _ => true
  | .thermalLimit _ _ => true
  | .thermalTrip _ _ _ _ => true
  | .inputUndervoltage => true
  | .inputFault _ _ => true
  | .railPowerGoodLoss _ _ => true
  | .refclkLoss _ _ => true
  | .peakClear => true
  | .inputPowerUp _ _ => true
  | .bootPhaseEnd _ _ => true
  | .phaseBoundExpiry _ _ _ => true
  | .start => true
  | .enterRecovery => true
  | .drbgGenerate => true
  | .reseed => true
  | .kat => true
  | .katComplete _ _ => true
  | .lifecycleTransition _ _ => true
  | .lifecycleSelfReset => true
  | .tokenVerify => true
  | .newChallenge => true
  | .debugOpen _ _ => true
  | .debugClose => true
  | .haltTile _ => true
  | .resumeTile _ => true
  | .stepTile _ => true
  | .keyRevoke _ => true
  | .attestationRequest => true
  | .attestationDone => true
  | .tapInstruction _ => true
  | .tapReset => true
  | .readReg _ _ => true
  | .writeReg _ _ _ => true
  | .wake _ => true
  | .status => true
  | .smbusAlertResponse => true
  | .portLinkUp _ _ => true
  | .thermalLimitEnd _ _ => true
  | .stepDigestComplete => true
  | .savedContextWritten => true
  | .selftestResult _ _ _ _ => true
  | .inputPowerLoss => true

end Sys2Proof
end

