-- ==== Sys2Proof/Tests/Slice0.lean ====
section
/-!
SUPPORT. Tests: commands that are not well formed, states and operands that meet the hypotheses of each statement, and single steps whose
results are worked by hand from the rules.
-/
namespace Sys2Proof.Tests

open Machine

set_option Elab.async false

/-! ### Small states -/

/-- The state that a command leaves. -/
def after (i : Instr) (s : State) : State :=
  match exec i s with
  | .next u => u
  | _ => s

/-- S0 after bring-up: READY, with the supplies and PERST_N up. -/
def ready : State := { State.reset with
  regs := [(.bootStatus, 6#32), (.glbStatus, 1#32)]
  pins := { State.reset.pins with inputUp := true, perstN := true } }

/-- A job runs. -/
def running : State := { ready with job := { ready.job with phase := .running } }

/-- A running tile with a record. -/
def tile0 : Tile := { mode := .run, hasRec := true, bfilled := 8, trec := { bundles := 8 } }

/-- A job runs on tile 0. -/
def onTile (τ : Tile) : State := { running with tiles := [(0, τ)] }

/-- A state with a register at a value. -/
def withReg (r : Reg) (v : U32) (s : State) : State := { s with regs := tset s.regs r v }

/-- A tile in which nothing is due is quiet. -/
theorem quiet_of {τ : Tile} (h : τ.pipe = [] ∧ τ.tabq = [] ∧ τ.setA.jobs = [] ∧ τ.setB.jobs = [] ∧ τ.statq = [] ∧ τ.setA.drain = none ∧
    τ.setB.drain = none) : Quiet τ := by
  obtain ⟨a, b, c, d, e, f, g⟩ := h
  constructor <;> simp_all

/-- A job runs live, with a ring of 64 entries. -/
def onEcho (s : State) : State := { s with echo := { s.echo with cap := 64, base := 0x1000 } }

/-- A ring on the module has no tail address in host memory. -/
theorem no_tail {s : State} (h : s.echo.mode ≠ 1) (a : Nat) : ¬ tailByte s a := fun k => h k.1

/-- The Echo log takes the next input when these hold. -/
theorem live_of {s : State} (h : jobLoaded s = true ∧ s.echo.replay = false ∧ s.echo.waiting = [] ∧ s.echo.late = [] ∧
    echoRoom s = .put 0 ∧ s.echo.mode ≠ 1) : Live s :=
  ⟨h.1, h.2.1, h.2.2.1, h.2.2.2.1, h.2.2.2.2.1, fun a k => absurd k (no_tail h.2.2.2.2.2 a)⟩

theorem apart_of {s : State} (h : echoAddr s s.echo.seq + 64 ≤ spaceBase 16 ∧ s.echo.mode ≠ 1) (t : TileId) (a : Nat)
    (k : sourceBytesOf t s a) : ¬ echoSlot s a := by
  have : spaceBase 16 ≤ srcBase s t := by simp only [srcBase, spm, spaceBase]; omega
  rintro (e | e)
  · have := h.1
    simp only [sourceBytesOf, entryByte] at *; omega
  · exact no_tail h.2 a e

theorem slots_apart {s : State} {n b : Nat} (k : Nat) (h : ∀ i < n, echoAddr s (s.echo.seq + i) + 64 ≤ k) (hb : k ≤ b) : ¬ echoSlots n s b := by
  rintro ⟨i, hi, _, up⟩
  have := h i hi
  omega

/-- A request of queue 2. -/
def req : Request := { queue := 2, cid := 4, head := 0, tag := 0, last := true, ctx := 0, prefixId := 0 }

/-- The digest of no bytes is not 0. -/
theorem sha3_nil : sha3 [] ≠ 0 := by decide +kernel

/-! ### Commands that are not well formed -/

theorem test_wf_refuses_0 : ([
    .droopHoldAssert 0 ⟨64, 0⟩, .sensorFail 0 64, .sensorRetire 0 64 0, .vsetAdjust 101, .loopBegin 0 4096, .loopOne 0 4096,
    .maintBegin 0 4096 false ⟨false, 0⟩ [], .leaf 0 false 256 0 false 0 false false 0 false false false,
    .leaf 0 false 0 8 false 0 false false 0 false false false, .leaf 0 false 0 0 false 8 false false 0 false false false,
    .leaf 0 false 0 0 false 0 false false 8 false false false, .park 0 false 256, .resume 0 false 256, .vadd 0 64 0 0 0 0,
    .vadd 0 0 64 0 0 0, .vadd 0 0 0 64 0 0, .vadd 0 0 0 0 4 0, .vadd 0 0 0 0 0 16, .vsub 0 64 0 0 0 0, .vsub 0 0 64 0 0 0,
    .vsub 0 0 0 64 0 0, .vsub 0 0 0 0 4 0, .vsub 0 0 0 0 0 16, .vmul 0 64 0 0 0 0] : List Instr).all (fun i => !i.wf) = true := by decide

theorem test_wf_refuses_1 : ([
    .vmul 0 0 64 0 0 0, .vmul 0 0 0 64 0 0, .vmul 0 0 0 0 4 0, .vmul 0 0 0 0 0 16, .vfma 0 64 0 0 0 0 0, .vfma 0 0 64 0 0 0 0,
    .vfma 0 0 0 64 0 0 0, .vfma 0 0 0 0 64 0 0, .vfma 0 0 0 0 0 4 0, .vfma 0 0 0 0 0 0 16, .vmax 0 64 0 0 0, .vmax 0 0 64 0 0,
    .vmax 0 0 0 64 0, .vmax 0 0 0 0 16, .vmin 0 64 0 0 0, .vmin 0 0 64 0 0, .vmin 0 0 0 64 0, .vmin 0 0 0 0 16, .vcmp 0 64 0 0 0 0,
    .vcmp 0 0 64 0 0 0, .vcmp 0 0 0 64 0 0, .vcmp 0 0 0 0 8 0, .vcmp 0 0 0 0 0 16, .vsel 0 64 0 0 0] : List Instr).all (fun i => !i.wf) = true := by decide

theorem test_wf_refuses_2 : ([
    .vsel 0 0 64 0 0, .vsel 0 0 0 64 0, .vsel 0 0 0 0 64, .vcvt 0 64 0 0 0 0 false, .vcvt 0 0 64 0 0 0 false, .vcvt 0 0 0 16 0 0 false,
    .vcvt 0 0 0 0 16 0 false, .vcvt 0 0 0 0 0 4 false, .vqmx 0 64 0 0, .vqmx 0 0 64 0, .vqmx 0 0 0 4, .exp2 0 64 0, .exp2 0 0 64,
    .combine 0 64 0 0 0 0, .combine 0 0 64 0 0 0, .combine 0 0 0 64 0 0, .combine 0 0 0 0 4 0, .combine 0 0 0 0 0 4, .pass 0 64 0 0,
    .pass 0 0 64 0, .fsAdd 0 64 0, .fsAdd 0 0 16, .fsRead 0 64 0, .fsRead 0 0 16] : List Instr).all (fun i => !i.wf) = true := by decide

theorem test_wf_refuses_3 : ([
    .fsRdclr 0 64 0, .fsRdclr 0 0 16, .statsFin 0 64 0 0, .statsFin 0 0 64 0, .statsFin 0 0 0 64, .ldv 0 32 0 false 0 false 0 {},
    .ldv 0 0 512 false 0 false 0 {}, .ldv 0 0 0 false 8 false 0 {}, .ldv 0 0 0 false 0 false 64 {}, .stv 0 32 0 false 0 false 0,
    .stv 0 0 512 false 0 false 0, .stv 0 0 0 false 8 false 0, .stv 0 0 0 false 0 false 64, .ldm 0 32 0 false 0 false 0 {},
    .ldm 0 0 512 false 0 false 0 {}, .ldm 0 0 0 false 8 false 0 {}, .ldm 0 0 0 false 0 false 64 {}, .tkv 0 32 0 false 0 false 0 {},
    .tkv 0 0 512 false 0 false 0 {}, .tkv 0 0 0 false 8 false 0 {}, .tkv 0 0 0 false 0 false 64 {}, .tkm 0 32 0 false 0 false 0 {},
    .tkm 0 0 512 false 0 false 0 {}, .tkm 0 0 0 false 8 false 0 {}] : List Instr).all (fun i => !i.wf) = true := by decide

theorem test_wf_refuses_4 : ([
    .tkm 0 0 0 false 0 false 64 {}, .std 0 32 0 false 0 false false, .std 0 0 512 false 0 false false, .std 0 0 0 false 8 false false,
    .ixset 0 8 0, .ixset 0 0 512, .fwd 0 5 0 false, .fwd 0 0 32 false, .recv 0 5 false 0 0 false false, .recv 0 0 false 0 8 false false,
    .send 0 5 false 0 0 false {}, .send 0 0 false 0 8 false {}, .addf 0 5 0 0 0 false false, .addf 0 0 5 0 0 false false,
    .addf 0 0 0 5 0 false false, .addf 0 0 0 0 4 false false, .flitResend 0 5 false, .set 0 256 0 false, .set 0 0 4 false, .inc 0 256,
    .add 0 256 0 false, .add 0 0 4 false, .waitGe 0 256 0 false, .waitGe 0 0 4 false] : List Instr).all (fun i => !i.wf) = true := by decide

theorem test_wf_refuses_5 : ([
    .cgLdkey 0 0 4, .cgXset 0 256, .cgDraw 0 256 0 0 false 0, .cgDraw 0 0 4 0 false 0, .cgDraw 0 0 0 8 false 0, .cgDraw 0 0 0 0 false 4,
    .svLdkey 0 256 0, .svLdkey 0 0 4, .svPass 0 256 0 false 0, .svPass 0 0 8 false 0, .svPass 0 0 0 false 4, .svDraw 0 256 0 0 false 0 0,
    .svDraw 0 0 4 0 false 0 0, .svDraw 0 0 0 8 false 0 0, .svDraw 0 0 0 0 false 4 0, .svDraw 0 0 0 0 false 0 4, .svCtxrd 0 256,
    .feEval 0 256 0 0, .feSeval 0 256 0 0, .pcUpdate 0 256 0, .pcUpdate 0 0 4, .pcOhdraw 0 256 0, .pcOhdraw 0 0 4, .feRot ⟨0, 256⟩] : List Instr).all (fun i => !i.wf) = true := by decide

theorem test_wf_refuses_6 : ([
    .feStore 0 256, .feMagclr 0 256, .rsUpdate 0 256 0, .rsUpdate 0 0 4, .annealXchgLock 0 256, .annealXchgAsync 0 256, .dmaRd 0 256,
    .dmaWr 0 256, .hostScatterAdd 0 256, .bxSend 0 256, .bxArrive 0 256, .poolAdmit 0 256 0, .timestampRead 0 256 0,
    .telemetryRead 0 256, .hbmRefresh 0 64 0 [] [], .pcRemap 0 64, .healthTestFail 3 [], .conditionedOutput 3 0] : List Instr).all (fun i => !i.wf) = true := by decide

theorem test_wf_allows_0 : ([
    .droopHoldAssert 0 ⟨63, 0⟩, .sensorFail 0 63, .sensorRetire 0 63 0, .vsetAdjust 100, .loopBegin 0 4095, .loopOne 0 4095,
    .maintBegin 0 4095 false ⟨false, 0⟩ [], .leaf 0 false 255 7 false 7 false false 7 false false false, .park 0 false 255,
    .resume 0 false 255, .vadd 0 63 63 63 3 15, .vsub 0 63 63 63 3 15, .vmul 0 63 63 63 3 15, .vfma 0 63 63 63 63 3 15,
    .vmax 0 63 63 63 15, .vmin 0 63 63 63 15, .vcmp 0 63 63 63 7 15, .vsel 0 63 63 63 63, .vcvt 0 63 63 15 15 3 false, .vqmx 0 63 63 3,
    .exp2 0 63 63, .combine 0 63 63 63 3 3, .pass 0 63 63 0, .fsAdd 0 63 15, .fsRead 0 63 15, .fsRdclr 0 63 15, .statsFin 0 63 63 63,
    .ldv 0 31 511 false 7 false 63 {}, .stv 0 31 511 false 7 false 63, .ldm 0 31 511 false 7 false 63 {}] : List Instr).all Instr.wf = true := by decide

theorem test_wf_allows_1 : ([
    .tkv 0 31 511 false 7 false 63 {}, .tkm 0 31 511 false 7 false 63 {}, .std 0 31 511 false 7 false false, .ixset 0 7 511,
    .fwd 0 4 31 false, .recv 0 4 false 0 7 false false, .send 0 4 false 0 7 false {}, .addf 0 4 4 4 3 false false, .flitResend 0 4 false,
    .set 0 255 3 false, .inc 0 255, .add 0 255 3 false, .waitGe 0 255 3 false, .cgLdkey 0 0 3, .cgXset 0 255, .cgDraw 0 255 3 7 false 3,
    .svLdkey 0 255 3, .svPass 0 255 7 false 3, .svDraw 0 255 3 7 false 3 3, .svCtxrd 0 255, .feEval 0 255 0 0, .feSeval 0 255 0 0,
    .pcUpdate 0 255 3, .pcOhdraw 0 255 3, .feRot ⟨0, 255⟩, .feStore 0 255, .feMagclr 0 255, .rsUpdate 0 255 3, .annealXchgLock 0 255,
    .annealXchgAsync 0 255] : List Instr).all Instr.wf = true := by decide

theorem test_wf_allows_2 : ([
    .dmaRd 0 255, .dmaWr 0 255, .hostScatterAdd 0 255, .bxSend 0 255, .bxArrive 0 255, .poolAdmit 0 255 0, .timestampRead 0 255 0,
    .telemetryRead 0 255, .hbmRefresh 0 63 0 [] [], .pcRemap 0 63, .healthTestFail 2 [], .conditionedOutput 2 0] : List Instr).all Instr.wf = true := by decide


/-! ### States and operands that meet the hypotheses -/

theorem witness_FrontCommandRuns : ({ ready with pending := [.start, .kat] } : State).pending = Instr.start :: [.kat] := rfl

theorem witness_EmptyQueueOnlyEndsAnExit : State.reset.pending = [] ∧ State.reset.pwr.exiting = false := by decide

theorem witness_NoCommandTouchesTheQueue : exec .start State.reset = .next (after .start State.reset) := rfl

theorem witness_EveryStepKeepsReservedBitsAndMemoryForm : Inv ready ∧ step ready = .next ready :=
  ⟨by simp only [Inv, MemOk, RegsOk]; decide, rfl⟩

theorem witness_OneTimeMemoryOnlyGains : step State.reset = .next State.reset := rfl

/-- Tile 0 in a beat: outside loops, at the start of its innermost loop, and elsewhere in one. -/
theorem witness_ControlSlotMovesTheTile :
    (∀ s ∈ [onTile tile0, onTile { tile0 with loops := [(0, 2)] }, onTile { tile0 with bpos := 3, loops := [(1, 1)] }],
      canAct s 0 = true ∧ Settled s ∧ (s.tile 0).pipe = []) ∧
    Quiet ((onTile tile0).tile 0) ∧ (landed (inItsBeat (onTile tile0) 0)).loops = [] := by
  refine ⟨?_, quiet_of (by decide), by decide⟩
  simp only [Settled]; decide

def maintImg : Image := { maint := [{ slot := 1, length := 64, tasks := 6 }] }

def onMaint : State := { onTile tile0 with job := { running.job with img := maintImg } }

theorem witness_StepEndCountsAndMaintenanceRuns :
    (canAct onMaint 0 = true ∧ Settled onMaint ∧ (onMaint.tile 0).step + 1 < 2 ^ 48 ∧ onMaint.flt.mcAbsent = false ∧ jobLoaded onMaint = true ∧
      (∀ p ∈ [(0, 3, ({} : Ecc))], p.2.2 = {} ∧ tfind (onMaint.tile 0).upset (lineKey p.1 p.2.1) = none) ∧
      (maintOf onMaint 1).tasks.testBit 1 = true ∧ (maintOf onMaint 1).tasks.testBit 2 = true ∧ 64 ≤ (maintOf onMaint 1).length) ∧
    (∀ s ∈ [onTile { tile0 with step := 2 ^ 48 - 1 }], canAct s 0 = true ∧ Settled s ∧ 2 ^ 48 ≤ (s.tile 0).step + 1 ∧ jobLoaded s = true) := by
  simp only [Settled]; decide

theorem witness_VectorArithmeticRoundsEachLaneOnce : canAct (onTile tile0) 0 = true ∧ RegsOk (onTile tile0) := by
  simp only [RegsOk]; decide

/-- Two sibling partials of level 0 in registers 1 and 2, of an INT8 site 5. -/
def intImg : Image := { recs := [{ tds := [{ site := 5, fmtA := 7 }] }], sites := [{ site := 5 }] }

/-- The site of the first two keeps statistics at the tile. -/
def partials : Tile := { tile0 with trec := { tile0.trec with tds := [{ site := 3, stats := true }] }, vtag := [(1, mkTag false 0 2 0 3), (2, mkTag false 0 3 0 3), (3, mkTag false 0 2 0 5), (4, mkTag false 0 3 0 5)] }
def intPartials : State := { onTile partials with job := { running.job with img := intImg } }

theorem witness_PartialsCombineOnlyAsSiblings :
    canAct intPartials 0 = true ∧ RegsOk intPartials ∧
    combineParent ((partials.tag 1).getD 0) ((partials.tag 1).getD 0) 0 = none ∧
    combineParent ((partials.tag 1).getD 0) ((partials.tag 2).getD 0) 0 = some 1 ∧ siteInt intPartials 3 = false ∧
    combineParent ((partials.tag 3).getD 0) ((partials.tag 4).getD 0) 0 = some 1 ∧ siteInt intPartials 5 = true ∧
    (partials.tag 1).map (fun g => (statsTd partials g).isSome) = some true ∧ (partials.tag 3).bind (statsTd partials) = none ∧
    passParent ((partials.tag 2).getD 0) 1 = none ∧ passParent ((partials.tag 1).getD 0) 0 = some 1 := by
  simp only [RegsOk]; decide

/-- A partial region of four lines from line 8 of bank 1, tags in bank 2; a FULL line 3 of bank 0; a slack buffer in bank 4. -/
def lsTile : Tile := { tile0 with
  full := [lineKey 0 3], trec := { tile0.trec with partBank := 1, partLine := 8, partLines := 4, tagBank := 2 } }
def lsState : State := { onTile lsTile with job := { running.job with img := { streams := [{ tile := 0, bufBank := 4, bufNbanks := 1, bufLines := 2 }] } } }

theorem witness_LoadsAndStoresActOnTheLineTheyResolve :
    canAct lsState 0 = true ∧ RegsOk lsState ∧ MemOk lsState ∧ TagRight (withHit lsTile (lineKey 1 8) {}) 1 8 ∧
    ¬ TagRight (withHit lsTile (lineKey 2 0) { ue := 1 }) 1 8 ∧ inBuffer lsState 0 4 1 = true ∧ inBuffer lsState 0 4 2 = false ∧
    partPos lsTile.trec 1 8 = some 0 ∧ partPos lsTile.trec 1 11 = some 3 ∧ partPos lsTile.trec 1 12 = none ∧
    lsTile.full.contains (lineKey 0 (lsLine lsTile 3 false 0)) = true ∧ lsTile.full.contains (lineKey 0 (lsLine lsTile 4 false 0)) = false := by
  refine ⟨by decide, by simp only [RegsOk]; decide, by simp only [MemOk]; decide, ?_, ?_, by decide⟩
  · exact fun p _ => ⟨BitVec.getLsbD_zero (i := p % 8), BitVec.getLsbD_zero (i := p % 8)⟩
  · intro h; exact absurd (h 0 (by decide)).2 (by decide)

/-- Sibling partials wait on ports 1 and 2, unrelated ones on 1 and 3; port 4 holds a flit with a parity error. -/
def nwTile : Tile := { tile0 with
  inbox := [(1, [{ data := 7, tag := some (mkTag false 0 2 0 5) }]), (2, [{ data := 9, tag := some (mkTag false 0 3 0 5) }]),
    (3, [{ data := 1, tag := some (mkTag false 0 2 0 5) }]), (4, [{ data := 2 }])]
  badPort := [4] }
def nwState : State := { onTile nwTile with job := { running.job with img := intImg } }

/-- A RECV of the beat waits for the flit of port 4. -/
def nwWaits : State := { nwState with tiles := [(0, { nwTile with waits := [.recv 4 (.vec 2)] })] }

theorem witness_NetworkSlotsMoveFlits :
    canAct nwState 0 = true ∧ Settled nwState ∧ RegsOk nwState ∧ MemOk nwState ∧
    (headFlit nwState 0 1).isSome = true ∧ (headFlit nwState 0 2).isSome = true ∧ headFlit nwState 0 0 = none ∧ headFlit nwState 0 4 = none ∧
    combineParent (mkTag false 0 2 0 5) (mkTag false 0 2 0 5) (tagTrm (mkTag false 0 2 0 5)) = none ∧
    (combineLines nwState 0 0 7 (mkTag false 0 2 0 5) 9 (mkTag false 0 3 0 5)).isSome = true ∧
    nwTile.badPort.contains 4 = true ∧ tget nwTile.inbox [] 4 ≠ [] ∧ jobLoaded nwState = true ∧ accepts nwState 0 1 = true ∧
    RegsOk nwWaits ∧ (∀ p ∈ nwWaits.tiles, p.1 ≠ 0 → p.2.waits = [] ∧ p.2.ctl = none) ∧ (nwWaits.tile 0).waits = [.recv 4 (.vec 2)] ∧
    (nwWaits.tile 0).ctl = none ∧ tget (nwWaits.tile 0).inbox [] 4 = [{ data := 2 }] := by
  simp only [Settled, RegsOk, MemOk]; decide +kernel

/-- Handle 0 is counter 9; value register 1 holds 3, register 2 holds 5. -/
def syTile : Tile := { tile0 with trec := { tile0.trec with handles := [9], svInit := [0, 3, 5] } }
def sySt (n : U32) : State := withReg (.syncCnt 9) n (onTile syTile)

theorem witness_SyncSlotChangesItsCounter :
    canAct (sySt 4) 0 = true ∧ Settled (sySt 4) ∧ handleOf syTile 0 = 9 ∧ ((sySt 4).reg (.syncCnt 9)).toNat + 1 < 2 ^ 32 ∧
    ((sySt 4).reg (.syncCnt 9)).toNat + (syTile.svreg 1).toNat % 2 ^ 16 < 2 ^ 32 ∧ barrierReady (sySt 4) = none ∧
    (∀ b ∈ (sySt 4).net.barriers, BitVec.ofNat 13 b.desc.counter ≠ handleOf syTile 0) ∧
    (syTile.svreg 1).toNat ≤ ((sySt 4).reg (.syncCnt 9)).toNat ∧ ((sySt 4).reg (.syncCnt 9)).toNat < (syTile.svreg 2).toNat := by
  simp only [Settled]; decide

theorem witness_SyncCounterPastItsTopSaturates :
    canAct (sySt 0xFFFFFFFF) 0 = true ∧ 2 ^ 32 ≤ ((sySt 0xFFFFFFFF).reg (.syncCnt 9)).toNat + 1 ∧ barrierReady (sySt 0xFFFFFFFF) = none ∧
    (∀ b ∈ (sySt 0xFFFFFFFF).net.barriers, BitVec.ofNat 13 b.desc.counter ≠ handleOf syTile 0) ∧
    2 ^ 32 ≤ ((sySt 0xFFFFFFFD).reg (.syncCnt 9)).toNat + (syTile.svreg 1).toNat % 2 ^ 16 ∧ jobLoaded (sySt 0xFFFFFFFF) = true ∧
    ((sySt 0xFFFFFFFC).reg (.syncCnt 9)).toNat + (syTile.svreg 1).toNat % 2 ^ 16 = 0xFFFFFFFF ∧ canAct (sySt 0xFFFFFFFC) 0 = true ∧
    Settled (sySt 0xFFFFFFFC) ∧ barrierReady (sySt 0xFFFFFFFC) = none := by
  simp only [Settled]; decide

theorem witness_SetWhileWaitPendingIsARace :
    ∀ s ∈ [({ running with tiles := [(0, syTile), (1, { tile0 with waits := [.ge 9 1] })] } : State)],
      canAct s 0 = true ∧ waitPending s (handleOf (s.tile 0) 0) = true ∧ barrierReady s = none ∧ jobLoaded s = true := by decide

/-- One tree for each leaf length: FP8 (format 3) with one and two leaves, FP4 (6), FP32 or BF16 (1), INT8 (7). -/
def mxTile : Tile := { tile0 with trec := { tile0.trec with tds := [{ fmtA := 3 }, { fmtA := 3, leaves := 2 }, { fmtA := 7 }] } }

theorem witness_LeafTakesTheNextPositionOfItsTree :
    canAct (onTile mxTile) 0 = true ∧ MemOk (onTile mxTile) ∧ (true && (tdOf mxTile 0).preload) = false ∧
    (List.range 16).map halfLen = [8, 4, 4, 8, 8, 16, 8, 8, 8, 8, 8, 8, 8, 8, 8, 8] ∧
    topLevel (tdOf mxTile 0) = 0 ∧ topLevel (tdOf mxTile 1) ≠ 0 ∧ lastLeaf (tdOf mxTile 1) ≠ 0 := by
  simp only [MemOk]; decide

/-- A set with a node due, one whose root waits for its drain, and a parked one. -/
def nodeTile : Tile := { tile0 with
  beat := 20
  setA := { isOpen := true, td := { leaves := 2 }, jobs := [{ due := 20, level := 1, idx := 0, left := some 0, right := 0, pass := false }] }
  setB := { isOpen := true, td := { leaves := 2, outFmt := 0 }, root := some (1, 0), drain := some { stats := false, issued := 4 } }
  parked := [(3, {})] }
def splitTile : Tile := { nodeTile with setB := { nodeTile.setB with td := { leaves := 2, split := true, fast := true } } }

theorem witness_TreesFormDrainAndPark :
    canAct (onTile nodeTile) 0 = true ∧ MemOk (onTile nodeTile) ∧
    (∀ j ∈ nodeTile.setA.jobs, j.due ≤ nodeTile.beat ∧ j.pass = false ∧ j.left = some 0 ∧ j.level = topLevel nodeTile.setA.td) ∧
    nodeTile.setB.jobs = [] ∧ nodeTile.setB.root = some (1, 0) ∧ nodeTile.setB.drain = some { stats := false, issued := 4 } ∧
    4 + topLevel nodeTile.setB.td ≤ nodeTile.beat ∧ (nodeTile.setB.td.split || nodeTile.setB.td.fast) = false ∧
    (fmtWrite nodeTile.setB.td.outFmt .rne false (.fin false 0 0)).isSome = true ∧
    canAct (onTile splitTile) 0 = true ∧ (splitTile.setB.td.split || splitTile.setB.td.fast) = true ∧
    (tfind nodeTile.parked 3).isSome = true := by
  simp only [MemOk]; decide +kernel

/-- Seed entry 3 is valid; a block and a tabled draw are due. -/
def cgTile : Tile := { tile0 with
  beat := 20, trec := { tile0.trec with spds := [{ sub := 1 }, { sub := 2 }] }
  pipe := [{ beat := 10, seed := 5, ctr := 6, kind := 1, thr := 0, vreg := 0, lane0 := 0 }]
  tabq := [{ beat := 9, kind := (List.range 16).find? (fun k => ((DrawKind.ofCode k).bind DrawKind.table).isSome) |>.getD 0, vreg := 0, lane0 := 0, u24 := [0] }] }
def cgState : State := withReg (.cgsStatus 0) 8 (onTile cgTile)
def freshState : State := withReg (.cgsPending 0) 4
  (onEcho { running with tiles := [(0, { tile0 with waits := [.fresh 2] })], job := { running.job with fresh := [(2, 77)] } })

theorem witness_CounterGeneratorDrawsAndSeeds :
    canAct cgState 0 = true ∧ seedValid cgState (dieOf 0) 3 = true ∧ seedValid cgState (dieOf 0) 4 = false ∧
    (DrawKind.ofCode (spdOf cgTile 0).sub).isSome = true ∧ (DrawKind.ofCode (spdOf cgTile 1).sub).isSome = true ∧
    (∀ i ∈ cgTile.pipe, i.beat + 10 ≤ cgTile.beat ∧ (DrawKind.ofCode i.kind).isSome = true) ∧
    (∀ i ∈ cgTile.tabq, i.beat + 11 ≤ cgTile.beat ∧ ((DrawKind.ofCode i.kind).bind DrawKind.table).isSome = true) ∧
    cgTile.pipe.length = 1 ∧ cgTile.tabq.length = 1 ∧
    cgState.echo.replay = false ∧ cgState.job.rank = 0 ∧ cgState.ent.alarm = false ∧ jobLoaded cgState = true ∧ Settled cgState ∧
    ({ cgState with ent := { cgState.ent with alarm := true } } : State).ent.alarm = true ∧
    MemOk freshState ∧ freshState.job.rank = 0 ∧ freshState.job.count = 1 ∧
    bitOf (freshState.reg (.cgsPending 0)) (2#4).toNat = true ∧ freshState.job.fresh = [((2#4).toNat, 77)] ∧
    (∀ p ∈ freshState.tiles, p.2.ctl = none ∧ (p.2.waits = [] ∨ p.2.waits = [.fresh (2#4).toNat])) ∧ Live freshState := by
  have h : Live freshState := live_of (by decide)
  simp only [h, and_true, Settled, MemOk]; decide +kernel

def rowState : State := { onTile tile0 with rows := [(0, { len := 32 })] }

theorem witness_SieveSlotsFeedTheRow :
    (∀ s ∈ [onTile tile0, rowState], canAct s 0 = true) ∧ ((onTile tile0).row (BitVec.ofNat 9 (spdOf tile0 0).p0)).len = 0 ∧
    (rowState.row (BitVec.ofNat 9 (spdOf tile0 0).p0)).len ≠ 0 ∧ RegsOk (onTile tile0) ∧ RegsOk rowState := by
  simp only [RegsOk]; decide +kernel

def score0 : Score := { pass := 8, tile := 0, i := 0, y := 0x3F800000, excl := false, bad := false, key := 0x40000000 }

/-- Stream 1 has a complete row of one good score in mode `m`; in `poor` its one score is bad; stream 2 waits for the host. -/
def drawn (m : Nat) : State := withReg (.svcTopP 1) 0x3F800000 <| withReg (.svcCtrl 1) 1 { running with
  rows := [(1, { len := 1, fset := 1, mode := m, scores := [score0] })] }
def poor : State := { running with rows := [(1, { len := 1, scores := [{ score0 with bad := true }] })] }
def hostWait : State := withReg (.svcHostTmo 2) 5 (withReg (.svcCtrl 2) (F.svcCtrl_STATE.put 0 2) (onEcho { running with rows := [(2, { len := 1, decided := true })] }))

theorem witness_SieveDecidesAndAnswersComeBack :
    (∀ m ∈ [0, 2], Settled (drawn m) ∧ rowReady ((drawn m).row 1) = true ∧ ((drawn m).row 1).decided = false ∧ 0 < ((drawn m).row 1).len ∧
      (decideRow (drawn m) 1 ((drawn m).row 1)).status = 0 ∧ ((drawn m).row 1).mode = m ∧ (drawn m).echo.replay = false ∧ MemOk (drawn m) ∧
      jobLoaded (drawn m) = true) ∧
    Settled poor ∧ rowReady (poor.row 1) = true ∧ (poor.row 1).decided = false ∧ (decideRow poor 1 (poor.row 1)).status ≠ 0 ∧
    Settled hostWait ∧ hostWait.fget (.svcCtrl 2) F.svcCtrl_STATE = 2 ∧ (hostWait.row 2).decided = true ∧ hostWait.fget (.svcHostTmo 2) F.svcHostTmo_MS ≠ 0 ∧
    MemOk hostWait ∧ Live hostWait := by
  have h : Live hostWait := live_of (by decide)
  simp only [h, and_true, Settled, MemOk]; decide +kernel

/-- Three resident entries; stream 7 of the ledger with its header line and two lines of entries in bank 4. -/
def feTile : Tile := { tile0 with
  trec := { tile0.trec with spds := [{ p2 := 0xFFFF, p1 := 1 }, { p0 := 7, p2 := 0xFFFF, p1 := 1 }] }
  fe := { units := [(0, {})], entries := [{ tgt := 0, src := 0, m := 3, xe := 94 }] } }
def feStream : StreamDesc := { id := 7, tile := 0, bufBank := 4, bufNbanks := 1, bufLines := 33 }
def feState (full : List Nat) : State := { onTile { feTile with full := full } with job := { running.job with img := { streams := [feStream] } } }

theorem witness_LedgerEntriesAddToFields :
    canAct (feState []) 0 = true ∧ RegsOk (feState []) ∧
    ((feTile.fe.entries.drop (spdOf feTile 0).p0).take 16).zipIdx.filter (fun p => (spdOf feTile 0).p2.testBit p.2 && (1#16).getLsbD p.2) ≠ [] ∧
    streamOf (feState []) (spdOf feTile 1).p0 = some feStream ∧ tget feTile.fe.spos (0, 94, 0) 7 = (0, 94, 0) ∧
    (let s := feState [lineKey 4 0, lineKey 4 1, lineKey 4 2]
     canAct s 0 = true ∧ ∀ n ∈ [0, 1, 2], (s.tile 0).full.contains (lineKey (bufferSlot feStream n).1 (bufferSlot feStream n).2) = true ∧
       tget (s.tile 0).upset {} (lineKey (bufferSlot feStream n).1 (bufferSlot feStream n).2) = {}) ∧
    ((feState []).tile 0).full.contains (lineKey (bufferSlot feStream 0).1 (bufferSlot feStream 0).2) = false := by
  simp only [RegsOk]; decide +kernel

/-- Beta is 1 in register 0, -1 in register 1. Unit 0 stands alone, units 1 and 2 form group 1. -/
def pcTile : Tile := { tile0 with
  vr := [(1, 0xBF800000)]
  trec := { tile0.trec with spds := [{ p0 := 1, p1 := 1 }, { p0 := 6 }, { p0 := 1, vreg := 1 }] }
  fe := { units := [(0, { var := 0 }), (1, { var := 1, group := 1 }), (2, { var := 2, group := 1 })], srcs := [(0, 0), (0, 1)] } }
def pcState : State := onTile pcTile

theorem witness_PercolatorUpdatesDrawStates :
    canAct pcState 0 = true ∧ RegsOk pcState ∧ MemOk pcState ∧ jobLoaded pcState = true ∧ betaOk (lane (pcTile.vreg 0) 0) = true ∧
    betaOk (lane (pcTile.vreg (spdOf pcTile 2).vreg) 0) = false ∧ (pcTile.fe.units.map Prod.fst).Nodup ∧
    (∀ p ∈ pcTile.fe.units, ∀ q ∈ pcTile.fe.units, p.2.chain = q.2.chain → p.2.var = q.2.var → p.1 = q.1) ∧
    (updateUnits pcTile (spdOf pcTile 0)).map Prod.fst = [0] ∧ (∀ p ∈ updateUnits pcTile (spdOf pcTile 0), p.2.group = 0) ∧
    (((updateUnits pcTile (spdOf pcTile 1)).filter fun p => p.2.group ≠ 0).head?).isSome = true ∧
    (groupWinner ((pcTile.fe.units.filter fun p => p.2.group = 1).map fun p =>
      (p.1, p.2.var, groupKey pcTile (spdOf pcTile 1) 0 0x3F800000 p.2))).isSome = true ∧
    groupWinner [(1, 1, 0x3F800000), (2, 2, 0x40000000)] = some (2, 2, 0x40000000) ∧
    groupWinner [(1, 2, 0x3F800000), (2, 1, 0x3F800000)] = some (2, 1, 0x3F800000) ∧
    pcTile.fe.srcs.findIdx? (· = (0, 1)) = some 1 := by
  simp only [RegsOk, MemOk]; decide +kernel

/-- A rotation table of two blocks; no tile holds a part of block 1, and its digest is that of no bytes.  `changed` expects another. -/
def rotState : State := { onTile { pcTile with trec := { pcTile.trec with spds := [{ p1 := 7 }, { sub := 1, p1 := 7 }, { sub := 2, p1 := 7 }] } } with
  job := { running.job with
    img := { fe := { nvar := 4, rotation := [(1, 0), (2, 0)], places := [{ tile := 0, unit := 0, var := 0, block := 1 }] } }
    fe := { blocks := [((0, 1), {})] } } }
def changed : State := { rotState with job := { rotState.job with fe := { digests := [(1, 0)] } } }

theorem witness_FieldStateRotatesAndIsReadOut :
    (∀ s ∈ [rotState, changed, onTile tile0], canAct s 0 = true ∧ MemOk s) ∧ (onTile tile0).job.img.fe.rotation = [] ∧
    rotState.job.img.fe.rotation ≠ [] ∧ jobLoaded rotState = true ∧
    (∀ d ∈ [0, 1, 2], (∀ p ∈ storeUnits (rotState.tile 0) (spdOf (rotState.tile 0) d), p.2.var < rotState.job.img.fe.nvar) ∧
      ∀ p ∈ storeUnits (rotState.tile 0) (spdOf (rotState.tile 0) d), ∀ q ∈ storeUnits (rotState.tile 0) (spdOf (rotState.tile 0) d),
        p.2.var = q.2.var → p.2.chain = q.2.chain → p.1 = q.1) ∧
    (rotState.job.img.fe.rotation.getD ((rotState.tile 0).fe.entered 2 % 2) (0, 0)).1 = 1 ∧
    (∀ s ∈ [rotState, changed], blockForm (s.after (writeOutgoing 0 0)) 1 = []) ∧
    tget rotState.job.fe.digests (sha3 []) 1 = sha3 [] ∧ sha3 [] ≠ tget changed.job.fe.digests (sha3 []) 1 := by
  refine ⟨?_, ?_, ?_, ?_, ?_, ?_, ?_, rfl, sha3_nil⟩ <;> (try simp only [MemOk]) <;> decide +kernel

/-- Unit 0 moves; in `hot` its base is so large that the result is not finite. -/
def rsTile (base : Int) : Tile := { tile0 with
  trec := { tile0.trec with ends := true, spds := [{ p0 := 1, p1 := 1 }] }
  fe := { units := [(0, { base := base, acc := base })], srcs := [(0, 0)] } }
def rsImg (traceInt : Nat) : Image := { fe := { mode := 2, nvar := 1, roaster := { a0 := 0x3F800000, dt := 0x3F800000, traceInt := traceInt, traceCap := 4 } } }
def rsState (base : Int) (traceInt : Nat) : State := { onTile (rsTile base) with
  job := { running.job with img := rsImg traceInt, fe := { c0 := 0x7F000000, dta0 := 0x3F800000, tpt := [(0, 0x3F800000)], apt := [(0, 0x3F800000)] } } }
def rsFull : State := { rsState 0 1 with tiles := [(0, { rsTile 0 with fe := { (rsTile 0).fe with ends := 2 ^ 32 - 1 } })] }
/-- Two tiles hold units; tile 1 has not given its energies of iteration 0, or has. -/
def rsTwo (sums : List (Nat × Nat × Nat × Int × Int)) : State := { rsState 0 1 with
  tiles := [(0, rsTile 0), (1, rsTile 0)], job := { (rsState 0 1).job with fe := { (rsState 0 1).job.fe with sums := sums } } }

theorem witness_RoasterMovesAndSamples :
    (∀ s ∈ [rsState 0 0, rsState 0 1, rsFull, rsState (2 ^ 110) 0], canAct s 0 = true ∧ RegsOk s ∧ MemOk s ∧ jobLoaded s = true ∧ s.job.img.fe.mode = 2) ∧
    (updateUnits (rsTile 0) (spdOf (rsTile 0) 0)).map Prod.fst = [0] ∧
    (unitUpdate (rsState 0 0) (rsTile 0) (spdOf (rsTile 0) 0) 0 { base := 0 }).1.isSome = true ∧
    (unitUpdate (rsState (2 ^ 110) 0) (rsTile (2 ^ 110)) (spdOf (rsTile (2 ^ 110)) 0) 0 { base := 2 ^ 110, acc := 2 ^ 110 }).1 = none ∧
    (spdOf (rsTile 0) 0).p1.testBit 0 = true ∧ (rsTile 0).fe.ends + 1 < 2 ^ 32 ∧ 2 ^ 32 ≤ (rsFull.tile 0).fe.ends + 1 ∧
    (rsState 0 0).job.img.fe.roaster.traceInt = 0 ∧ (rsState 0 1).job.img.fe.roaster.traceInt ≠ 0 ∧
    (1 ∈ energyTiles (rsTwo []) ∧ ∀ p ∈ (rsTwo []).job.fe.sums, p.2.2.1 ≠ 1) ∧
    (∀ t' ∈ energyTiles (rsState 0 1), t' = 0) := by
  simp only [RegsOk, MemOk]; decide +kernel

/-- Rank 0 of two; region 5 of 64 bytes at HBM 0x8000; SP descriptors of channel 1, of channel 0 to itself, and of a broadcast. -/
def bxTile : Tile := { tile0 with trec := { tile0.trec with
  handles := [9], spds := [{ p0 := 1, p1 := 5, p2 := 0 }, { p0 := 0, p1 := 5, p2 := 0 }] } }
def bxJob (s : State) : State := { onEcho s with
  tiles := [(0, bxTile)], job := { s.job with count := 2, members := [0, 1], img := { regions := [{ id := 5, base := 0x8000, len := 64 }] } } }
def creditTo (r ch n : Nat) (s : State) : State := { s with net := { s.net with chans := tset s.net.chans (r, ch) { credit := n, armed := n } } }
def armedOn (ch : Nat) (async : Bool) (s : State) : State := { s with
  net := { s.net with arrivals := [{ channel := ch, region := 5, counter := if async then none else some 10, async := async }] } }
def fed : State := { armedOn 1 true (bxJob running) with net := { (armedOn 1 true (bxJob running)).net with sets := [((1, 7), 5, [1, 2, 3, 4])] } }
def odd : State := { bxJob running with tiles := [(0, { bxTile with fe := { bxTile.fe with ends := 1 } })]
                                        job := { (bxJob running).job with img := { (bxJob running).job.img with fe := { roaster := { e := 2 } } } } }

/-- The job is executed again from a log whose next entries are `es`, from SEQ 40 on. -/
def replayOf (es : List EchoEntry) (s : State) : State :=
  ({ s with echo := { s.echo with replay := true, src := hbm 0x2000, srcLen := es.length } } : State).after
    (store (hbm 0x2000) (es.mapIdx fun i e => e.bytes (40 + i) 0).flatten)

/-- The job runs with no link to the other members; the log names a set that has not come. -/
def alone : State := { bxJob running with job := { (bxJob running).job with alone := true } }
def unsent : State := replayOf [{ typ := 0x0A, agent := 1, aux := 7 }] (bxJob running)

theorem witness_ExchangesSendBoundaryPositions :
    (∀ s ∈ [bxJob running, creditTo 1 1 1 (bxJob running), armedOn 1 true (bxJob running), armedOn 1 true (creditTo 1 1 1 (bxJob running)), odd, fed, alone, unsent],
      canAct s 0 = true ∧ Settled s ∧ MemOk s ∧ s.net.outgoing = [] ∧ (regionOf s (spdOf bxTile 0).p1).isSome = true ∧
      chanRanks s (spdOf bxTile 0).p0 = [1] ∧ s.job.rank = 0 ∧ (s.chan 1 1).acked ≤ (s.chan 1 1).txNext ∧ otherRanks s = [1] ∧ armRanks s (spdOf bxTile 0).p0 = [1]) ∧
    setMissing unsent = true ∧ alone.job.alone = true ∧ (bxJob running).job.alone = false ∧ (bxJob running).echo.replay = false ∧
    (∀ s ∈ [bxJob running, creditTo 1 1 1 (bxJob running), armedOn 1 true (bxJob running)], setFor s 5 1 = none) ∧
    setFor fed 5 1 = some (7, 5, [1, 2, 3, 4]) ∧ (fed.net.arrivals.any fun a => a.async && a.channel = 1) = true ∧
    (odd.tile 0).fe.ends % max 1 odd.job.img.fe.roaster.e ≠ 0 ∧
    ((bxJob running).tile 0).fe.ends % max 1 (bxJob running).job.img.fe.roaster.e = 0 ∧
    hasCredit (bxJob running) 1 1 = false ∧ hasCredit (creditTo 1 1 1 (bxJob running)) 1 1 = true ∧
    ((armedOn 1 true (bxJob running)).net.arrivals.any fun a => a.async && a.channel = 1) = true ∧
    ((bxJob running).net.arrivals.any fun a => a.async && a.channel = 1) = false ∧ fed.net.sets = [((1, 7), 5, [1, 2, 3, 4])] ∧
    hasCredit fed 1 1 = false ∧ portFor (withReg (.bxtPortStatus 3) 0x80000000 (bxJob running)) 1 = some 3 ∧ Live fed ∧ (∀ p ∈ fed.tiles, ∀ a, sourceBytesOf p.1 fed a → ¬ echoSlot fed a) := by
  have h : Live fed := live_of (by decide)
  have k : ∀ p ∈ fed.tiles, ∀ a, sourceBytesOf p.1 fed a → ¬ echoSlot fed a := fun p _ a => apart_of (by decide) p.1 a
  refine ⟨?_, ?_, ?_, ?_, ?_, ?_, ?_, ?_, ?_, ?_, ?_, ?_, ?_, ?_, ?_, ?_, ?_, h, k⟩ <;> (try simp only [Settled, MemOk]) <;> decide +kernel

/-- A send to the module itself, whose arrival is armed with counter 10. -/
def toSelf : State := armedOn 0 false (creditTo 0 0 1 (bxJob running))

theorem witness_BexirSlotsSendAndArm :
    (∀ s ∈ [bxJob running, creditTo 1 1 1 (bxJob running), toSelf], canAct s 0 = true ∧ Settled s ∧ MemOk s ∧ s.net.outgoing = []) ∧
    regionOf (bxJob running) (spdOf bxTile 0).p1 = some { id := 5, base := 0x8000, len := 64 } ∧
    chanRanks (bxJob running) (spdOf bxTile 0).p0 = [1] ∧ ((bxJob running).chan 1 1).acked ≤ ((bxJob running).chan 1 1).txNext ∧
    regionOf toSelf (spdOf bxTile 1).p1 = some { id := 5, base := 0x8000, len := 64 } ∧
    chanRanks toSelf (spdOf bxTile 1).p0 = [toSelf.job.rank] ∧ hasCredit toSelf 0 0 = true ∧
    arrivalFor toSelf 0 0 = some { channel := 0, region := 5, counter := some 10 } ∧ isXchgRegion toSelf 5 = false ∧
    toSelf.net.barriers = [] ∧ (bxJob running).job.alone = false ∧ alone.job.alone = true ∧ toSelf.job.alone = false ∧
    (∀ n, tget toSelf.echo.given 0 n = 0) ∧ Live toSelf ∧ Room 3 toSelf ∧ BitVec.ofNat 13 10 ≠ handleOf bxTile 0 ∧
    (toSelf.reg (.syncCnt (handleOf bxTile 0))).toNat + 1 < 2 ^ 32 ∧ (toSelf.reg (.syncCnt (BitVec.ofNat 13 10))).toNat + 1 < 2 ^ 32 ∧
    (∀ b, hbm 0x8000 ≤ b ∧ b < hbm 0x8000 + 64 → ¬ echoSlots 3 toSelf b) := by
  have h : Live toSelf := live_of (by decide)
  refine ⟨?_, ?_, ?_, ?_, ?_, ?_, ?_, ?_, ?_, ?_, ?_, ?_, ?_, fun _ => rfl, h, ?_, ?_, ?_, ?_, fun b hb => slots_apart (hbm 0x8000) (by decide) hb.1⟩ <;> (try simp only [Settled, MemOk, Room]) <;> decide +kernel

/-- Ring 2 of 16 descriptors at host address 0 holds one of 64 bytes, with length `len`; region 5 is 64 bytes. -/
def dmaState (len : Nat) : State :=
  (withReg (.dmaTail 2) 1 (withReg (.dmaCfg 2) (F.dmaCfg_EN.put 0 1) { onTile { tile0 with trec := { tile0.trec with
      handles := [9], spds := [{ p0 := 2, p1 := 5 }, { p0 := 3, p1 := 5 }] } } with
    job := { running.job with img := { regions := [{ id := 5, base := 0x8000, len := 64 }] } } })).after
    (store (hostMem 0) (leBytes 8 0 ++ leBytes 4 len ++ leBytes 4 0 ++ leBytes 8 0 ++ leBytes 8 0))

theorem witness_DmaSlotsTakeDescriptors :
    (∀ n ∈ [64, 128], canAct (dmaState n) 0 = true ∧ jobLoaded (dmaState n) = true ∧
      (nextDescriptor (dmaState n) (ringOf (spdOf ((dmaState n).tile 0) 0))).isSome = true ∧
      nextDescriptor (dmaState n) (ringOf (spdOf ((dmaState n).tile 0) 1)) = none ∧
      (regionOf (dmaState n) 5).isSome = true) ∧
    (∀ kind < 3, ∀ bs, nextDescriptor (dmaState 64) 2 = some bs → descriptorOk kind bs (regionOf (dmaState 64) 5) = true) ∧
    (∀ kind < 3, ∀ bs, nextDescriptor (dmaState 128) 2 = some bs → descriptorOk kind bs (regionOf (dmaState 128) 5) = false) := by
  refine ⟨by decide, ?_, ?_⟩ <;>
  · intro kind hk bs h
    obtain rfl : bs = _ := (Option.some.inj h).symm
    revert kind; decide +kernel


/-- Lane 0 of register 0 names stream 5; requests of queue 2, the second of them with tag 0 and the last. -/
def admState (mode lane0 : Nat) (pool : List Request) : State := { onEcho { running with
    tiles := [(0, { tile0 with vr := [(0, BitVec.ofNat 512 lane0)], trec := { tile0.trec with spds := [{ p0 := 2 }] } })] } with
  hif := { running.hif with pool := pool, admMode := mode } }
def lastSeen (s : State) : State := withReg .admStatus (F.admStatus_LAST_SEEN.put 0 1) s

theorem witness_AdmitReleasesAdmitsAndReports :
    (∀ s ∈ [admState 0 0x80000005 [], lastSeen (admState 1 0 []), admState 0 0 [req], admState 1 0 [req], admState 1 0 [],
        admState 0 0 [{ req with ctx := 0x1000 }]],
      canAct s 0 = true ∧ Settled s ∧ MemOk s ∧ Room 2 s ∧ Live s) ∧
    ((lanes (((admState 0 0x80000005 []).tile 0).vreg 0)).take 8).filter (fun w => w.getLsbD 31 && decide (w.toNat % 512 < 384)) = [0x80000005] ∧
    ((lanes (((admState 0 0 [req]).tile 0).vreg 0)).take 8).filter (fun w => w.getLsbD 31 && decide (w.toNat % 512 < 384)) = [] ∧
    (lastSeen (admState 1 0 [])).flag .admStatus F.admStatus_LAST_SEEN = true ∧
    (admState 1 0 [req]).flag .admStatus F.admStatus_LAST_SEEN = false ∧
    (admState 0 0 [req]).hif.pool.filter (·.queue = 2) = [req] ∧ chooseStream (admState 0 0 [req]) 0 [] = some 0 ∧
    streamFree (admState 1 0 [req]) (BitVec.ofNat 9 (((admState 1 0 [req]).reg .admNextTag).toNat % 384)) = true ∧
    (admState 1 0 [req]).hif.pool.find? (fun r => r.queue = 2 && r.tag = ((admState 1 0 [req]).reg .admNextTag).toNat) = some req ∧
    (admState 1 0 []).hif.pool.find? (fun r => r.queue = 2 && r.tag = 0) = none ∧
    chooseStream (admState 0 0 [{ req with ctx := 0x1000 }]) 0 [] = some 0 := by
  refine ⟨fun s hs => ⟨?_, ?_, ?_, ?_, live_of ?_⟩, ?_, ?_, ?_, ?_, ?_, ?_, ?_, ?_, ?_, ?_⟩ <;> (try simp only [Settled, MemOk, Room]) <;>
    (try revert s) <;> decide +kernel

/-- A replay whose next source entry is `e`, with an admission after it. -/
def replaying (e : EchoEntry) : State := replayOf [e, { typ := 8 }] (onTile tile0)

theorem witness_ReadsOfTimeAndTelemetryAreLogged :
    (∀ s ∈ [onEcho (onTile tile0), replaying { typ := 0x0B, aux := 5 }, replaying { typ := 0x0C, aux := 5 }],
      canAct s 0 = true ∧ Settled s ∧ MemOk s) ∧ Live (onEcho (onTile tile0)) ∧
    (∀ n ∈ [0x0B, 0x0C], let s := replaying { typ := n, aux := 5 }
      s.echo.replay = true ∧ s.echo.stopped = false ∧ s.echo.late = [] ∧ (nextSource { s with echo := { s.echo with pos := s.echo.pos + 1 } }).map (·.2.typ) = some 8 ∧
      nextSource s = some (40, { typ := n, aux := 5 })) := by
  refine ⟨?_, live_of ?_, ?_⟩ <;> (try simp only [Settled, MemOk]) <;> decide +kernel

/-- A tile that runs is not open to the window; one that has no job is. -/
def sessionOf (n : Nat) (s : State) : State := { s with sec := { s.sec with session := n } }
def busyStream : State := withReg (.svcCtrl 3) 1 ready

theorem witness_WindowsOfTilesStreamsAndCounters :
    (∀ s ∈ [ready, onTile tile0, sessionOf 3 (onTile tile0), busyStream], RegsOk s ∧ MemOk s ∧ Powered s (.tileSpmData 0) ∧ Powered s (.svcCtrl 3) ∧
      Powered s (.syncCnt 9) ∧ s.job.phase ≠ .loading) ∧
    jobLoaded ready = false ∧ (tileSpm 0 ready).pass = true ∧ jobLoaded (onTile tile0) = true ∧ (onTile tile0).sec.session < 2 ∧
    (tileSpm 0 (sessionOf 3 (onTile tile0))).pass = false ∧ 3 ≤ (sessionOf 3 (onTile tile0)).sec.session ∧
    streamFree ready 3 = true ∧ streamFree busyStream 3 = false ∧
    regAt ready ((Reg.svcCtrl 3).addr + ((Reg.svcInvT 3).addr - (Reg.svcCtrl 3).addr)) = some (.svcInvT 3) ∧
    offBlock ready (Reg.svcInvT 3).addr = false ∧ 4 ≤ (Reg.svcInvT 3).addr - (Reg.svcCtrl 3).addr ∧ (Reg.svcInvT 3).addr - (Reg.svcCtrl 3).addr < 0x80 ∧
    (Reg.svcPenPtrLo 3).pairHi = some (.svcPenPtrHi 3) ∧ (Reg.svcPenPtrHi 3).pairLo = some (.svcPenPtrLo 3) ∧
    regAt ready (Reg.svcPenPtrLo 3).addr = some (.svcPenPtrLo 3) ∧ regAt ready (Reg.svcPenPtrHi 3).addr = some (.svcPenPtrHi 3) := by
  simp only [RegsOk, MemOk, Powered]; decide +kernel

theorem witness_BusAccessesActByRegister :
    RegsOk ready ∧ pstate ready < 4 ∧ Powered ready .offCount ∧ RegsOk State.reset ∧ offBlock State.reset (Reg.svcCtrl 0).addr = true ∧
    (regAt ready (Reg.echoDrainLo).addr = some .echoDrainLo ∧ (Reg.echoDrainLo).pairHi = some .echoDrainHi ∧
      offBlock ready (Reg.echoDrainLo).addr = false ∧ ownWrite .echoDrainLo = false ∧ writeLocked ready .echoDrainLo = false ∧
      (Reg.echoDrainLo).ctxOf = none) ∧
    (regAt ready (Reg.echoDrainHi).addr = some .echoDrainHi ∧ (Reg.echoDrainHi).pairLo = some .echoDrainLo ∧ (Reg.echoDrainLo).pairRw = true ∧
      (Reg.echoDrainHi).ctxOf = none ∧ offBlock ready (Reg.echoDrainHi).addr = false ∧ writeLocked ready .echoDrainHi = false ∧ ready.echo.waiting = [] ∧
      ready.echo.late = [] ∧ ready.echo.replay = false) ∧
    (regAt ready (Reg.ptpTimeLo).addr = some .ptpTimeLo ∧ (Reg.ptpTimeLo).pairHi = some .ptpTimeHi ∧ offBlock ready (Reg.ptpTimeLo).addr = false) ∧
    (regAt ready (Reg.hifBar2BaseHi).addr = some .hifBar2BaseHi ∧ (Reg.hifBar2BaseHi).pairLo = some .hifBar2BaseLo ∧
      offBlock ready (Reg.hifBar2BaseHi).addr = false) ∧
    (Reg.echoSeqLo).pairRw = false ∧ (Reg.echoSeqHi).pairLo = some .echoSeqLo ∧
    (regAt ready (Reg.pwrHostCap).addr = some .pwrHostCap ∧ offBlock ready (Reg.pwrHostCap).addr = false ∧ ownWrite .pwrHostCap = false ∧
      (Reg.pwrHostCap).pairHi = none ∧ (Reg.pwrHostCap).pairLo = none ∧ (Reg.pwrHostCap).addr / 4 * 4 = (Reg.pwrHostCap).addr) ∧
    writeLocked running (.bxtRoster 0) = true ∧ regAt ready 0xFFFFFC = none := by
  simp only [RegsOk, Powered]; decide +kernel

theorem witness_EveryRegisterAnswersAtItsOffset :
    (∀ n, (Reg.svcPenPtrLo 383).ctxOf = some n → n.toNat < 384) ∧ (2#2 : BitVec 2) ≠ 3 ∧
    (0#2 : BitVec 2).toNat = State.reset.fget .imgSel F.imgSel_SLOT := by
  refine ⟨fun n h => ?_, by decide, by decide⟩
  obtain rfl : n = 383 := (Option.some.inj h).symm
  decide +kernel

/-- Die 2 holds after a sag; sensor 1 of die 3 has failed and holds it. -/
def sagging : State := withReg (.pgvStatus 2) 1 { running with pwr := { running.pwr with droop := [2] } }
def failing : State := withReg (.pgvStatus 3) 1 { running with pwr := { running.pwr with badSensors := [(3, 1)] } }
def failingToo : State := { failing with pwr := { failing.pwr with droop := [3] } }
def starved : State := onTile { tile0 with bfilled := 0 }

theorem witness_GovernorsHoldAndPace :
    (∀ s ∈ [ready, sagging, failing, failingToo, starved], RegsOk s ∧ s.flt.mcAbsent = false) ∧ (2, 5) ∉ sagging.pwr.retiredSensors ∧
    (2, 5) ∉ sagging.pwr.badSensors ∧ (2#3).toNat ∈ sagging.pwr.droop ∧ dieHeld sagging 2 = true ∧ (∀ p ∈ sagging.pwr.badSensors, p.1 ≠ 2) ∧
    (3#3).toNat ∈ failingToo.pwr.droop ∧ (3, 1) ∈ failingToo.pwr.badSensors ∧ failing.pwr.badSensors = [((3#3).toNat, 1)] ∧
    16 < sagOf (setpointUv ready) 0 ∧ (∀ s ∈ [sagging, failingToo], sagOf (setpointUv s) (setpointUv s) ≤ 8) ∧ 8 < sagOf (setpointUv ready) 0 ∧
    sagging.pwr.retiredSensors = [] ∧ sagging.pwr.badSensors = [] ∧
    dieHeld failing 3 = true ∧ (3#3).toNat ∉ failing.pwr.droop ∧ starved.job.phase = .running ∧ dieStopped starved 0 = false ∧
    (∀ p ∈ starved.tiles, p.2.mode ≠ .halted) ∧ (∃ p ∈ starved.tiles, dieOf p.1 = 0 ∧ internalWait starved p.1 = true) ∧
    Powered ready .pwrHostCap ∧ (2#3).toNat ∉ ready.pwr.dieLimit := by
  simp only [RegsOk, Powered]; decide +kernel

/-- The image's traffic crosses the link between dies 0 and 1. -/
def crossing : State := { running with job := { running.job with img := { links := [(0, 1)] } } }

/-- Stack 1 is up, with a retraining pending, both spares free, one used, both used, and both used after an earlier failure. -/
def stackUp (s : State) : State := withReg (.hbmStatus 1) 0x20002 s
def spares (a b : Bool) (err : U32) (s : State) : State :=
  withReg (.hbmSpare0 1) (if a then 0x80000000 else 0) (withReg (.hbmSpare1 1) (if b then 0x80000000 else 0) (withReg (.hbmErr 1) err (stackUp s)))
def noSpareErr : U32 := F.hbmErr_NOSPARE.put 0 1
def holdsRemaps : State := withReg .fltCtrl (F.fltCtrl_HOLD.put 0 1) (stackUp running)

theorem witness_LinksAndStacksShowTheirErrors :
    (withReg (.d2dStat 0 1) 0x80000000 running).flag (.d2dStat 0 1) F.d2dStat_UP = true ∧ usesLink crossing 0 1 = true ∧ usesLink crossing 1 0 = true ∧
    usesLink running 0 1 = false ∧ RegsOk (withReg (.d2dStat 0 1) 0x80000000 running) ∧ farEnd 0 1 = some (1, 0) ∧ farEnd 0 0 = none ∧
    (∀ s ∈ [stackUp running, spares true false 0 running, spares true true 0 running, spares true true noSpareErr running, holdsRemaps],
      RegsOk s ∧ MemOk s ∧ stackState s 1 = 2 ∧ s.flt.mcAbsent = false ∧ jobLoaded s = true ∧ s.hif.events.length < 64) ∧
    jobLoaded (spares true true 0 ready) = false ∧ ueOf (stackUp ready) 1 = [] ∧ stackState (withReg (.hbmStatus 1) 4 ready) 1 = 4 ∧
    spareFree (stackUp running) 1 = true ∧ spareFree (spares true true 0 running) 1 = false ∧ spareFree (spares true true noSpareErr running) 1 = false ∧
    0x1000000040 / 2 ^ 36 = (1#5).toNat ∧
    (withReg (.hbmStatus 1) 0x10002 ready).flag (.hbmStatus 1) F.hbmStatus_RETRAIN_PEND = true ∧ RegsOk (withReg (.hbmStatus 1) 0x10002 ready) ∧
    stackState (withReg (.hbmStatus 1) 0x10002 ready) 1 = 2 ∧ jobLoaded (withReg (.hbmStatus 1) 0x10002 ready) = false ∧
    (stackUp running).flag .fltCtrl F.fltCtrl_HOLD = false ∧ holdsRemaps.flag .fltCtrl F.fltCtrl_HOLD = true ∧
    (stackUp running).flag (.hbmSpare0 1) F.hbmSpare0_USED = false ∧
    (spares true false 0 running).flag (.hbmSpare0 1) F.hbmSpare0_USED = true ∧ (spares true false 0 running).flag (.hbmSpare1 1) F.hbmSpare1_USED = false ∧
    (spares true true 0 running).flag (.hbmSpare1 1) F.hbmSpare1_USED = true ∧ (spares true true 0 running).flag (.hbmErr 1) F.hbmErr_NOSPARE = false ∧
    (spares true true noSpareErr running).flag (.hbmErr 1) F.hbmErr_NOSPARE = true := by
  simp only [RegsOk, MemOk]; decide +kernel

/-- Stream 7 of tile 0, of kind `kind`, with four elements, `pos` issued and arrived. -/
def stDesc (kind : Nat) : StreamDesc := { id := 7, base := 0x4000, length := 256, tile := 0, bufBank := 4, bufNbanks := 1, bufLines := 4, kind := kind }
def stState (kind : Nat) (pos : Nat × Nat) (τ : Tile) : State := { onTile τ with
  job := { running.job with img := { streams := [stDesc kind] }, strm := [(7, pos)] } }

theorem witness_StreamsIssueAndDeliver :
    (∀ kind ∈ [0, 1, 2], ∀ pos ∈ [(0, 0), (1, 0), (4, 4)], let s := stState kind pos tile0
      streamOf s 7 = some (stDesc kind) ∧ MemOk s ∧ RegsOk s ∧ Settled s ∧ jobLoaded s = true ∧ s.job.phase ≠ .none ∧ streamPos s 7 = pos) ∧
    ((0 : Nat) < elements (stDesc 0) ∧ hasRoom (stState 0 (0, 0) tile0) (stDesc 0) = true ∧ (stState 0 (0, 0) tile0).job.phase = .running) ∧
    ¬ 4 < elements (stDesc 0) ∧
    (let s := stState 0 (1, 0) { tile0 with waits := [.take 4 0 2 false] }
     (∀ x ∈ s.tiles, x.2.ctl = none ∧ (x.1 ≠ 0 → x.2.waits = [])) ∧
     (s.tile 0).waits = [.take (bufferSlot (stDesc 0) 0).1 (bufferSlot (stDesc 0) 0).2 2 false] ∧
     lineKey (bufferSlot (stDesc 0) 0).1 (bufferSlot (stDesc 0) 0).2 ∉ (s.tile 0).full) ∧
    (let τ := ({ tile0 with bfilled := 0 } : Tile); τ.mode = .run ∧ τ.mid = false ∧ τ.bfilled ≤ τ.bpos ∧ τ.bpos < 2 * 0 + 2) := by
  simp only [MemOk, RegsOk, Settled]; decide +kernel

/-- Queue 2 executes a LOAD_IMAGE of slot `j` from address 0x10000; `bad` sets a byte that is not listed. -/
def loadBytes (j bad : Nat) : List Byte := leBytes 1 1 ++ leBytes 1 0 ++ leBytes 2 9 ++ leBytes 1 j ++ leBytes 3 0 ++ leBytes 8 0x10000 ++ leBytes 47 0 ++ leBytes 1 bad
def executing (bs : List Byte) (s : State) : State := { s with hif := { s.hif with queues := [(2, { busy := some { queue := 2, bytes := bs, head := 1 } })] } }
def loadingSlot (q : Nat) (s : State) : State := { s with slots := [(1, { loading := true, addr := 0x10000, queue := q, cid := 9, head := 1 })] }

theorem witness_ImagesLoadIntoSlots :
    (∀ p ∈ [(1, 0), (5, 0), (1, 7)], ∃ c ∈ ((executing (loadBytes p.1 p.2) ready).qp 2).busy, c.opc = 1 ∧ leAt c.bytes 4 1 = p.1 ∧
      (onlyBytes c.bytes [(4, 1), (8, 8)] = true ↔ p.2 = 0) ∧ inHbm ready (leAt c.bytes 8 8) = true) ∧
    deepState ready = false ∧ deepState (withReg .pwrState 2 ready) = true ∧ (ready.slot 1).loading = false ∧ slotState ready 1 ≠ 4 ∧
    slotState (withReg (.imgStatus 1) 4 ready) 1 = 4 ∧
    ((loadingSlot 2 ready).slot 1).loading = true ∧ ((loadingSlot 2 ready).slot 1).queue = 2 ∧ ((loadingSlot 2 ready).slot 1).cid = 9 ∧
    ((loadingSlot 3 ready).slot 1).queue ≠ 2 ∧ RegsOk (loadingSlot 2 ready) ∧
    (∃ c ∈ ((executing (loadBytes 1 0) (loadingSlot 2 ready)).qp ((loadingSlot 2 ready).slot 1).queue).busy, c.opc = 1 ∧ c.cid = 9) ∧
    ((loadingSlot 3 ready).qp 3).busy = none := by
  simp only [RegsOk]; decide +kernel

/-- Bytes of a queue entry: pairs of a width and a value. -/
def cmdBytes (fs : List (Nat × Nat)) : List Byte :=
  let b := fs.flatMap fun f => leBytes f.1 f.2
  b ++ List.replicate (64 - b.length) 0

def executes (fs : List (Nat × Nat)) (s : State) : State := executing (cmdBytes fs) s

/-- A verified image in slot 0 and the job-load block at host address 0: count `n` of modules, rank 0, profile that of the image; in
`overlong` the image has too many variables; in `resumed` the block names a saved context that is not there. -/
def loadable (n : Nat) (verified : Bool) (s : State) : State :=
  ({ s with slots := [(0, { verified := verified, img := { hdr := { moduleCount := n, profile := 0 } } })] } : State).after
    (store (hostMem 0) (leBytes 1 0 ++ leBytes 1 0 ++ leBytes 2 0 ++ leBytes 2 n))
def overlong : State := { loadable 1 true ready with
  slots := [(0, { verified := true, img := { hdr := { moduleCount := 1, profile := 0 }, fe := { mode := 1, nvar := 2 ^ 28 + 1 } } })] }
def resumed : State := (loadable 1 true ready).after (store (hostMem 8) (leBytes 8 0x10000))
def askedOf (s : State) : State := { s with job := { wantedJob s (s.bytes (hostMem 0) 512) 0 2 false with jobId := s.job.jobId } }
def loadingJob (s : State) : State := withReg (.qCfg 2) (F.qCfg_EN.put 0 1) (executes [(1, 2), (1, 0), (2, 9)] (askedOf s))

theorem witness_JobsLoadAndBegin :
    (∀ c ∈ ((executes [(1, 2), (1, 0), (2, 9), (4, 1)] ready).qp 2).busy, c.opc = 2 ∧ onlyBytes c.bytes [(8, 8)] = false) ∧
    (∀ s ∈ [ready, running, loadable 1 true ready, loadable 1 false ready, loadable 2 true ready],
      ∀ c ∈ ((executes [(1, 2), (1, 0), (2, 9)] s).qp 2).busy, c.opc = 2 ∧ onlyBytes c.bytes [(8, 8)] = true ∧ leAt c.bytes 8 8 = 0) ∧
    ready.job.phase = .none ∧ running.job.phase ≠ .none ∧ (loadingJob (loadable 1 true ready)).job.phase = .loading ∧
    (loadingJob (loadable 1 true ready)).job.queue = 2 ∧
    blockOk ((loadable 1 true ready).bytes (hostMem 0) 512) = true ∧
    blockOk ((ready.after (store (hostMem 0) (leBytes 1 4))).bytes (hostMem 0) 512) = false ∧
    loadStop (askedOf (loadable 1 true ready)) = none ∧ loadStop (askedOf (loadable 1 false ready)) = some (.code 0x73) ∧
    loadStop (askedOf (loadable 2 true ready)) = none ∧ otherRanks (askedOf (loadable 2 true ready)) = [1] ∧
    loadStop (askedOf overlong) = some (.fe { code := 0x51, module := true }) ∧ overlong.job.phase = .none ∧
    (contextStop (askedOf resumed)).isSome = true ∧ loadStop (askedOf resumed) = (contextStop (askedOf resumed)).map .ctx ∧
    blockOk (resumed.bytes (hostMem 0) 512) = true ∧ resumed.job.phase = .none ∧
    (∀ s ∈ [loadingJob (loadable 1 true ready), loadingJob (loadable 1 false ready)], canComplete s = true ∧ s.job.count = 1 ∧
      ((s.qp s.job.queue).busy).isSome = true ∧ RegsOk s ∧ s.job.standing = false ∧ s.job.img.fe.mode = 0 ∧ leAt s.job.block 8 8 = 0 ∧
      s.fget .echoCtrl F.echoCtrl_REPLAY = 0 ∧ (s.job.img.syncs.map SyncAlloc.index).Nodup ∧ (∀ x ∈ s.job.img.syncs, x.index < 2 ^ 13) ∧
      qOn s s.job.queue = true) ∧
    loadStop (loadingJob (loadable 1 false ready)) = some (.code 0x73) ∧ loadStop (loadingJob (loadable 1 true ready)) = none := by
  simp only [RegsOk]; decide +kernel

/-- A job with an EXTERNAL counter 9 that the host raises, an input region, and requests of queues 2 and 3. -/
def hostJob : State := withReg (.qCfg 2) (F.qCfg_EN.put 0 1) (onEcho { running with
  tiles := [(0, tile0), (1, { tile0 with mode := .done })]
  job := { running.job with img := { syncs := [{ index := 9, cls := 1, agent := 1 }], regions := [{ id := 3, kind := 3, base := 0x8000, len := 64 }] } }
  hif := { running.hif with pool := [{ req with queue := 3 }] } })
def doneJob : State := { hostJob with tiles := [(0, { tile0 with mode := .done })] }
def taggedJob : State := { hostJob with hif := { hostJob.hif with admMode := 1 } }

theorem witness_JobsEndPauseAndTakeRequests :
    (∀ s ∈ [ready, hostJob, doneJob, taggedJob], Settled s ∧ s.echo.waiting = [] ∧ s.job.pauseQ = none ∧ MemOk s) ∧
    jobLoaded ready = false ∧ jobLoaded hostJob = true ∧ qOn hostJob 2 = true ∧ (∀ r ∈ hostJob.hif.pool, r.queue ≠ 2) ∧
    (∀ c ∈ ((executes [(1, 3), (1, 0), (2, 9)] hostJob).qp 2).busy, c.opc = 3 ∧ onlyBytes c.bytes [] = true) ∧
    (∀ c ∈ ((executes [(1, 3), (1, 0), (2, 9), (1, 1)] hostJob).qp 2).busy, onlyBytes c.bytes [] = false) ∧
    (∀ c ∈ ((executes [(1, 4), (1, 0), (2, 9), (4, 0), (6, 2 ^ 48 - 1)] hostJob).qp 2).busy,
      c.opc = 4 ∧ onlyBytes c.bytes [(8, 6)] = true ∧ leAt c.bytes 8 6 = 2 ^ 48 - 1) ∧ hostJob.job.count ≤ 1 ∧
    (allDone doneJob = true ∧ doneJob.job.phase = .running ∧ doneJob.job.ckptBusy = false ∧ doneJob.job.digestBusy = false ∧ pauseBlocked doneJob = false) ∧ allDone hostJob = false ∧
    (∀ k ∈ [0, 1, 2], ∀ c ∈ ((executes [(1, 5), (1, 0), (2, 9), (4, 0), (1, k)] hostJob).qp 2).busy,
      c.opc = 5 ∧ onlyBytes c.bytes [(4, 4), (8, 1), (16, 8), (24, 8)] = true ∧ leAt c.bytes 8 1 = k) ∧
    hostJob.hif.pool.length < 4096 ∧ hostJob.hif.admMode ≠ 1 ∧ taggedJob.hif.admMode = 1 ∧ (taggedJob.hif.pool.any fun r => r.tag = 0) = true ∧
    (∀ n ∈ [0, 32, 33], ∀ c ∈ ((executes [(1, 6), (1, 0), (2, 9), (2, 9), (2, 5), (1, n), (7, 0), (8, 0x8000)] hostJob).qp 2).busy,
      c.opc = 6 ∧ onlyBytes c.bytes [(4, 2), (6, 2), (8, 1), (16, 8), (32, 32)] = true ∧ leAt c.bytes 8 1 = n ∧ leAt c.bytes 4 2 = 9 ∧
      leAt c.bytes 16 8 = 0x8000 ∧ leAt c.bytes 6 2 = 5 ∧ c.bytes.length = 64) ∧
    (isExternal hostJob 9 = true ∧ counterAgent hostJob 9 = 1 ∧ postOk hostJob 0x8000 32 = true) ∧ isExternal hostJob 10 = false ∧
    Room 2 hostJob ∧ (hostJob.reg (.syncCnt 9)).toNat + 5 < 2 ^ 32 ∧ Live hostJob ∧
    (∀ b, hbm 0x8000 ≤ b ∧ b < hbm 0x8000 + 32 → ¬ echoSlots 2 hostJob b) := by
  have h : Live hostJob := live_of (by decide)
  have k : ∀ b, hbm 0x8000 ≤ b ∧ b < hbm 0x8000 + 32 → ¬ echoSlots 2 hostJob b := fun b hb => slots_apart (hbm 0x8000) (by decide) hb.1
  simp only [Settled, MemOk, Room, h, true_and]; refine ⟨?_, ?_, ?_, ?_, ?_, ?_, ?_, ?_, ?_, ?_, ?_, ?_, ?_, ?_, ?_, ?_, ?_, ?_, ?_, ?_, ?_, k⟩ <;> decide +kernel

/-! A checkpoint copy in slot 0 of mirror A: the CHECKPOINT region and the mirrors lie so far apart that a copy of any length fits. -/

def copySize : Nat := 64 + Config.hwStateBytes 0
def ckImg : Image := { ckpt := { interval := 4, mirrorB := copySize, region := 1 }, regions := [{ id := 1, len := 2 * copySize }] }
def snap0 : Snap := { gen := 4, step := 4 }
def copy0 : List Byte := copyHeader snap0 (snapBody ckImg snap0) ++ snapBody ckImg snap0

/-- The state with the copy in memory, known to it. -/
def withCopy (s : State) : State := { s with
  mem := memWrite [] 0 copy0, job := { s.job with img := ckImg, hostCkpt := false, gen := 4 }
  flt := { s.flt with copies := [snap0], good := some snap0 } }

theorem leBytes_length (n v : Nat) : (leBytes n v).length = n := by
  induction n generalizing v with
  | zero => rfl
  | succ n ih => simp [leBytes, ih]

theorem ofLe_leBytes (n : Nat) : ∀ v, ofLe (leBytes n v) = v % 2 ^ (8 * n) := by
  induction n with
  | zero => intro v; simp [leBytes, ofLe, Nat.mod_one]
  | succ n ih =>
    intro v
    have e : 2 ^ (8 * (n + 1)) = 256 * 2 ^ (8 * n) := by rw [Nat.mul_add, Nat.pow_add]; omega
    rw [leBytes, ofLe, ih, e, Nat.mod_mul]
    simp

theorem digestBytes_length (d : Digest) : (digestBytes d).length = 32 := by simp [digestBytes, beBytes, leBytes_length]

theorem body0_length : (snapBody ckImg snap0).length = Config.hwStateBytes 0 := by
  simp only [snapBody, snap0, ckImg, List.length_append, List.length_take, List.length_replicate, List.length_nil]
  omega

theorem header_length (x : Snap) (b : List Byte) : (copyHeader x b).length = 64 := by
  simp [copyHeader, leBytes_length, digestBytes_length, ascii]

theorem copy0_length : copy0.length = copySize := by simp [copy0, header_length, body0_length, copySize]

theorem bytes_copy (s : State) {i n : Nat} (h : i + n ≤ copySize) : (withCopy s).bytes i n = (copy0.drop i).take n := by
  have e := memRead_memWrite (m := []) (by decide) 0 copy0
  rw [copy0_length] at e
  simp only [State.bytes, withCopy]
  conv => rhs; rw [← e]
  apply List.ext_getElem
  · simp [memRead]; omega
  · intro j h1 h2
    simp only [List.getElem_take, List.getElem_drop, memRead, List.getElem_map, List.getElem_range, Nat.zero_add]

theorem bytes_past (s : State) {a : Nat} (h : copySize ≤ a) (n : Nat) : (withCopy s).bytes a n = List.replicate n memDefault := by
  apply List.ext_getElem
  · simp [State.bytes, memRead]
  · intro j h1 h2
    simp only [State.bytes, withCopy, memRead, List.getElem_map, List.getElem_range, List.getElem_replicate]
    rw [memGet_memWrite_out _ _ (by decide) (by rw [copy0_length]; omega)]; rfl

theorem region_withCopy (s : State) : ckptRegion (withCopy s) = { id := 1, len := 2 * copySize } := rfl

theorem slot_a (s : State) (k : Nat) : slotAddr (withCopy s) 0 k = k * copySize := by
  have h : 2 * copySize / 2 = copySize := by omega
  rw [slotAddr, region_withCopy, if_neg (by exact Bool.false_ne_true)]
  dsimp only
  rw [if_pos rfl, h, hbm, spaceBase]
  omega

theorem slot_b (s : State) (k : Nat) : slotAddr (withCopy s) 1 k = copySize * 2 ^ 38 + k * copySize := by
  have h : 2 * copySize / 2 = copySize := by omega
  have a : (withCopy s).job.img.ckpt.mirrorB = copySize ∧ (withCopy s).job.img.ckpt.mirrorA = 0 := ⟨rfl, rfl⟩
  rw [slotAddr, region_withCopy, if_neg (by exact Bool.false_ne_true)]
  dsimp only
  rw [if_neg Nat.one_ne_zero, h, a.1, a.2, hbm, spaceBase, Nat.zero_mul, Nat.zero_mul, Nat.zero_add, Nat.zero_add, Nat.sub_zero]

theorem copy_there (s : State) (h : s.flt.badSectors = []) : copyOk (withCopy s) 0 = true := by
  have l : bodyLen (withCopy s).job.img = Config.hwStateBytes 0 := by simp [bodyLen, copyBytes, withCopy, ckImg]
  have b : (withCopy s).bytes 64 (Config.hwStateBytes 0) = snapBody ckImg snap0 := by
    rw [bytes_copy s (by rw [copySize]), copy0, List.drop_left' (header_length _ _), List.take_of_length_le (by rw [body0_length])]
  have a : (withCopy s).bytes 0 8 = ascii "CKS8CKPT" := by
    rw [bytes_copy s (by rw [copySize]; omega)]; simp [copy0, copyHeader, ascii]
  have d : (withCopy s).bytes 32 32 = digestBytes (sha3 (snapBody ckImg snap0)) := by
    rw [bytes_copy s (by rw [copySize]; omega), copy0, List.drop_append_of_le_length (by rw [header_length]; omega),
      List.take_append_of_le_length (by simp [header_length])]
    rw [copyHeader, List.drop_left' (by simp [leBytes_length, ascii]), List.take_of_length_le (by rw [digestBytes_length])]
  simp only [copyOk, l, b, a, d, Nat.zero_add]
  simp [withCopy, h, digestBytes, ofBe, beBytes, ofLe_leBytes]
  omega

theorem copy_absent (s : State) {a : Nat} (h : copySize ≤ a) : copyOk (withCopy s) a = false := by
  have : (withCopy s).bytes a 8 ≠ ascii "CKS8CKPT" := by rw [bytes_past s h]; decide +kernel
  simp [copyOk, this]

/-- The one copy that verifies. -/
def theCopy : Copy := { gen := 4, mirror := 0, addr := 0, seq := 0, digest := ofBe (digestBytes (sha3 (snapBody ckImg snap0))) }

theorem goodCopies_withCopy (s : State) (h : s.flt.badSectors = []) (w : s.flt.writing = none) : goodCopies (withCopy s) = [theCopy] := by
  have p : 0 < copySize := by rw [copySize]; omega
  have g : leAt ((withCopy s).bytes 0 64) 8 4 = 4 ∧ leAt ((withCopy s).bytes 0 64) 24 8 = 0 := by
    rw [bytes_copy s (by rw [copySize]; omega)]
    simp [copy0, leAt, header_length]
    simp [copyHeader, leBytes, ascii, ofLe, snap0]
  have d : (withCopy s).bytes 32 32 = digestBytes (sha3 (snapBody ckImg snap0)) := by
    rw [bytes_copy s (by rw [copySize]; omega), copy0, List.drop_append_of_le_length (by rw [header_length]; omega),
      List.take_append_of_le_length (by simp [header_length])]
    rw [copyHeader, List.drop_left' (by simp [leBytes_length, ascii]), List.take_of_length_le (by rw [digestBytes_length])]
  have e1 : copyOk (withCopy s) (slotAddr (withCopy s) 0 1) = false := copy_absent s (by rw [slot_a]; omega)
  have e2 : copyOk (withCopy s) (slotAddr (withCopy s) 1 0) = false := copy_absent s (by rw [slot_b]; omega)
  have e3 : copyOk (withCopy s) (slotAddr (withCopy s) 1 1) = false := copy_absent s (by rw [slot_b]; omega)
  have z : slotAddr (withCopy s) 0 0 = 0 := by rw [slot_a]; omega
  have t : topGen (withCopy s) = 4 := by simp [topGen, withCopy, w]
  simp [goodCopies, e1, e2, e3, z, t, copy_there s h, g.1, g.2, d, theCopy]

theorem keep_skip {s : State} (h : s.flt.skipGens = []) : { s with flt := { s.flt with skipGens := [] } } = s := by
  obtain ⟨_, _, _, _, _, _, _, _, _, f, _⟩ := s
  cases f
  simp_all

/-- The selection where its generation is the one left. -/
theorem pick_one (s : State) {gs : List Nat} (h : gs = [4]) :
    pickFrom (withCopy s) [theCopy] gs = (0, if entriesHeld (withCopy s) 0 then .take theCopy else .need theCopy) := by
  subst h
  by_cases e : entriesHeld (withCopy s) 0 = true
  · rw [if_pos e]; exact if_pos e
  · rw [if_neg e]; exact (if_neg e).trans rfl

theorem pick_withCopy (s : State) (h : s.flt.badSectors = []) (w : s.flt.writing = none) (h' : s.flt.skipGens.contains 4 = false) :
    pickCopy (withCopy s) = (0, if entriesHeld (withCopy s) 0 then .take theCopy else .need theCopy) := by
  have k : (withCopy s).flt.skipGens.contains 4 = false := h'
  rw [pickCopy, goodCopies_withCopy s h w]
  exact pick_one s (by simp only [List.foldl, insertDown, List.filter, theCopy, k, Bool.not_false])

theorem mem_withCopy (s : State) : MemOk (withCopy s) := by
  simp only [MemOk, withCopy]
  exact memWrite_wf copy0 0 rfl

/-- The job has reached step 3 and its one tile stands at step 4: the boundary of step 4, with a provenance record due in region 2. -/
def boundary (interval digInt : Nat) (pause : Option Nat) : State := onEcho { onTile { tile0 with step := 4 } with
  job := { running.job with step := 3, digInt := digInt, pauseAt := pause, written := [(2, none)],
                            img := { ckpt := { interval := interval }, regions := [{ id := 2, kind := 4, base := 0x10000, len := 1024 }] } } }
def recovered : State := { boundary 0 0 none with flt := { running.flt with phase6 := true, failStep := 4 } }
/-- A pause is due, and a tile that the debugger has halted holds it back. -/
def heldBack : State := { boundary 0 0 (some 4) with tiles := [(0, { tile0 with step := 4 }), (1, { tile0 with step := 4, mode := .halted })] }

/-- The pause of a finished job takes effect when its context is asked for. -/
def pausing : State := withReg (.qCfg 2) (F.qCfg_EN.put 0 1) { executes [(1, 4), (1, 0), (2, 9)] (boundary 0 0 (some 3)) with
  tiles := [(0, { tile0 with mode := .done })]
  job := { (boundary 0 0 (some 3)).job with pauseQ := some 2 } }
def digesting : State := { boundary 0 0 none with job := { (boundary 0 0 none).job with digestBusy := true } }
def writingCopy : State := withCopy { boundary 0 0 none with
  job := { (boundary 0 0 none).job with ckptBusy := true, written := [] }, flt := { running.flt with writing := some snap0 } }
def savingCopy : State := withReg (.qCfg 2) (F.qCfg_EN.put 0 1) { executes [(1, 4), (1, 0), (2, 9)] (boundary 0 0 none) with
  job := { (boundary 0 0 none).job with phase := .saving, pauseQ := some 2 }, flt := { running.flt with saving := some snap0 } }

theorem slots_writingCopy : slotAddr writingCopy 0 (snap0.gen % 2) + copySize ≤ slotAddr writingCopy 1 (snap0.gen % 2) := by
  rw [show snap0.gen % 2 = 0 from rfl, writingCopy, slot_a, slot_b]; omega

theorem witness_StepBoundariesAreKept :
    (∀ s ∈ [boundary 0 0 none, boundary 4 0 none, boundary 0 2 none, boundary 0 0 (some 4), recovered, heldBack],
      MemOk s ∧ s.echo.waiting = [] ∧ s.echo.late = [] ∧ rowsOpen s s.job.step = false ∧ s.job.phase = .running ∧ s.job.step < moduleStep s ∧ s.job.ckptBusy = false ∧ s.job.digestBusy = false ∧
      s.job.suspendAt = none ∧ s.echo.replay = false ∧ echoRoom s = .put 0 ∧
      (∀ p ∈ s.job.written, ∀ r ∈ regionOf s p.1, r.kind = 4 ∧ 512 ≤ r.len)) ∧
    (∀ s ∈ [boundary 0 0 none, boundary 4 0 none, boundary 0 2 none, boundary 0 0 (some 4), heldBack], s.flt.phase6 = false) ∧
    pauseBlocked { heldBack with job := { heldBack.job with step := 4 } } = true ∧
    pauseBlocked { boundary 0 0 (some 4) with job := { (boundary 0 0 (some 4)).job with step := 4 } } = false ∧ recovered.flt.phase6 = true ∧ recovered.flt.failStep ≤ recovered.job.step + 1 ∧
    (digesting.job.digestBusy = true ∧ digesting.job.phase = .running ∧ digesting.job.ckptBusy = false ∧ digesting.job.pauseAt = none) ∧
    (savingCopy.job.phase = .saving ∧ savingCopy.flt.saving = some snap0 ∧ savingCopy.job.pauseQ = some (2#6).toNat ∧
      ((savingCopy.qp 2).busy).isSome = true ∧ qOn savingCopy 2 = true ∧ savingCopy.hif.pool = [] ∧ savingCopy.flt.heldRemaps = [] ∧ savingCopy.flt.ueSectors = []) ∧
    (pauseDue pausing = true ∧ pausing.job.pauseQ = some (2#6).toNat ∧ ((pausing.qp 2).busy).isSome = true ∧ qOn pausing 2 = true ∧
      pausing.hif.pool = [] ∧ pausing.flt.heldRemaps = [] ∧ pausing.flt.ueSectors = []) ∧
    (writingCopy.job.ckptBusy = true ∧ writingCopy.flt.writing = some snap0 ∧ writingCopy.job.phase = .running ∧
      writingCopy.job.digestBusy = false ∧ writingCopy.job.suspendAt = none ∧ writingCopy.job.pauseAt = none) ∧
    MemOk writingCopy ∧
    slotAddr writingCopy 0 (snap0.gen % 2) + copy0.length ≤ slotAddr writingCopy 1 (snap0.gen % 2) := by
  refine ⟨?_, ?_, ?_, ?_, ?_, ?_, ?_, ?_, ?_, ⟨rfl, rfl, rfl, rfl, rfl, rfl⟩, mem_withCopy _, by rw [copy0_length]; exact slots_writingCopy⟩ <;>
    (try simp only [MemOk]) <;> decide +kernel

/-- One delivery waits: of a type that does nothing, of a POST, of a counter. -/
def delivering (d : Delivery) : State := let s := onEcho running; { s with echo := { s.echo with waiting := [d] } }
def fullRing (d : Delivery) : State := let s := delivering d; { s with echo := { s.echo with seq := 64 } }
def hostRing (l : Nat) (up : Bool) : State := { running with
  echo := { running.echo with mode := 1, hostLen := l, hostTail := 0x100 }, hif := { running.hif with linkUp := up } }

theorem tail_apart {s : State} (h : echoAddr s s.echo.seq + 64 ≤ hostMem s.echo.hostTail) (a : Nat) (k : tailByte s a) : ¬ entryByte s a := by
  rintro ⟨_, l⟩
  have := k.2.1
  omega

theorem witness_EchoCommandsReleaseHeldDeliveries :
    (∀ d ∈ [({ entry := { typ := 3 } } : Delivery), { entry := { typ := 4 }, acts := [.payload (hbm 0x8000) [1, 2]] }, { entry := { typ := 7 }, acts := [.count 9 5] }],
      let s := delivering d
      MemOk s ∧ RegsOk s ∧ Settled s ∧ s.echo.replay = false ∧ s.echo.waiting = [d] ∧ s.echo.late = [] ∧ s.echo.mode ≠ 1 ∧
      s.net.barriers = [] ∧ echoRoom s = .put 0 ∧ Powered s .echoDrainLo ∧ Powered s .echoCtrl ∧
      (s.reg (.syncCnt 9)).toNat + 5 < 2 ^ 32) ∧
    (let s := fullRing { entry := { typ := 3 } }
     MemOk s ∧ RegsOk s ∧ s.echo.waiting ≠ [] ∧ s.echo.late = [] ∧ s.echo.mode ≠ 1 ∧ echoCap s = 64 ∧ echoKept s s.echo.tail = false ∧ s.echo.tail < 1 ∧ ¬ s.echo.seq < s.echo.tail + echoCap s) ∧
    (let s := fullRing { entry := { typ := 3 } }
     echoRoom { s with echo := { s.echo with full := true } } = .wait) ∧
    (∀ s ∈ [hostRing 16 true, hostRing 0 true, hostRing 16 false], MemOk s ∧ RegsOk s ∧ jobLoaded s = true ∧ s.echo.mode = 1 ∧ s.echo.late = [] ∧
      echoAddr s s.echo.seq + 64 ≤ hostMem s.echo.hostTail) ∧
    (∀ s ∈ [hostRing 16 true, hostRing 0 true, hostRing 16 false], ∀ a, tailByte s a → ¬ entryByte s a) ∧
    running.echo.mode ≠ 1 ∧ ready.job.phase = .none ∧
    (∀ b, hbm 0x8000 ≤ b ∧ b < hbm 0x8000 + 2 → ¬ echoSlot (delivering { entry := { typ := 4 } }) b) := by
  refine ⟨?_, ?_, ?_, ?_, fun s h => ?_, ?_, ?_, fun b hb h => ?_⟩
  · simp only [MemOk, RegsOk, Settled, Powered]; decide +kernel
  · simp only [MemOk, RegsOk]; decide +kernel
  · decide +kernel
  · simp only [MemOk, RegsOk]; decide +kernel
  · refine tail_apart ?_
    revert s; decide +kernel
  · decide +kernel
  · decide +kernel
  · have : echoAddr (delivering { entry := { typ := 4 } }) (delivering { entry := { typ := 4 } }).echo.seq + 64 ≤ hbm 0x8000 := by decide +kernel
    rcases h with h | h
    · have := h.2; have := hb.1; omega
    · exact no_tail (by decide) _ h

/-- A fault waits for its diagnosis. -/
def faulty (f : FaultRec) (s : State) : State := { s with flt := { s.flt with pending := [f] } }
def holding (s : State) : State := withReg .fltCtrl (F.fltCtrl_HOLD.put 0 1) s
def held (s : State) : State := withReg .fltStatus (F.fltStatus_STATE.put 0 3) s

/-- A fault that is held for the host's word. -/
def heldFault (s : State) : State := held { s with flt := { s.flt with cur := [{ code := 0x89 }] } }

/-- Entry 0 of six has left the ring, so that the copy cannot be taken without the host. -/
def drained : State := { running with echo := { running.echo with seq := 6, tail := 5 } }
def copyLost : State := withCopy drained

/-- The host is asked for entries of generation 9. -/
def asking (s : State) : State := { s with flt := { s.flt with need := some (9, 0, 0) } }
def skipping (s : State) : State := { s with flt := { s.flt with need := none, skipGens := [9] } }
def spmUe : FaultRec := { code := 0x88, bit := F.tileErr_SPM_UE.lo, die := 1, loc := 0x123 }
def rowFull : State := withReg (.dieRowmap 1 2) (F.dieRowmap_NOSPARE.put ((running.reg (.dieRowmap 1 2))) 1) running

/-- A sector of stack 1 cannot be corrected, in a region that the host rewrites. -/
def lostSector : State := { running with
  flt := { running.flt with ueSectors := [0x1000000040] }
  job := { running.job with hostCkpt := true, img := { regions := [{ id := 3, base := 0x1000000000, len := 0x1000 }] } } }

/-- A remap of stack 1 waits for the host's word. -/
def heldRemap : State := held (stackUp { running with flt := { running.flt with heldRemaps := [(1, 5)] } })

/-- A state whose selection keeps nothing of an earlier recovery. -/
def afresh (s : State) : State := { s with flt := { s.flt with skipGens := [] } }

theorem held_withCopy (s : State) : heldFault (withCopy s) = withCopy (heldFault s) := by simp only [heldFault, held, withReg, withCopy]

theorem asking_withCopy (s : State) : asking (withCopy s) = withCopy (asking s) := by simp only [asking, withCopy]

theorem skipping_withCopy (s : State) : skipping (withCopy s) = withCopy (skipping s) := by simp only [skipping, withCopy]

theorem pick_drained : pickCopy copyLost = (0, .need theCopy) := by
  rw [copyLost, pick_withCopy _ rfl rfl rfl, if_neg (by decide +kernel)]

theorem pick_skipping : pickCopy (skipping (asking copyLost)) = (0, .need theCopy) := by
  rw [copyLost, asking_withCopy, skipping_withCopy, pick_withCopy _ rfl rfl rfl, if_neg (by decide +kernel)]

theorem witness_FaultsAreDiagnosedAndRepaired :
    (∀ s ∈ [running, holding running, held running, rowFull, lostSector, heldRemap, asking running], RegsOk s ∧ MemOk s ∧ jobLoaded s = true ∧
      s.flt.mcAbsent = false ∧ s.flt.ended = false ∧ s.job.count ≤ 1 ∧ s.flt.mended = [] ∧ s.flt.rebuild = [] ∧ s.flt.cur = [] ∧
      Powered s .fltCtrl) ∧
    (∀ s ∈ [copyLost, heldFault copyLost, asking copyLost], RegsOk s ∧ MemOk s ∧ jobLoaded s = true ∧ s.flt.mended = []) ∧
    (running.flt.pending = [] ∧ (∀ f, (faulty f running).flt.pending = [f]) ∧
      treatment running { code := 0 } 0 = .peers ∧ treatment running { code := 0x93 } 0 = .inspect ∧
      (∀ f ∈ [({ code := 0x89 } : FaultRec), { code := 0x8D }, { code := 0x87, die := 1 }, { code := 0x86, loc := 1 }, spmUe],
        treatment running f 0 = .recover) ∧
      treatment running { code := 0x88, bit := F.tileErr_SPM_GUARD.lo } 0 = .stop 3 ∧
      treatment { running with flt := { running.flt with recent := [(0x8A, 1, 0)] } } { code := 0x8A, die := 1 } 5 = .stop 3) ∧
    (running.flag .fltCtrl F.fltCtrl_HOLD = false ∧ (holding running).flag .fltCtrl F.fltCtrl_HOLD = true) ∧
    (pickCopy (afresh running) = (0, .nothing) ∧ pickCopy (afresh copyLost) = (0, .need theCopy)) ∧
    (spmUe.loc = (0x123#11).toNat ∧ running.flag (.dieRowmap 1 2) F.dieRowmap_NOSPARE = false ∧ topGen running = 0 ∧
      physRow running 1 2 = 2 ∧ physCol running 1 2 3 ≠ running.fget (.dieRowmap 1 2) F.dieRowmap_UNMAPPED ∧ physRow rowFull 1 2 = 2 ∧
      rowFull.flag (.dieRowmap 1 2) F.dieRowmap_NOSPARE = true ∧ physCol rowFull 1 2 3 ≠ rowFull.fget (.dieRowmap 1 2) F.dieRowmap_UNMAPPED ∧
      rowFull.fget .glbId F.glbId_GRADE ≠ 1 ∧ ∀ i < 16, rowRetired rowFull 1 i = false) ∧
    (ueOf lostSector 1 = [0x1000000040] ∧ lostSector.flag (.hbmSpare0 1) F.hbmSpare0_USED = false ∧ lostSector.job.hostCkpt = true ∧
      (lostSector.job.img.regions.find? fun r => r.base ≤ 0x1000000040 && decide (0x1000000040 < r.base + r.len)).map Region.kind = some 0) ∧
    (inHold running = false ∧ inHold (held running) = true ∧ inHold heldRemap = true ∧ heldRemap.flt.heldRemaps = [((1#5).toNat, 5)] ∧
      stackState heldRemap 1 = 2 ∧ heldRemap.flag (.hbmSpare0 1) F.hbmSpare0_USED = false ∧ running.flt.heldRemaps = []) ∧
    (∀ s ∈ [running, copyLost], inHold (heldFault s) = true ∧ (heldFault s).flt.heldRemaps = [] ∧ (heldFault s).flt.cur = [{ code := 0x89 }] ∧
      (heldFault s).flt.rebuild = []) ∧
    (pickCopy (heldFault running) = (0, .nothing) ∧ pickCopy (heldFault copyLost) = (0, .need theCopy)) ∧
    ((asking running).flt.need = some (9, 0, 0) ∧ pickCopy (skipping (asking running)) = (0, .nothing) ∧
      (asking copyLost).flt.need = some (9, 0, 0) ∧ pickCopy (skipping (asking copyLost)) = (0, .need theCopy) ∧
      (asking running).net.recovering = false) := by
  have m : ∀ s ∈ [copyLost, heldFault copyLost, asking copyLost], MemOk s := fun s h => by
    simp only [List.mem_cons, List.not_mem_nil, or_false] at h
    rcases h with rfl | rfl | rfl <;> simp only [copyLost, held_withCopy, asking_withCopy, mem_withCopy]
  have k : pickCopy (afresh copyLost) = (0, .need theCopy) := by rw [afresh, keep_skip (by rfl)]; exact pick_drained
  have l : pickCopy (heldFault copyLost) = (0, .need theCopy) := by
    rw [copyLost, held_withCopy, pick_withCopy _ rfl rfl rfl, if_neg (by decide +kernel)]
  refine ⟨?_, fun s h => ⟨?_, m s h, ?_, ?_⟩, ⟨?_, fun _ => rfl, ?_⟩, ?_, ⟨?_, k⟩, ?_, ?_, ?_, ?_, ⟨?_, l⟩, ⟨?_, ?_, ?_, pick_skipping, ?_⟩⟩ <;>
    (try simp only [RegsOk, MemOk, Powered]) <;> (try revert s) <;> decide +kernel

/-- A stall with a good copy whose entries are all held. -/
def restorable : State := withCopy (onEcho (faulty { code := 0x89 } { running with tiles := [(0, { tile0 with step := 4 })] }))

theorem witness_RecoveryRestoresTheCheckpoint :
    MemOk restorable ∧ RegsOk restorable ∧ jobLoaded restorable = true ∧ restorable.flt.mcAbsent = false ∧ restorable.flt.ended = false ∧
    restorable.flt.pending = [{ code := 0x89 }] ∧ restorable.flt.mended = [] ∧ restorable.flt.cur = [] ∧ restorable.flt.rebuild = [] ∧ restorable.job.count ≤ 1 ∧
    restorable.flag .fltCtrl F.fltCtrl_HOLD = false ∧ treatment restorable { code := 0x89 } 0 = .recover ∧
    pickCopy { restorable with flt := { restorable.flt with skipGens := [] } } = (0, .take theCopy) ∧
    readBody restorable.job.img restorable.flt.copies (restorable.bytes (theCopy.addr + 64) (bodyLen restorable.job.img)) = some snap0 ∧
    (restorable.flt.phase6 = false ∧ moduleStep restorable ≤ leAt (restorable.bytes theCopy.addr 64) 12 6 ∧ snap0.srcPos = none ∧
      restorable.job.img.fe.mode = 0 ∧ restorable.echo.mode ≠ 1 ∧ restorable.echo.waiting = [] ∧ restorable.echo.late = [] ∧
      restorable.echo.seq < restorable.echo.tail + echoCap restorable ∧ restorable.echo.seq = theCopy.seq ∧
      ∀ p ∈ snap0.regs, savedReg p.1 = true) := by
  have l : bodyLen restorable.job.img = Config.hwStateBytes 0 := by simp [bodyLen, copyBytes, restorable, withCopy, ckImg]
  have b : restorable.bytes (theCopy.addr + 64) (bodyLen restorable.job.img) = snapBody ckImg snap0 := by
    rw [l, show theCopy.addr + 64 = 64 from rfl, restorable, bytes_copy _ (by rw [copySize]), copy0, List.drop_left' (header_length _ _), List.take_of_length_le (by rw [body0_length])]
  have t : leAt (restorable.bytes theCopy.addr 64) 12 6 = 4 := by
    rw [show theCopy.addr = 0 from rfl, restorable, bytes_copy _ (by rw [copySize]; omega)]
    simp [copy0, leAt, header_length]
    simp [copyHeader, leBytes, ascii, ofLe, snap0]
  refine ⟨mem_withCopy _, ?_, rfl, rfl, rfl, rfl, rfl, rfl, rfl, by decide, ?_, ?_, ?_, ?_, rfl, ?_, rfl, rfl, ?_, rfl, rfl, ?_, rfl, ?_⟩
  · simp only [RegsOk]; decide +kernel
  · decide +kernel
  · decide +kernel
  · rw [keep_skip (by rfl), restorable, pick_withCopy _ rfl rfl rfl]; rfl
  · rw [b]; simp [readBody, restorable, withCopy]
  · rw [t]; decide +kernel
  · decide +kernel
  · decide +kernel
  · decide +kernel

/-! A firmware image of 64 KiB of zeros, whose signature the verifier is asked to accept. -/

def zeros (n : Nat) : List Byte := List.replicate n 0
def fwHead : List Byte := ascii "CKS8MCFW" ++ leBytes 4 7 ++ leBytes 4 0x10000 ++ leBytes 32 0 ++ digestBytes (sha3 (zeros 0x10000))
def fwPage : List Byte := fwHead ++ zeros 4016
def fwMem (a : Nat) : List Host.Cell := memWrite [] a fwHead
def fwSigned : Prop := Config.mldsaVerify ((fwPage.drop 80).take 1312) (sha3 (fwPage.take 1392)) ((fwPage.drop 1392).take 2420) = true

theorem fwHead_length : fwHead.length = 80 := by simp [fwHead, leBytes_length, digestBytes_length, ascii]

theorem fwMem_wf (a : Nat) : Memory.wf (fwMem a) = true := memWrite_wf fwHead a rfl

theorem memRead_get (m : List Host.Cell) (a n j : Nat) (h : j < (memRead m a n).length) : (memRead m a n)[j] = memGet m (a + j) := by
  simp only [memRead, List.getElem_map, List.getElem_range]

theorem memRead_size (m : List Host.Cell) (a n : Nat) : (memRead m a n).length = n := by rw [memRead, List.length_map, List.length_range]

theorem fwMem_head (a : Nat) : memRead (fwMem a) a 4096 = fwPage := by
  apply List.ext_getElem
  · rw [memRead_size, fwPage, List.length_append, fwHead_length, zeros, List.length_replicate]
  · intro j h1 h2
    rw [memRead_get]
    simp only [fwPage]
    by_cases h : j < 80
    · rw [fwMem, memGet_memWrite_in fwHead a (by rw [fwHead_length]; exact h) rfl, List.getElem_append_left]
    · rw [fwMem, memGet_memWrite_out fwHead a rfl (by rw [fwHead_length]; omega), List.getElem_append_right (by rw [fwHead_length]; omega)]
      exact (List.getElem_replicate _).symm

theorem fwMem_else (a : Nat) {b n : Nat} (h : b + n ≤ a ∨ a + 80 ≤ b) : memRead (fwMem a) b n = zeros n := by
  apply List.ext_getElem
  · rw [memRead_size, zeros, List.length_replicate]
  · intro j h1 h2
    rw [memRead_size] at h1
    rw [memRead_get, fwMem, memGet_memWrite_out fwHead a rfl (by rw [fwHead_length]; omega)]
    exact (List.getElem_replicate _).symm

theorem ofBe_digestBytes (x : Digest) : ofBe (digestBytes x) = x.toNat := by
  simp only [ofBe, digestBytes, beBytes, List.reverse_reverse, ofLe_leBytes]; omega

/-- The checks of R411 in their order, on an image whose fields are known. -/
theorem firmware_accepted {rd : Nat → Nat → List Byte} {keys : Tab Nat Digest} {revoked : Nat} {len : Option Nat} {H K Z : List Byte} (e : rd 0 4096 = H)
    (n1 : leAt H 12 4 = 0x10000) (n2 : leAt H 16 1 = 0) (n3 : H.take 8 = ascii "CKS8MCFW") (k : (H.drop 80).take 1312 = K)
    (d : (H.drop 48).take 32 = digestBytes (sha3 Z)) (b : rd 4096 0x10000 = Z) (hk : keys = [(0, sha3 K)]) (r : revoked = 0)
    (hl : len.all (· = 0x11000) = true) (v : Config.mldsaVerify K (sha3 (H.take 1392)) ((H.drop 1392).take 2420) = true) :
    firmwareErr rd keys revoked len false = 0 := by
  subst hk r
  simp only [firmwareErr, e, n1, n2, n3, k, d, b, v, ofBe_digestBytes]
  simp [tfind, hl]

/-- The fields of the image's first page. -/
theorem page_fields : leAt fwPage 12 4 = 0x10000 ∧ leAt fwPage 16 1 = 0 ∧ fwPage.take 8 = ascii "CKS8MCFW" ∧
    (fwPage.drop 80).take 1312 = zeros 1312 ∧ (fwPage.drop 48).take 32 = digestBytes (sha3 (zeros 0x10000)) := by
  have n : (ascii "CKS8MCFW" ++ leBytes 4 7 ++ leBytes 4 0x10000 ++ leBytes 32 0).length = 48 := by decide +kernel
  have l (i k : Nat) (h : i + k ≤ 48) : (fwPage.drop i).take k = ((ascii "CKS8MCFW" ++ leBytes 4 7 ++ leBytes 4 0x10000 ++ leBytes 32 0).drop i).take k := by
    rw [fwPage, fwHead, List.append_assoc (ascii "CKS8MCFW" ++ leBytes 4 7 ++ leBytes 4 0x10000 ++ leBytes 32 0),
      List.drop_append_of_le_length (by omega), List.take_append_of_le_length (by rw [List.length_drop]; omega)]
  refine ⟨by rw [leAt, l 12 4 (by omega)]; decide +kernel, by rw [leAt, l 16 1 (by omega)]; decide +kernel, ?_, ?_, ?_⟩
  · have := l 0 8 (by omega)
    rw [List.drop_zero, List.drop_zero] at this
    rw [this]; decide +kernel
  · rw [fwPage, List.drop_left' fwHead_length, zeros, List.take_replicate]; rfl
  · rw [fwPage, fwHead, List.append_assoc (ascii "CKS8MCFW" ++ leBytes 4 7 ++ leBytes 4 0x10000 ++ leBytes 32 0), List.drop_left' n,
      List.take_left' (digestBytes_length _)]

/-- The image in memory at `a` passes. -/
theorem image_accepted (h : fwSigned) {rd : Nat → Nat → List Byte} (a : Nat) {keys : Tab Nat Digest} {len : Option Nat}
    (r : ∀ o n, rd o n = memRead (fwMem a) (a + o) n) (hk : keys = [(0, sha3 (zeros 1312))]) (hl : len.all (· = 0x11000) = true) :
    firmwareErr rd keys 0 len false = 0 := by
  obtain ⟨n1, n2, n3, k, d⟩ := page_fields
  rw [fwSigned, k] at h
  exact firmware_accepted (by rw [r]; exact fwMem_head a) n1 n2 n3 k d (by rw [r]; exact fwMem_else a (.inr (by omega))) hk rfl hl h

def suspended (s : State) : State := { s with job := { s.job with phase := .suspended } }
def testingAll (s : State) : State := { s with flt := { s.flt with testing := 7, copies := [snap0] } }
def mcGone (reset : Option Nat) (s : State) : State := { s with flt := { s.flt with mcAbsent := true, mcLastReset := reset } }
def mcBefore (s : State) : State := { s with flt := { s.flt with mcLastReset := some 100 } }

/-- The flash holds the image where the ROM puts it, and the controller is away. -/
def flashed : State := { mcGone none ready with
  mem := fwMem (flash 0x10000)
  otp := { ready.otp with keys := [(0, sha3 (zeros 1312))] }
  flt := { (mcGone none ready).flt with copyBad := true } }

theorem flash_add (a o : Nat) : flash (a + o) = flash a + o := by simp only [flash]; omega

theorem flashed_region : flashRegion flashed 2 = (0x10000, 0x401000) := by
  have e : flashHeader flashed = zeros 68 := fwMem_else (flash 0x10000) (.inl (by decide))
  rw [flashRegion, e]; decide +kernel

theorem flashed_accepted (h : fwSigned) : firmwareErr (fun o n => flashed.bytes (flash ((flashRegion flashed 2).1 + o)) n) flashed.otp.keys
    (flashed.fget .secKeyslot F.secKeyslot_REVOKED) none false = 0 := by
  rw [show flashed.fget .secKeyslot F.secKeyslot_REVOKED = 0 by decide +kernel]
  exact image_accepted h (flash 0x10000) (fun o n => by rw [flashed_region, flash_add]; rfl) rfl rfl

theorem flashed_mem : MemOk flashed := fwMem_wf (flash 0x10000)

/-- The controller is away while faults, entropy requests or a mailbox command wait. -/
def mcAway (phase6 : Bool) (cmd : Option Nat) : State := { mcGone none running with
  flt := { (mcGone none running).flt with phase6 := phase6, pending := [{ code := 0x89 }] }
  hif := { running.hif with mbxPending := cmd } }

/-- The same, with the copy of the firmware hit. -/
def mcHit : State := { mcAway false none with flt := { (mcAway false none).flt with copyBad := true } }

theorem witness_SelftestsAndControllerResetsAct (h : fwSigned) :
    (∀ s ∈ [ready, onTile tile0, doneJob, testingAll ready, testingAll (suspended ready), mcGone none ready, mcBefore ready],
      RegsOk s ∧ Powered s .fltSelftest) ∧ ready.job.phase = .none ∧ (onTile tile0).job.phase ≠ .none ∧ allDone (onTile tile0) = false ∧
    allDone doneJob = true ∧ doneJob.job.phase ≠ .none ∧ ready.flt.testing = 0 ∧ (testingAll ready).flt.testing ≠ 0 ∧
    (testingAll (suspended ready)).job.phase = .suspended ∧ (testingAll ready).job.phase ≠ .suspended ∧ (testingAll (suspended ready)).flt.copies.getLast? = some snap0 ∧
    (∀ p ∈ snap0.regs, savedReg p.1 = true) ∧ ready.flag (.dieRowmap 1 2) F.dieRowmap_NOSPARE = false ∧
    physCol ready 1 2 3 ≠ ready.fget (.dieRowmap 1 2) F.dieRowmap_UNMAPPED ∧ 3 ∉ ready.boot.table.badStacks ∧
    (mcGone none ready).flt.mcAbsent = true ∧ ready.flt.mcAbsent = false ∧ ready.flt.mcLastReset = none ∧
    (mcBefore ready).flt.mcLastReset = some 100 ∧ (100 + 59999 : Nat) < 100 + 60000 ∧ ¬ (100 + 60000 : Nat) < 100 + 60000 ∧
    (∀ s ∈ [mcAway false none, mcAway false (some 0), mcAway true none, mcAway true (some 0)], RegsOk s ∧ MemOk s ∧ s.flt.mcAbsent = true ∧
      s.flag .fltMc F.fltMc_STOPPED = false ∧ s.flt.notes = [] ∧ s.net.mcFrames = [] ∧ s.net.mcLost = [] ∧ s.net.recovering = false ∧ s.flt.copyBad = false) ∧
    (mcAway false none).flt.phase6 = false ∧ (mcAway true none).flt.phase6 = true ∧ (mcAway false none).hif.mbxPending = none ∧
    (mcAway false (some 0)).hif.mbxPending = some 0 ∧
    firmwareErr (fun o n => mcHit.bytes (flash ((flashRegion mcHit 2).1 + o)) n) mcHit.otp.keys 0 none false ≠ 0 ∧
    (MemOk flashed ∧ RegsOk flashed ∧ flashed.flt.mcAbsent = true ∧ flashed.flag .fltMc F.fltMc_STOPPED = false ∧ flashed.flt.phase6 = false ∧ mcHit.flt.copyBad = true ∧
      flashed.flt.copyBad = true ∧ flashed.hif.mbxPending = none ∧
      firmwareErr (fun o n => flashed.bytes (flash ((flashRegion flashed 2).1 + o)) n) flashed.otp.keys (flashed.fget .secKeyslot F.secKeyslot_REVOKED)
        none false = 0) := by
  refine ⟨?_, ?_, ?_, ?_, ?_, ?_, ?_, ?_, ?_, ?_, ?_, ?_, ?_, ?_, ?_, ?_, ?_, ?_, ?_, ?_, ?_, ?_, ?_, ?_, ?_, ?_, ?_,
    ⟨flashed_mem, ?_, rfl, ?_, rfl, rfl, rfl, rfl, flashed_accepted h⟩⟩ <;> (try simp only [RegsOk, MemOk, Powered]) <;> decide +kernel

/-- Queue 2 is enabled with 16 places each, its ring at host address 0 holds `b` as its first byte, and its tail stands at 1. -/
def queued (b : Nat) (vec : Nat) : State :=
  ({ withReg (.qCfg 2) (F.qCfg_VEC.put (F.qCfg_EN.put (F.qCfg_CQSZ.put (F.qCfg_SQSZ.put 0 4) 4) 1) vec) ready with
     hif := { ready.hif with linkUp := true, queues := [(2, { tail := 1, ready := [{ queue := 2, cid := 9, head := 1, result0 := 0, code := 0, typ := 0 }] })] } } : State).after
    (store (hostMem 0) [BitVec.ofNat 8 b])
def asleep : State := withReg .pwrState 3 ready
def answering (i : Nat) : State := withReg (.svcCtrl 1) 2 { onEcho (withReg .glbStatus 1 running) with
  rows := [(1, { len := 4, decided := true, own := 2, kept := [(2, 5), (3, 6)], rm := BitVec.ofNat 32 i })] }

theorem witness_DoorbellsAndQueuesAct :
    (∀ s ∈ [ready, queued 1 0, queued 6 64, queued 0 0, queued 7 0, State.reset, asleep], MemOk s ∧ RegsOk s ∧ s.pwr.req = none) ∧
    pstate ready = 0 ∧ isReady ready = true ∧ isReady State.reset = false ∧ pstate State.reset = 0 ∧ 3 ≤ pstate asleep ∧
    qOn (queued 1 0) 2 = true ∧ qOn ready 2 = false ∧ sqSize (queued 1 0) 2 = 16 ∧ cqSize (queued 1 0) 2 = 16 ∧
    (∀ b ∈ [0, 1, 6, 7], ((queued b 0).bytes (hostMem ((queued b 0).pair (.qSqbaseLo 2) (.qSqbaseHi 2) + 64 * 0)) 64).head? = some (BitVec.ofNat 8 b) ∧
      ((queued b 0).qp 2).busy = none ∧ ((queued b 0).qp 2).tail ≠ ((queued b 0).qp 2).head ∧ (queued b 0).hif.linkUp = true) ∧
    cqRoom (queued 1 0) 2 = true ∧ ((queued 1 0).qp 2).ready ≠ [] ∧ (ready.qp 2).ready = [] ∧
    (answering 0).fget (.svcCtrl 1) F.svcCtrl_STATE = 2 ∧ ((answering 0).row 1).decided = true ∧ isReady (answering 0) = true ∧
    pstate (answering 0) = 0 ∧ (answering 0).pwr.req = none ∧ (answering 0).fget (.svcCtrl 2) F.svcCtrl_STATE ≠ 2 ∧ 384 ≤ (384#9).toNat ∧ Settled (answering 0) ∧
    ((answering 0).row 1).kept.find? (fun x => x.1 = 2 && decide (2 < ((answering 0).row 1).len)) = some (2, 5) ∧
    ((answering 0).row 1).kept.find? (fun x => x.1 = 3 && decide (3 < ((answering 0).row 1).len)) = some (3, 6) ∧
    ((answering 0).row 1).kept.find? (fun x => x.1 = 1 && decide (1 < ((answering 0).row 1).len)) = none ∧
    Powered ready (.qCfg 2) ∧ 4 ≤ F.qCfg_SQSZ.get ((queued 1 0).reg (.qCfg 2)) ∧ 4 ≤ F.qCfg_CQSZ.get ((queued 1 0).reg (.qCfg 2)) ∧
    ¬ 4 ≤ F.qCfg_SQSZ.get 0 ∧ ready.pair (.qSqbaseLo 2) (.qSqbaseHi 2) % 4096 = 0 ∧ (ready.qp 2) = {} ∧ ready.job.pauseQ = none ∧
    (∀ j : BitVec 2, (ready.slot j.toNat).loading = false) ∧
    ((executes [(1, 3), (1, 0), (2, 9)] (queued 1 0)).qp 2).ready = [] ∧ ((executes [(1, 3), (1, 0), (2, 9)] (queued 1 0)).qp 2).busy.isSome = true ∧
    qOn (executes [(1, 3), (1, 0), (2, 9)] (queued 1 0)) 2 = true ∧ Live (answering 0) := by
  have h : Live (answering 0) := live_of (by decide +kernel)
  simp only [h, and_true, RegsOk, Powered, MemOk, Settled]; decide +kernel

/-- A transfer of 64 bytes between host address 0x1000 and HBM 0x8000, with counter 9. -/
def moving (kind tries : Nat) : State := onEcho { running with
  hif := { running.hif with linkUp := true, transfers := [{ kind := kind, ring := 2, host := 0x1000, len := 64, addr := 0x8000, region := 5, prov := 0, counter := some 9, stream := none, tries := tries }] } }
def waitingDma : State := { dmaState 64 with tiles := [(0, { (dmaState 64).tile 0 with waits := [.dma 0 { p0 := 2, p1 := 5 }] })] }

/-- Replay reads its source from host memory, and a read has been reissued `n` times. -/
def readsAgain (n : Nat) : State := { running with echo := { running.echo with replay := true, src := hostMem 0x1000, srcLen := 3, tries := n } }

theorem witness_TransfersCompleteOrFail :
    (∀ k ∈ [0, 1, 2], MemOk (moving k 0) ∧ RegsOk (moving k 0) ∧ (moving k 0).hif.linkUp = true ∧ (moving k 0).hif.transfers[0]?.isSome = true ∧
      Room 2 (moving k 0) ∧ Settled (moving k 0) ∧ ((moving k 0).reg (.syncCnt 9)).toNat + 1 < 2 ^ 32 ∧ (moving k 0).net.barriers = [] ∧
      tget (moving k 0).echo.given 0 9 = 0 ∧ (∀ t ∈ (moving k 0).hif.transfers[0]?, t.counter = (some 9#13).map BitVec.toNat ∧ t.prov = 0)) ∧
    (∀ n ∈ [0, 3], sourceInHost (readsAgain n) = true ∧ (readsAgain n).echo.tries = n ∧ MemOk (readsAgain n) ∧ RegsOk (readsAgain n)) ∧
    sourceInHost (moving 0 0) = false ∧
    (moving 0 0).hif.transfers[1]? = none ∧ ready.hif.linkUp = false ∧ (∀ t ∈ (moving 0 2).hif.transfers[0]?, t.tries < 3) ∧
    (∀ t ∈ (moving 0 3).hif.transfers[0]?, 3 ≤ t.tries) ∧ Powered waitingDma (.dmaTail 2) ∧
    ((waitingDma.tiles.map Prod.fst).Nodup ∧ (∀ x ∈ waitingDma.tiles, x.2.ctl = none ∧ (x.1 ≠ 0 → x.2.waits = [])) ∧
      (waitingDma.tile 0).waits = [.dma 0 { p0 := 2, p1 := 5 }] ∧ waitingDma.flag (.dmaCfg 2) F.dmaCfg_EN = true ∧
      tget waitingDma.hif.ringNext 0 2 ≠ 1 % ringSize waitingDma 2 ∧
      descriptorOk 0 (waitingDma.bytes (hostMem (waitingDma.pair (.dmaBaseLo 2) (.dmaBaseHi 2) + 32 * 0)) 32) (regionOf waitingDma 5) = true ∧
      MemOk waitingDma ∧ RegsOk waitingDma) ∧
    Live (moving 0 0) ∧ (∀ b, hbm 0x8000 ≤ b ∧ b < hbm 0x8000 + 64 → ¬ echoSlots 2 (moving 0 0) b) ∧
    (∀ i ∈ [1, 2], Live (moving i 0) ∧ ∀ b, hostMem 0x1000 ≤ b ∧ b < hostMem 0x1000 + 64 → ¬ echoSlots 2 (moving i 0) b) := by
  have h : Live (moving 0 0) := live_of (by decide)
  have k : ∀ b, hbm 0x8000 ≤ b ∧ b < hbm 0x8000 + 64 → ¬ echoSlots 2 (moving 0 0) b := fun b hb => slots_apart (hbm 0x8000) (by decide) hb.1
  have l : ∀ i ∈ [1, 2], Live (moving i 0) ∧ ∀ b, hostMem 0x1000 ≤ b ∧ b < hostMem 0x1000 + 64 → ¬ echoSlots 2 (moving i 0) b := fun i hi =>
    ⟨live_of (by revert i; decide), fun b hb => slots_apart (hostMem 0x1000) (by revert i; decide) hb.1⟩
  refine ⟨?_, ?_, ?_, ?_, ?_, ?_, ?_, ?_, ?_, h, k, l⟩ <;> (try simp only [RegsOk, Powered, MemOk, Settled, Room]) <;> decide +kernel

/-! The mailbox. -/

def recovery (s : State) : State := withReg .glbStatus (F.glbStatus_RECOVERY.put 0 1) (withReg .bootStatus 2 s)
def args (as_ : List U32) (s : State) : State :=
  { s with regs := (as_.zipIdx.map fun p => (Reg.mbxData (BitVec.ofNat 6 p.2), p.1)) ++ s.regs }
def busyBox : State := withReg .mbxStatus (F.mbxStatus_BUSY.put 0 1) ready

/-- The staging area holds the image. -/
def staged : State := { args [0x11000, 0] (recovery ready) with
  mem := fwMem (staging 0), otp := { ready.otp with keys := [(0, sha3 (zeros 1312))] } }

theorem staging_add (o : Nat) : staging 0 + o = staging o := by simp only [staging]; omega

theorem staged_accepted (h : fwSigned) :
    firmwareErr (fun o n => staged.bytes (staging o) n) staged.otp.keys (staged.fget .secKeyslot F.secKeyslot_REVOKED) (some (mbxArg staged 0)) false = 0 := by
  rw [show staged.fget .secKeyslot F.secKeyslot_REVOKED = 0 by decide +kernel, show mbxArg staged 0 = 0x11000 by decide +kernel]
  exact image_accepted h (staging 0) (fun o n => by rw [staging_add]; rfl) rfl rfl

theorem staged_mem : MemOk staged := fwMem_wf (staging 0)

/-- The recovery waits for entries from `w` on, with `e` of the log kept and three attempts made at generation 4. -/
def awaiting (w : Nat × Nat × Nat) (e : Echo) : State := withReg .fltStatus (F.fltStatus_ATTEMPT.put 0 3) { ready with
  echo := e, flt := { ready.flt with need := some w, attemptGen := 4 } }
def awaitingCopy : State := withCopy (awaiting (4, 0, 0) {})

/-- The same with no other members' copies known, so that the body of the copy is parsed. -/
def parsing (s : State) : State := { s with flt := { s.flt with copies := [] } }
def awaitingParse : State := parsing awaitingCopy
def unparsed : Prop := Config.stateParse ((snapBody ckImg snap0).take (Config.hwStateBytes 0)) = none

theorem awaiting_body : awaitingCopy.bytes (theCopy.addr + 64) (bodyLen awaitingCopy.job.img) = snapBody ckImg snap0 := by
  have l : bodyLen awaitingCopy.job.img = Config.hwStateBytes 0 := by simp [bodyLen, copyBytes, awaitingCopy, withCopy, ckImg]
  rw [l, show theCopy.addr + 64 = 64 from rfl, awaitingCopy, bytes_copy _ (by rw [copySize]), copy0, List.drop_left' (header_length _ _),
    List.take_of_length_le (by rw [body0_length])]

theorem parsing_same (s : State) (a n : Nat) : (parsing s).bytes a n = s.bytes a n ∧ (parsing s).job = s.job ∧ (parsing s).flt.copies = [] ∧
    goodCopies (parsing s) = goodCopies s ∧ (MemOk s → MemOk (parsing s)) := ⟨rfl, rfl, rfl, rfl, id⟩

theorem witness_MailboxCommandsRunAndEventsPop (h : fwSigned) (n : unparsed) :
    (∀ s ∈ [ready, busyBox, mcGone none ready, recovery ready, args [0, 0, 1024] ready, args [1, 0, 1024] ready, args [0, 0, 8, 0] (recovery ready),
      args [4] ready, args [65] ready], MemOk s ∧ RegsOk s ∧ Powered s .mbxCmd ∧ Powered s (.mbxEvt 0)) ∧
    busyBox.flag .mbxStatus F.mbxStatus_BUSY = true ∧ ready.flag .mbxStatus F.mbxStatus_BUSY = false ∧ ready.flt.mcAbsent = false ∧
    (mcGone none ready).flt.mcAbsent = true ∧ inRecovery ready = false ∧ inRecovery (recovery ready) = true ∧
    (mbxArg (args [0, 0, 1024] ready) 0 % 4096 = 0 ∧ mbxArg (args [0, 0, 1024] ready) 1 = 2 ^ (10 + 0) ∧ mbxArg (args [1, 0, 1024] ready) 0 % 4096 ≠ 0) ∧
    (mbxArg (args [0, 0, 224, 0] ready) 1 ≤ 224 ∧ ¬ mbxArg (args [0, 0, 225, 0] ready) 1 ≤ 224) ∧
    firmwareErr (fun o n => (recovery ready).bytes (staging o) n) (recovery ready).otp.keys 0 (some (mbxArg (recovery ready) 0)) false ≠ 0 ∧
    (MemOk staged ∧ inRecovery staged = true ∧ Powered staged .mbxCmd ∧ staged.flag .bootCtrl F.bootCtrl_FW_WRITE = false ∧
      (withReg .bootCtrl (F.bootCtrl_FW_WRITE.put 0 1) ready).flag .bootCtrl F.bootCtrl_FW_WRITE = true ∧
      firmwareErr (fun o n => staged.bytes (staging o) n) staged.otp.keys (staged.fget .secKeyslot F.secKeyslot_REVOKED) (some (mbxArg staged 0)) false = 0) ∧
    (ready.flt.rebuild = [] ∧ chunkOk ready 0 = true ∧ ready.job.count ≤ 1 ∧ (pickCopy ready).2 = .nothing ∧
      chunkOk { ready with job := { ready.job with chunks := [(0, 64, 0)] } } 0 = false ∧
      mbxArg (args [0, 0, 64] ready) 0 = 0 ∧ mbxArg (args [0, 0, 64] ready) 1 = 64) ∧
    (ready.flt.need = none ∧ supplyOk ready 0 5 1 = false ∧ supplyOk ready 0 0 1 = true) ∧
    (∀ x ∈ [awaiting (4, 0, 0) { seq := 6, tail := 5 }, awaiting (4, 0, 0) {}], RegsOk x ∧ MemOk x ∧ Powered x .mbxCmd ∧ inRecovery x = false ∧
      supplyOk x 0 0 1 = true ∧ x.flt.need = some (4, 0, 0)) ∧
    entriesHeld { awaiting (4, 0, 0) { seq := 6, tail := 5 } with echo := { seq := 6, tail := 5, supply := [(0, 0, 1)] } } 0 = false ∧
    entriesHeld { awaiting (4, 0, 0) {} with echo := { supply := [(0, 0, 1)] } } 0 = true ∧
    (∀ x ∈ [awaitingCopy, awaitingParse], MemOk x ∧ Powered x .mbxCmd ∧ x.net.recovering = false ∧ x.flt.need = some (4, 0, 0) ∧ supplyOk x 0 0 0 = true ∧
      entriesHeld { x with echo := { x.echo with supply := (0, 0, 0) :: x.echo.supply } } 0 = true ∧
      (goodCopies x).find? (fun c => c.gen = 4 && c.mirror = 0) = some theCopy ∧ x.flt.attemptGen = theCopy.gen ∧
      x.fget .fltStatus F.fltStatus_ATTEMPT = 3) ∧
    readBody awaitingCopy.job.img awaitingCopy.flt.copies (awaitingCopy.bytes (theCopy.addr + 64) (bodyLen awaitingCopy.job.img)) ≠ none ∧
    readBody awaitingParse.job.img awaitingParse.flt.copies (awaitingParse.bytes (theCopy.addr + 64) (bodyLen awaitingParse.job.img)) = none ∧
    (mbxArg (args [4] ready) 0 = 4 ∧ mbxArg (args [65] ready) 0 = 65 ∧ mbxArg ready 0 = 0) ∧ ready.ent.alarm = false ∧ ready.ent.pool = [] ∧
    jobLoaded running = true ∧ jobLoaded ready = false ∧ running.job.hostDrbg = false ∧
    (withReg .hifPolicy (F.hifPolicy_DRBG.put 0 1) ready).flag .hifPolicy F.hifPolicy_DRBG = true ∧
    (withReg .entStatus (F.entStatus_STATE.put 0 3) ready).fget .entStatus F.entStatus_STATE = 3 ∧
    ready.boot.commit = none ∧ ready.boot.restartDue = false := by
  have k := staged_accepted h
  have g : goodCopies awaitingCopy = [theCopy] := goodCopies_withCopy _ rfl rfl
  have c : ∀ x ∈ [awaitingCopy, awaitingParse], MemOk x ∧ (goodCopies x).find? (fun c => c.gen = 4 && c.mirror = 0) = some theCopy := fun x hx => by
    simp only [List.mem_cons, List.not_mem_nil, or_false] at hx
    rcases hx with rfl | rfl
    · exact ⟨mem_withCopy _, by rw [g]; rfl⟩
    · obtain ⟨_, _, _, e, m⟩ := parsing_same awaitingCopy 0 0
      exact ⟨m (mem_withCopy _), by rw [awaitingParse, e, g]; rfl⟩
  refine ⟨?_, ?_, ?_, ?_, ?_, ?_, ?_, ?_, ?_, ?_, ⟨staged_mem, ?_, ?_, ?_, ?_, k⟩, ?_, ?_, ?_, ?_, ?_,
    fun x hx => ⟨(c x hx).1, ?_, ?_, ?_, ?_, ?_, (c x hx).2, ?_, ?_⟩, ?_, ?_, ?_, ?_, ?_, ?_, ?_, ?_, ?_, ?_, ?_, ?_⟩
  case refine_27 => rw [awaiting_body]; simp [readBody, awaitingCopy, withCopy]
  case refine_28 =>
    obtain ⟨e, f, c, _⟩ := parsing_same awaitingCopy (theCopy.addr + 64) (bodyLen awaitingCopy.job.img)
    rw [awaitingParse, f, c, e, awaiting_body]
    exact congrArg (Option.map _) n
  all_goals ((try simp only [MemOk, RegsOk, Powered]); (try revert x); decide +kernel)

def linked (s : State) : State := { s with hif := { s.hif with linkUp := true } }
def pausingLink (p : JPhase) : State := { running with hif := { running.hif with linkPause := true }, job := { running.job with phase := p } }
def askingBytes : State := { linked running with flt := { running.flt with rebuild := [(0x8000, 64)] } }
def usedSlot (phase : JPhase) (kind : Nat) : State := withReg (.imgStatus 1) 2 { linked running with
  slots := [(1, { verified := true, addr := 0x8000, len := 4096 })]
  job := { running.job with phase := phase, slot := 1, img := { regions := [{ id := 1, kind := kind, base := 0x20000, len := 64 }] } } }

/-- A slot whose image is loading, with its LOAD_IMAGE under way. -/
def halfLoaded : State := withReg (.qCfg 2) (F.qCfg_EN.put 0 1) (executing (cmdBytes [(1, 1), (1, 0), (2, 9)]) (withReg (.imgStatus 1) 1 { linked ready with
  slots := [(1, { loading := true, addr := 0x8000, queue := 2, cid := 9, head := 1 })]
  mem := memWrite [] (hbm 0x8018) (leBytes 8 4096) }))
def hostedBy (mode : Nat) (ckpt : Bool) : State := { linked running with
  echo := { running.echo with mode := mode }, job := { running.job with hostCkpt := ckpt } }

theorem witness_LinkEventsAndBar2WritesAct :
    (∀ s ∈ [ready, linked ready, linked running, hostedBy 1 false, hostedBy 0 true, linked (onTile tile0), pausingLink .running, pausingLink .suspended,
        askingBytes, usedSlot .running 1, usedSlot .none 1, recovery (linked ready)],
      MemOk s ∧ RegsOk s ∧ s.echo.waiting = [] ∧ s.job.pauseQ = none ∧ s.job.phase ≠ .loading ∧ (∀ j : BitVec 2, (s.slot j.toNat).loading = false) ∧
      s.hif.pool = [] ∧ (∀ q < 64, (s.qp q).busy = none ∧ (s.qp q).ready = []) ∧ s.pins.perstN = true) ∧
    ready.hif.linkUp = false ∧ (linked ready).hif.linkUp = true ∧ jobLoaded (linked ready) = false ∧ jobLoaded (linked running) = true ∧
    jobLoaded (hostedBy 1 false) = true ∧ jobLoaded (hostedBy 0 true) = true ∧ (hostedBy 0 true).flt.ended = false ∧
    (linked (onTile tile0)).flt.ended = false ∧ (linked (onTile tile0)).job.hostCkpt = false ∧ (linked (onTile tile0)).echo.mode ≠ 1 ∧
    jobLoaded (linked (onTile tile0)) = true ∧ allDone (linked (onTile tile0)) = false ∧ (pausingLink .running).hif.linkPause = true ∧
    (pausingLink .suspended).job.phase ≠ .running ∧ (pausingLink .suspended).job.phase ≠ .frozen ∧ ready.hif.linkPause = false ∧
    (∀ s ∈ [linked ready, linked running, recovery (linked ready), halfLoaded], s.hif.linkUp = true ∧ pstate s < 4 ∧ 0x8000 + 64 ≤ s.hif.bar2Size) ∧
    bar2On (linked running) = true ∧ bar2On (recovery (linked ready)) = false ∧ bar2On halfLoaded = true ∧
    rangeInHbm (linked running) 0x8000 64 = true ∧
    rangeInHbm (linked running) (0x8B8000000 - 1) 1 = true ∧ rangeInHbm (linked running) (2 ^ 36 - 1) 1 = false ∧
    ({ linked running with hif := { (linked running).hif with bar2Size := 2 ^ 36 } } : State).hif.bar2Size = 2 ^ 36 ∧
    (askingBytes.flt.rebuild.any fun r => decide (r.1 ≤ 0x8000) && decide (0x8000 + 64 ≤ r.1 + r.2)) = true ∧
    (slotsMet (usedSlot .running 1) 0x8000 64 = [1] ∧ slotInUse (usedSlot .running 1) 1 = true ∧ slotInUse (usedSlot .none 1) 1 = false) ∧
    slotsMet (usedSlot .running 1) 0x20000 64 = [] ∧ jobLoaded (usedSlot .running 1) = true ∧ jobLoaded (usedSlot .none 1) = false ∧
    (∃ r ∈ (usedSlot .running 1).job.img.regions, meets 0x20000 64 r.base r.len = true ∧ r.kind ≠ 0 ∧ r.kind ≠ 2) ∧
    (slotsMet halfLoaded 0x8000 64 = [1] ∧ slotInUse halfLoaded 1 = false ∧ (halfLoaded.slot 1).loading = true ∧ qOn halfLoaded 2 = true ∧
      jobLoaded halfLoaded = false ∧ (((halfLoaded.qp 2).busy.map fun c => (c.opc, c.cid)) = some (1, 9)) ∧ (halfLoaded.slot 1).cid = 9) ∧
    (let s := linked (executes [(1, 3), (1, 0), (2, 9)] (queued 1 0))
     s.hif.linkUp = true ∧ s.echo.waiting = [] ∧ s.job.pauseQ = none ∧ s.hif.pool = [] ∧ (∀ k < 64, k ≠ 2 → (s.qp k).busy = none ∧ (s.qp k).ready = []) ∧
       (s.qp 2).busy.isSome = true ∧ (s.qp 2).ready = [] ∧ qOn s 2 = true ∧ cqRoom s 2 = true ∧ jobLoaded s = false) := by
  simp only [MemOk, RegsOk]; (repeat' apply And.intro) <;> decide +kernel

/-- Port 3 is up, and a job of two modules runs; module 1 has said HELLO from address 0x55. -/
def portUp (s : State) : State := withReg (.bxtPortStatus 3) 0x80000000 s
def peered (s : State) : State := portUp { onEcho s with
  net := { s.net with peers := [(1, { hello := true, addr := 0x55, sentNonce := 7 })] }, job := { s.job with count := 2, members := [0, 1] } }
def unheard (s : State) : State := { s with net := { s.net with peers := [(1, { addr := 0x55, sentNonce := 7 })] } }
def gone (s : State) : State := { s with net := { s.net with peers := [(1, { hello := true, lost := true, addr := 0x55, sentNonce := 7 })] } }
def identified (s : State) : State := { withReg .secLc (F.secLc_STATE.put 0 1) s with otp := { s.otp with ident := [(0, { wrapped := 1, digest := 2 })] } }
def evidence (nonce : Nat) : List Byte :=
  ascii "CKEV" ++ leBytes 2 1 ++ zeros 10 ++ digestBytes (sha3 (zeros 1312)) ++ zeros 64 ++ leBytes 32 nonce ++ zeros (3988 - 144)
/-- A frame that ends with its CRC32C. -/
def sealFrame (f : Frame) : Frame := { f with crc := f.sum }
def helloFrame (nonce ver : Nat) : Frame := sealFrame {
  port := 3, addr := 0x55, typ := 1, payload := leBytes 1 ver ++ leBytes 1 ver ++ zeros 36 ++ evidence nonce }

theorem sealed_seal (f : Frame) : (sealFrame f).crc = (sealFrame f).sum ∧ (sealFrame f).tag = f.tag := ⟨rfl, rfl⟩

theorem evidence_shown (nonce : Nat) :
    evidenceOk (evidence nonce) = Config.mldsaVerify (zeros 1312) (sha3 ((evidence nonce).take 1568)) ((evidence nonce).drop 1568) ∧
    leAt (evidence nonce) 112 32 = nonce % 2 ^ 256 := by
  have z (n : Nat) : (zeros n).length = n := List.length_replicate ..
  have l0 : (ascii "CKEV" ++ leBytes 2 1 ++ zeros 10).length = 16 := by decide +kernel
  have l1 : (ascii "CKEV" ++ leBytes 2 1 ++ zeros 10 ++ digestBytes (sha3 (zeros 1312)) ++ zeros 64).length = 112 := by
    rw [List.length_append, List.length_append, l0, digestBytes_length, z]
  have l2 : (ascii "CKEV" ++ leBytes 2 1 ++ zeros 10 ++ digestBytes (sha3 (zeros 1312)) ++ zeros 64 ++ leBytes 32 nonce).length = 144 := by
    rw [List.length_append, l1, leBytes_length]
  have b : (evidence nonce).length = 3988 := by rw [evidence, List.length_append, l2, z]
  have c : (evidence nonce).take 4 = ascii "CKEV" := by
    simp only [evidence, List.append_assoc]; exact List.take_left' (by decide)
  have d : leAt (evidence nonce) 4 2 = 1 := by
    simp only [evidence, List.append_assoc, leAt]
    rw [List.drop_left' (by decide), List.take_left' (by decide)]; decide +kernel
  have e : ((evidence nonce).drop 16).take 32 = digestBytes (sha3 (zeros 1312)) := by
    rw [evidence, List.append_assoc, List.append_assoc, List.append_assoc, List.drop_left' l0, List.take_left' (digestBytes_length _)]
  have f : ((evidence nonce).drop 256).take 1312 = zeros 1312 := by
    rw [evidence, List.drop_append, l2, List.drop_eq_nil_of_le (by rw [l2]; omega), List.nil_append, zeros, List.drop_replicate,
      List.take_replicate, zeros, show min 1312 (3988 - 144 - (256 - 144)) = 1312 from rfl]
  refine ⟨?_, ?_⟩
  · rw [evidenceOk, f, b, c, d, e]
    simp only [decide_true, Bool.true_and]
  · rw [leAt, evidence, List.append_assoc, List.drop_left' l1, List.take_left' (leBytes_length ..), ofLe_leBytes]

theorem evidence_length (nonce : Nat) : (evidence nonce).length = 3988 := by
  simp only [evidence, List.length_append, digestBytes_length, leBytes_length, zeros, List.length_replicate]; rfl

theorem hello_heard {s : State} (h : (portsUp s).contains 3 = true ∧ s.fget .bxtCfg F.bxtCfg_UDP_PORT = 0xBE58) (n v : Nat) :
    heard s (helloFrame n v) = true := by
  have l : (helloFrame n v).size = 4128 := by
    simp only [Frame.size, helloFrame, sealFrame, List.length_append, evidence_length, leBytes_length, zeros, List.length_replicate]; rfl
  rw [heard, l, show (helloFrame n v).port = 3 from rfl, h.1, h.2]; rfl

def cabled (s : State) : State := withReg (.bxtPortStatus 4) 0x80000000 { peered s with net := { (peered s).net with unacked := [{ dst := 1 }] } }
def halfFailed : State := withReg (.bxtPortStatus 3) (F.bxtPortStatus_LANE_FAIL.put 0x80000000 3) ready
def strayed (s : State) : State := { s with net := { s.net with miscabled := [3] } }
def asksFor (s : State) : State := { s with net := { s.net with outgoing := [{ region := 1, channel := 5, counter := none, targets := [1], unsent := [], last := [(1, 2)] }] } }
def hostsLink (s : State) : State := withReg .hifPolicy (F.hifPolicy_LINK.put 0 1) s
def named (s : State) : State := { s with boot := { s.boot with cfg := { s.boot.cfg with addr := some 0x44 } } }

theorem witness_PortsAndHellosAct
    (h : Config.mldsaVerify (zeros 1312) (sha3 ((evidence 7).take 1568)) ((evidence 7).drop 1568) = true)
    (h' : Config.mldsaVerify (zeros 1312) (sha3 ((evidence 0).take 1568)) ((evidence 0).drop 1568) = true) :
    (∀ s ∈ [ready, portUp ready, peered running, identified (peered running), identified (unheard (peered ready)), identified (gone (peered running)),
        identified (portUp ready), cabled running, halfFailed, strayed (portUp ready), asksFor (peered running), hostsLink (portUp ready), named (portUp ready)],
      MemOk s ∧ RegsOk s ∧ ethOn s = true ∧ portInUse s 3 = true ∧ pstate s = 0 ∧ s.pwr.req = none ∧ s.ent.alarm = false ∧ s.flt.mcAbsent = false ∧
      s.ent.mcQueue = [] ∧ s.ent.waiting.length < 64) ∧
    ethOn State.reset = false ∧ (portUp ready).flag (.bxtPortStatus 3) F.bxtPortStatus_UP = true ∧ ready.flag (.bxtPortStatus 3) F.bxtPortStatus_UP = false ∧
    ready.net.cfg1600 = false ∧ (15 % 2 ^ 2 ≠ 0 ∧ 15 / 2 ^ 2 ≠ 0) ∧ 12 % 2 ^ 2 = 0 ∧ 3 / 2 ^ 2 = 0 ∧
    otherRanks (portUp ready) = [] ∧ otherRanks (cabled running) = [1] ∧
    ((cabled running).net.outgoing = [] ∧ (cabled running).net.unacked = [{ dst := 1 }] ∧
      ((portsUp (cabled running)).filter (· ≠ 3))[1 % ((portsUp (cabled running)).filter (· ≠ 3)).length]? = some 4) ∧
    (halfFailed.flag (.bxtPortStatus 3) F.bxtPortStatus_UP = true ∧ halfFailed.fget (.bxtPortStatus 3) F.bxtPortStatus_LANE_FAIL = 3 ∧ 3 ||| 2 ^ 2 = 7 ∧
      7 % 2 ^ 2 ≠ 0 ∧ 7 / 2 ^ 2 ≠ 0 ∧ 3 ||| 2 ^ 1 = 3) ∧
    (strayed (portUp ready)).net.miscabled.contains 3 = true ∧ ready.net.miscabled.contains 3 = false ∧ ready.job.phase = .none ∧
    (∀ s ∈ [identified (portUp ready), { identified (portUp ready) with flt := { ready.flt with mcAbsent := true } }],
      hostLink s = false ∧ hasIdentity s = true ∧ seeksPeers s = true ∧ ethOn s = true ∧ s.ent.alarm = false) ∧ hasIdentity ready = false ∧
    (∀ s ∈ [portUp ready, named (portUp ready), hostsLink (portUp ready), peered running, identified (peered running),
        identified (unheard (peered ready)), identified (gone (peered running))],
      (portsUp s).contains 3 = true ∧ s.fget .bxtCfg F.bxtCfg_UDP_PORT = 0xBE58) ∧
    (∀ (s : State) n v, (portsUp s).contains 3 = true ∧ s.fget .bxtCfg F.bxtCfg_UDP_PORT = 0xBE58 → heard s (helloFrame n v) = true) ∧
    (∀ n v, (helloFrame n v).crc = (helloFrame n v).sum ∧ (helloFrame n v).tag = 0 ∧ (helloFrame n v).typ = 1 ∧ (helloFrame n v).addr = 0x55) ∧
    ({ helloFrame 7 1 with tag := 1 } : Frame).tag ≠ 0 ∧
    (hostLink (hostsLink (portUp ready)) = true ∧ rankAt (hostsLink (portUp ready)) 0x55 = none) ∧ mayMeet (portUp ready) 0x55 = true ∧
    (named (portUp ready)).net.peers = [] ∧ hostLink (named (portUp ready)) = false ∧ ownAddr (named (portUp ready)) = 0x44 ∧
    (∀ s ∈ [peered running, identified (peered running), identified (unheard (peered ready)), identified (gone (peered running))],
      rankAt s 0x55 = some 1 ∧ hostLink s = false) ∧
    (∀ n, (helloFrame n 1).payload.drop 38 = evidence n ∧ leAt (helloFrame n 1).payload 0 1 = 1 ∧ leAt (helloFrame n 1).payload 1 1 = 1) ∧
    leAt (evidence 7) 112 32 = 7 ∧ leAt (evidence 0) 112 32 = 0 ∧ evidenceOk (evidence 7) = true ∧ evidenceOk (evidence 0) = true ∧
    (∀ s ∈ [portUp ready, peered running], s.fget .bxtCfg F.bxtCfg_VER_MIN = 1 ∧ s.fget .bxtCfg F.bxtCfg_VER_MAX = 1 ∧ leAt (leBytes 1 9) 0 1 = 9) ∧
    ((peered running).peer 1).sentNonce = 7 ∧ ((peered running).peer 1).hello = true ∧
    (let p := (identified (unheard (peered ready))).peer 1
     p.sentNonce = 7 ∧ p.hello = false ∧ p.lost = false ∧ p.left = false ∧ (unheard (peered ready)).job.phase = .none) ∧
    (((gone (peered running)).peer 1).lost = true ∧ Live (identified (gone (peered running))) ∧ (gone (peered running)).flt.cur = []) ∧
    ((portUp ready).job.phase = .none ∧ portFor (peered running) 1 = some 3 ∧ portFor (asksFor (peered running)) 1 = some 3 ∧
      (asksFor (peered running)).job.phase ≠ .none ∧ ((asksFor (peered running)).net.outgoing.map fun o => tfind o.last 1) = [some 2]) := by
  have a : evidenceOk (evidence 7) = true := by rw [(evidence_shown 7).1, h]
  have b : evidenceOk (evidence 0) = true := by rw [(evidence_shown 0).1, h']
  have c : leAt (evidence 7) 112 32 = 7 := by rw [(evidence_shown 7).2]; decide +kernel
  have d : leAt (evidence 0) 112 32 = 0 := by rw [(evidence_shown 0).2]; decide +kernel
  have l : Live (identified (gone (peered running))) := live_of (by decide +kernel)
  have e (n : Nat) : (helloFrame n 1).payload.drop 38 = evidence n ∧ leAt (helloFrame n 1).payload 0 1 = 1 ∧ leAt (helloFrame n 1).payload 1 1 = 1 :=
    ⟨List.drop_left' (by decide), rfl, rfl⟩
  have g (n v : Nat) : (helloFrame n v).crc = (helloFrame n v).sum ∧ (helloFrame n v).tag = 0 ∧ (helloFrame n v).typ = 1 ∧ (helloFrame n v).addr = 0x55 :=
    ⟨(sealed_seal _).1, (sealed_seal _).2, rfl, rfl⟩
  have k (s : State) (n v) (h : (portsUp s).contains 3 = true ∧ s.fget .bxtCfg F.bxtCfg_UDP_PORT = 0xBE58) := hello_heard h n v
  refine ⟨?_, ?_, ?_, ?_, ?_, ?_, ?_, ?_, ?_, ?_, ?_, ?_, ?_, ?_, ?_, ?_, ?_, ?_, k, g, by decide, ?_, ?_, ?_, ?_, ?_, ?_, e, c, d, a, b, ?_, ?_, ?_, ?_,
    ⟨?_, l, ?_⟩, ?_⟩ <;> (try simp only [MemOk, RegsOk]) <;> decide +kernel

/-- Module 0 of two, region 5 of 64 bytes, and an arrival of channel 1 armed with counter 10. -/
def meshed : State := armedOn 1 false { peered running with
  job := { (peered running).job with img := { regions := [{ id := 5, base := 0x8000, len := 64 }] } } }
def dataFrame (flags seq n : Nat) : Frame := sealFrame {
  port := 3, addr := 0x55, typ := 2, src := 1, dst := 0, flags := flags, seq := seq, ack := 1, payload := zeros 16 ++ zeros n }
def sentOut : State := { meshed with net := { meshed.net with
  outgoing := [{ channel := 1, region := 5, counter := some 9, targets := [1], unsent := [], last := [(1, 0)] }] } }
def barrierAt (held releases : List (Nat × Nat)) : State := { meshed with net := { meshed.net with
  barriers := [{ desc := { id := 2, root := 0, counter := 9, ext := 10 }, held := held, releases := releases }] } }
def barrierFrame (typ flags t : Nat) : Frame := sealFrame {
  port := 3, addr := 0x55, typ := typ, src := 1, dst := 0, flags := flags, payload := leBytes 4 2 ++ leBytes 4 1 ++ leBytes 8 t }
def lockedTime (s : State) : State := withReg .ptpStatus (F.ptpStatus_LOCK.put 0 1) s
def joining : State := { meshed with job := { meshed.job with phase := .loading }, net := { meshed.net with waitJoin := true } }
def memberFrame (sub addr : Nat) : Frame := sealFrame {
  port := 3, addr := addr, typ := 6, src := 1, dst := 0, payload := leBytes 8 sub ++ leBytes 2 0 ++ leBytes 2 0 ++ leBytes 2 2 ++ zeros 32 }
def lostPeer : State := { gone (peered running) with flt := { running.flt with cur := [{ code := 0, loc := 1 }] } }
def orderly : State := { meshed with job := { meshed.job with pauseAt := some 1 }, tiles := [(0, tile0)] }
def goesOn : State := { meshed with tiles := [(0, tile0)] }
def agreeing : State := { meshed with net := { meshed.net with recovering := true } }
def without (s : State) : State := { s with flt := { s.flt with mcAbsent := true } }
def unacked1 (s : State) : State := { s with net := { s.net with unacked := [{ dst := 1 }] } }

theorem witness_FramesOfTheJobAct :
    (∀ s ∈ [meshed, sentOut, barrierAt [] [], barrierAt [(0, 1)] [], lockedTime (barrierAt [(0, 1)] []), lockedTime (barrierAt [] []), barrierAt [] [(1, 500)],
        joining, lostPeer, orderly, goesOn, agreeing, without meshed, unacked1 meshed], MemOk s ∧ RegsOk s ∧ Settled s ∧ ethOn s = true ∧
      pstate s = 0 ∧ s.pwr.req = none ∧ s.job.phase ≠ .none ∧ s.job.count = 2 ∧ s.job.rank = 0) ∧ ethOn State.reset = false ∧
    (∀ s ∈ [meshed, joining], ∀ f ∈ [dataFrame 0 0 64, dataFrame 1 0 64, dataFrame 4 0 64, dataFrame 4 0 63, dataFrame 0 1 64, barrierFrame 4 0 0,
        barrierFrame 5 1 0, memberFrame 1 0x55, memberFrame 1 0x56, memberFrame 2 0x55],
      frameOk s f = true ∧ heard s f = true ∧ (s.peer f.src).hello = true) ∧
    (heard meshed { dataFrame 0 0 64 with tag := 1 } = true ∧ frameOk meshed { dataFrame 0 0 64 with tag := 1 } = false) ∧
    meshed.net.outgoing = [] ∧ localChan (dataFrame 0 0 64) = 1 ∧ (meshed.chan 1 1).rxNext = 0 ∧ ackOnly (dataFrame 1 0 64) = true ∧
    ackOnly (dataFrame 0 0 64) = false ∧
    (let s := { meshed with net := { meshed.net with chans := [((1, 1), { rxNext := 1 })] } }
     0 < (s.chan 1 1).rxNext ∧ frameOk s (dataFrame 0 0 64) = true) ∧
    (arrivalFor meshed 1 1 = some { channel := 1, region := 5, counter := some (10#13).toNat }) ∧ isXchgRegion meshed 5 = false ∧
    (((dataFrame 4 0 64).flags.testBit 2 = true ∧ (dataFrame 0 0 64).flags.testBit 2 = false) ∧ leAt (dataFrame 4 0 64).payload 8 8 = 0 ∧
      ((dataFrame 4 0 64).payload.drop 16).length = 64 ∧ ((dataFrame 4 0 63).payload.drop 16).length ≠ 64) ∧ Room 2 meshed ∧
    ((meshed.reg (.syncCnt 10)).toNat + 1 < 2 ^ 32 ∧ tget meshed.echo.given 0 10 = 0 ∧ meshed.net.ghosts = [] ∧ jobLoaded meshed = true) ∧
    (∀ o ∈ sentOut.net.outgoing, o.unsent = [] ∧ o.targets = [1] ∧ tfind o.last 1 = some 0) ∧ sentOut.net.barriers = [] ∧ 0 < (dataFrame 1 0 64).ack ∧
    (leAt (barrierFrame 4 0 0).payload 0 4 = 2 ∧ leAt (barrierFrame 4 0 0).payload 4 4 = 1 ∧ leAt (barrierFrame 5 0 500).payload 8 8 = 500) ∧
    (∀ b ∈ (barrierAt [(0, 1)] []).net.barriers, b.desc.id = 2 ∧ b.done < 1 ∧ b.held.contains (0, 1) = true ∧ b.releases = []) ∧
    (∀ b ∈ (barrierAt [] []).net.barriers, b.held.contains (0, 1) = false) ∧
    (lockedTime (barrierAt [] [])).flag .ptpStatus F.ptpStatus_LOCK = true ∧ (barrierAt [] []).flag .ptpStatus F.ptpStatus_LOCK = false ∧
    (∀ b ∈ (barrierAt [] [(1, 500)]).net.barriers, b.releases = [(1, 500)] ∧ b.desc.ext = (10#13).toNat) ∧
    (joining.job.phase = .loading ∧ joining.net.waitJoin = true ∧ ((otherRanks joining).all fun r => (joining.peer r).joined) = false ∧
      joining.job.standing = false ∧ joining.flt.mcAbsent = false ∧ (joining.peer 1).joined = false) ∧
    (leAt (memberFrame 1 0x55).payload 0 1 = 1 ∧ (joining.peer 1).addr = 0x55 ∧ leAt (memberFrame 1 0x55).payload 8 2 = joining.job.img.hdr.nsv ∧
      leAt (memberFrame 1 0x55).payload 12 2 = joining.job.count ∧ leAt (memberFrame 1 0x55).payload 14 32 = joining.job.img.hdr.logical) ∧
    rankClash joining (memberFrame 1 0x56) = true ∧ (meshed.peer 1).left = false ∧ leAt (memberFrame 2 0x55).payload 0 1 = 2 ∧
    (orderlyEnd orderly = true ∧ orderlyEnd goesOn = false ∧ goesOn.net.recovering = false ∧ agreeing.net.recovering = true ∧ agreeing.flt.ended = false) ∧
    awaitsAck (unacked1 meshed) 1 = true ∧ awaitsAck meshed 1 = false ∧ (meshed.peer 1).lost = false ∧ meshed.flt.mcAbsent = false ∧
    (awaitsAck (unacked1 (without meshed)) 1 = true ∧ (without meshed).flt.mcAbsent = true ∧ (without meshed).net.mcLost = []) ∧
    ((lostPeer.flt.cur.any fun f => f.code = 0 && f.loc = 1) = true ∧ (lostPeer.peer 1).lost = true ∧ lostPeer.flt.mcAbsent = false) ∧
    (Live meshed ∧ Live orderly ∧ Live goesOn ∧ Live agreeing) ∧ (∀ b, hbm 0x8000 ≤ b ∧ b < hbm 0x8000 + 64 → ¬ echoSlots 2 meshed b) := by
  have l : Live meshed ∧ Live orderly ∧ Live goesOn ∧ Live agreeing :=
    ⟨live_of (by decide +kernel), live_of (by decide +kernel), live_of (by decide +kernel), live_of (by decide +kernel)⟩
  have k : ∀ b, hbm 0x8000 ≤ b ∧ b < hbm 0x8000 + 64 → ¬ echoSlots 2 meshed b := fun b hb => slots_apart (hbm 0x8000) (by decide +kernel) hb.1
  refine ⟨?_, ?_, ?_, ?_, ?_, ?_, ?_, ?_, ?_, ?_, ?_, ?_, ?_, ?_, ?_, ?_, ?_, ?_, ?_, ?_, ?_, ?_, ?_, ?_, ?_, ?_, ?_, ?_, ?_, ?_, ?_, ?_, ?_, ?_, ?_, ?_, l, k⟩ <;>
    (try simp only [MemOk, RegsOk, Settled, Room]) <;> decide +kernel

/-- Frames of type 7; module 1 of two, and module 0 with its own report. -/
def syncFrame (sub flags src : Nat) (body : List Byte) : Frame := sealFrame {
  port := 3, addr := 0x55, typ := 7, src := src, dst := 0, flags := flags, payload := leBytes 8 sub ++ body }
def second (s : State) : State := { s with
  job := { s.job with rank := 1 }, net := { s.net with peers := [(0, { hello := true, addr := 0x54 })] } }
def pendingSeed (s : State) : State := withReg (.cgsPending 0) 4 s
def freshWait (s : State) : State := pendingSeed { s with tiles := [(0, { tile0 with waits := [.fresh 2] })] }
def joined (reports : List (Nat × Nat × Nat)) (choice : Option Nat) (s : State) : State :=
  { s with net := { s.net with recovering := true, reports := reports, choice := choice } }
/-- The entries after the copy are in host memory alone. -/
def behind (s : State) : State := { s with echo := { s.echo with seq := 6, tail := 5 } }
/-- The modules recover together, this one holds the chosen copy: rank 1, and rank 0, whose choice is acknowledged last. -/
def resuming : State := withCopy (joined [] (some 4) (second meshed))
def rooted (s : State) : State := withCopy (joined [(0, 4, 1)] none s)
def chosen : State :=
  withCopy (joined [] (some 4) { meshed with net := { meshed.net with unacked := [{ syncFrame 4 1 1 (zeros 8) with dst := 1 }] } })

theorem copy_at (s : State) (h : s.flt.badSectors = []) (w : s.flt.writing = none) : copyAtStep (withCopy s) 4 = some theCopy := by
  have t : leAt ((withCopy s).bytes theCopy.addr 64) 12 6 = 4 := by
    rw [show theCopy.addr = 0 from rfl, bytes_copy _ (by rw [copySize]; omega)]
    simp [copy0, leAt, header_length]
    simp [copyHeader, leBytes, ascii, ofLe, snap0]
  rw [copyAtStep, goodCopies_withCopy s h w, List.find?, t]
  rfl

theorem copy_body (s : State) :
    readBody (withCopy s).job.img (withCopy s).flt.copies ((withCopy s).bytes (theCopy.addr + 64) (bodyLen (withCopy s).job.img)) = some snap0 := by
  rw [show bodyLen (withCopy s).job.img = Config.hwStateBytes 0 from rfl, show theCopy.addr + 64 = 64 from rfl, bytes_copy _ (by rw [copySize]), copy0,
    List.drop_left' (header_length _ _), List.take_of_length_le (by rw [body0_length])]
  simp [readBody, withCopy]

/-- Ordinary clocks: a slave of the master on port 3, a grandmaster, and one that measures its delays from peer to peer. -/
def clocked (p2p source : Bool) (ptp : Ptp) : State := { portUp ready with
  net := { ready.net with ptp := ptp, ppsSource := source }, boot := { ready.boot with cfg := { ready.boot.cfg with ptpP2p := p2p } } }
def slave : State := clocked false false { best := some (1, 0, 3), syncRx := some 7, reqTx := some 9, last := some (3, 7) }

theorem witness_EchoSyncAndTimeAct :
    (∀ s ∈ [meshed, second meshed, joined [] none (second meshed), joined [] none meshed, joined [(0, 4, 1)] none meshed, pendingSeed (second meshed),
        freshWait (second meshed), joined [] (some 4) (second meshed), without (second meshed)],
      MemOk s ∧ RegsOk s ∧ ethOn s = true ∧ jobLoaded s = true ∧ s.flt.ended = false ∧ s.job.count = 2 ∧ pstate s < 2) ∧ ethOn State.reset = false ∧
    (∀ n ∈ [1, 2, 4, 5], ∀ f ∈ [syncFrame n 0 0 (zeros 24), syncFrame n 1 0 (zeros 24)],
      heard (second meshed) f = true ∧ frameOk (second meshed) f = true ∧ ((second meshed).peer f.src).hello = true ∧ syncSub f = n ∧ f.typ = 7) ∧
    (∀ f ∈ [syncFrame 2 0 1 (zeros 12), syncFrame 3 0 1 (zeros 12), syncFrame 4 1 1 (zeros 8)],
      heard meshed f = true ∧ frameOk meshed f = true ∧ (meshed.peer f.src).hello = true) ∧
    (ackOnly (syncFrame 1 0 0 []) = false ∧ ackOnly (syncFrame 1 1 0 []) = true ∧ syncSub (syncFrame 3 0 1 (zeros 12)) = 3 ∧
      heard meshed { syncFrame 1 0 0 [] with udpOk := false } = false ∧ frameOk (second meshed) { syncFrame 1 0 0 [] with tag := 1 } = false) ∧
    (without (second meshed)).flt.mcAbsent = true ∧ (second meshed).flt.mcAbsent = false ∧
    bitOf ((pendingSeed (second meshed)).reg (.cgsPending 0)) 2 = true ∧ bitOf ((second meshed).reg (.cgsPending 0)) 2 = false ∧
    leAt (syncFrame 1 0 0 (leBytes 8 2 ++ leBytes 16 77)).payload 8 1 = 2 ∧ leAt (syncFrame 1 0 0 (leBytes 8 2 ++ leBytes 16 77)).payload 16 16 = 77 ∧
    bitOf ((freshWait (second meshed)).reg (.cgsPending 0)) 2 = true ∧ Settled (pendingSeed (second meshed)) ∧
    (((freshWait (second meshed)).tile 0).waits = [.fresh 2] ∧ tfind (freshWait (second meshed)).tiles 0 = some ((freshWait (second meshed)).tile 0) ∧
      ∀ x ∈ (freshWait (second meshed)).tiles, x.2.ctl = none ∧ (x.1 ≠ 0 → x.2.waits = [])) ∧
    (seedEntry (second meshed) 0 2 ≠ 77 ∧ seedEntry (second meshed) 0 2 = 0 ∧ (second meshed).job.fresh = []) ∧
    (second meshed).net.recovering = false ∧ (joined [] none (second meshed)).net.recovering = true ∧ (joined [] none (second meshed)).net.choice = none ∧
    (second meshed).job.rank = 1 ∧ meshed.job.rank = 0 ∧ (joined [(0, 4, 1)] none meshed).net.reports = [(0, 4, 1)] ∧
    tfind (joined [] none meshed).net.reports 0 = none ∧ copyAtStep (joined [(0, 4, 1)] none meshed) 0 = none ∧
    copyAtStep (joined [] (some 4) (second meshed)) 4 = none ∧
    (copyAtStep (rooted meshed) 4 = some theCopy ∧ entriesHeld (rooted meshed) theCopy.seq = true ∧
      copyAtStep (rooted (behind meshed)) 4 = some theCopy ∧ entriesHeld (rooted (behind meshed)) theCopy.seq = false ∧
      (rooted (behind meshed)).flt.need = none ∧ (rooted meshed).job.rank = 0 ∧ (rooted meshed).net.reports = [(0, 4, 1)]) ∧
    (let s := withCopy (joined [] none (second (behind meshed)))
     copyAtStep s 4 = some theCopy ∧ entriesHeld s theCopy.seq = false ∧ s.net.choice = none) ∧
    (∀ s ∈ [resuming, chosen], (s.net.recovering = true ∧ s.net.choice = some 4 ∧ s.job.img.fe.mode = 0 ∧ s.echo.mode ≠ 1 ∧ s.echo.waiting = [] ∧
      s.echo.late = [] ∧ s.echo.seq < s.echo.tail + echoCap s ∧ s.echo.seq = theCopy.seq ∧ entriesHeld s theCopy.seq = true ∧
      theCopy.gen ≠ s.flt.attemptGen ∧ snap0.srcPos = none ∧ snap0.regs = []) ∧ copyAtStep s 4 = some theCopy ∧
      readBody s.job.img s.flt.copies (s.bytes (theCopy.addr + 64) (bodyLen s.job.img)) = some snap0) ∧
    (leAt (syncFrame 4 1 1 (zeros 8)).payload 0 1 = 4 ∧ chosen.job.rank = 0 ∧ chosen.job.count = 2 ∧
      chosen.net.unacked = [{ syncFrame 4 1 1 (zeros 8) with dst := (syncFrame 4 1 1 (zeros 8)).src }]) ∧
    2 ≤ pstate asleep ∧ (18446744073 * 10 ^ 9 < 2 ^ 64) ∧ Live (second meshed) ∧ Live (pendingSeed (second meshed)) ∧ Live (freshWait (second meshed)) ∧
    (∀ s ∈ [slave, clocked false false { best := some (1, 0, 4) }, clocked false true {}, clocked true false { reqTx := some 9, peerRx := some (4, 12) },
        clocked true false {}], MemOk s ∧ RegsOk s ∧ ethOn s = true ∧ (portsUp s).contains 3 = true ∧ s.boot.cfg.ptpDomain = 0 ∧ s.boot.cfg.ptpUdp = false ∧
      pstate s < 2) ∧
    (isMaster slave = false ∧ isMaster (clocked false true {}) = true ∧ isMaster (clocked true false {}) = false ∧ slave.boot.cfg.ptpP2p = false ∧
      (clocked true false {}).boot.cfg.ptpP2p = true ∧ betterMaster (5, 0) (1, 0) = false ∧ ready.net.ptp.best = none) := by
  have c (s : State) (h : s.flt.badSectors = []) (w : s.flt.writing = none) := copy_at s h w
  have whole (s : State) (m : s ∈ [resuming, chosen]) :
      (s.net.recovering = true ∧ s.net.choice = some 4 ∧ s.job.img.fe.mode = 0 ∧ s.echo.mode ≠ 1 ∧ s.echo.waiting = [] ∧
      s.echo.late = [] ∧ s.echo.seq < s.echo.tail + echoCap s ∧ s.echo.seq = theCopy.seq ∧ entriesHeld s theCopy.seq = true ∧
      theCopy.gen ≠ s.flt.attemptGen ∧ snap0.srcPos = none ∧ snap0.regs = []) ∧ copyAtStep s 4 = some theCopy ∧
      readBody s.job.img s.flt.copies (s.bytes (theCopy.addr + 64) (bodyLen s.job.img)) = some snap0 := by
    obtain rfl | rfl : s = resuming ∨ s = chosen := by simpa using m
    all_goals exact ⟨⟨rfl, rfl, rfl, by decide, rfl, rfl, by decide, rfl, rfl, by decide, rfl, rfl⟩, c _ rfl rfl, copy_body _⟩
  refine ⟨?_, ?_, ?_, ?_, ?_, ?_, ?_, ?_, ?_, ?_, ?_, ?_, ?_, ?_, ?_, ?_, ?_, ?_, ?_, ?_, ?_, ?_, ?_, ?_,
    ⟨c _ rfl rfl, ?_, c _ rfl rfl, ?_, rfl, rfl, rfl⟩, ⟨c _ rfl rfl, ?_, rfl⟩, whole, ?_, ?_, ?_, live_of ?_, live_of ?_, live_of ?_, ?_, ?_⟩ <;>
    (try simp only [MemOk, RegsOk, Settled]) <;> decide +kernel

def inState (n : Nat) (s : State) : State := withReg .pwrState (BitVec.ofNat 32 n) s
def requestOf (s : State) (n : Nat) (force : Bool) : PwrReq := { target := n, force := force, answers := powerAgents.map fun a =>
  (a, if delaysFirst s a then .delay else answerOf s n a) }
def requested (q : PwrReq) (s : State) : State := withReg .pwrState ((s.reg .pwrState) ||| 0x100#32 ||| BitVec.ofNat 32 (q.target * 16)) { s with pwr := { s.pwr with req := some q } }
def allAck (n : Nat) : PwrReq := { target := n, force := false, answers := powerAgents.map fun a => (a, .ack) }
def oneAnswer (n a : Nat) (x : Answer) : PwrReq := { allAck n with answers := tset (allAck n).answers a x }
def idleTimes (s : State) : State := withReg .pwrIdle 0xFFFFFFFF s

/-- Entries that no host copy holds yet. -/
def undrained : State := withReg .echoSeqLo 5 ready

theorem witness_PowerRequestsAreJudgedAndCommitted :
    (∀ s ∈ [ready, running, onTile tile0, inState 1 ready, requested (allAck 2) ready, requested (oneAnswer 2 3 .delay) ready,
        requested (oneAnswer 2 3 .silent) ready, requested (oneAnswer 2 3 (.refuse 1)) ready, idleTimes ready, idleTimes (inState 1 ready),
        requested (allAck 3) (inState 2 ready), undrained], MemOk s ∧ RegsOk s ∧ Settled s) ∧
    (ready.flag .pwrState F.pwrState_BUSY = false ∧ pstate ready = 0 ∧ (requestOf ready 2 false).answered = true ∧ (requestOf ready 2 false).refusals = []) ∧
    (requested (allAck 2) ready).flag .pwrState F.pwrState_BUSY = true ∧ pstate (inState 1 ready) = 1 ∧
    (let s := onTile tile0
     (requestOf s 2 true).answered = true ∧ (requestOf s 2 true).refusals ≠ [] ∧
      (requestOf s 2 true).refusals.all (fun x => x.2 = 1) = true ∧ (requestOf s 2 true).refusals.all (fun x => forcible x.2) = true ∧
      s.job.phase = .running ∧ s.job.pauseQ = none ∧ allDone s = false) ∧
    ((requestOf undrained 3 true).answered = true ∧ (requestOf undrained 3 true).refusals = [(0x15, 6)]) ∧
    F.pwrReq_TARGET.get (2#32) = 2 ∧ F.pwrReq_TARGET.get (0#32) = 0 ∧
    (ready.flag .hifPolicy F.hifPolicy_PWR = false ∧ ready.flt.mcAbsent = false ∧ isIdle ready = true ∧ isIdle (idleTimes (inState 1 ready)) = true ∧ (idleTimes ready).fget .pwrIdle F.pwrIdle_S1_MS ≠ 0 ∧
      (idleTimes ready).fget .pwrIdle F.pwrIdle_S2_S ≠ 0) ∧
    (tget (oneAnswer 2 3 .delay).answers .ack 3 = .delay ∧ tget (oneAnswer 2 3 .silent).answers .ack 3 = .silent ∧
      tget (allAck 2).answers .ack 3 = .ack ∧ (oneAnswer 2 3 .delay).answered = false ∧ (oneAnswer 2 3 (.refuse 1)).answered = true ∧
      (oneAnswer 2 3 (.refuse 1)).refusals = [(3, 1)] ∧ (oneAnswer 2 3 (.refuse 1)).force = false) ∧
    (canCommit (requested (allAck 2) ready) = true ∧ canCommit ready = false ∧ canCommit (requested (oneAnswer 2 3 .silent) ready) = false ∧
      (allAck 2).target ≤ 5 ∧ pstate ready < (allAck 1).target) ∧
    (let s : State := { requested { allAck 3 with forced := true } ready with pwr := { (requested { allAck 3 with forced := true } ready).pwr with stopAt := some 2 } }
     canCommit s = true ∧ s.pwr.stopAt = some 2 ∧ pstate s < 2) := by
  simp only [MemOk, RegsOk, Settled]; decide +kernel

def exiting (n : Nat) (retries : Nat) (s : State) : State := { inState n s with pwr := { s.pwr with exiting := true, retries := retries, lastWake := 0 } }
def tripped (s : State) : State := { s with pins := { s.pins with thermtripN := false }, pwr := { s.pwr with hot := [.iod] } }
def resting : State := { inState 2 ready with pwr := { ready.pwr with exiting := true, sump := { valid := true, entry := 2, digest := sumpDigest [] } } }
def spoilt : State := { resting with pwr := { resting.pwr with sump := { resting.pwr.sump with digest := 0 } } }
def perstLow (s : State) : State := { s with pins := { s.pins with perstN := false } }

theorem witness_WakesExitsAndResetsAct :
    (∀ s ∈ [inState 1 ready, inState 4 ready, exiting 1 0 ready, exiting 2 3 ready, exiting 5 0 ready, resting, spoilt, tripped (inState 2 ready), inState 3 (perstLow ready),
        inState 4 (perstLow ready), inState 5 (perstLow ready), requested (allAck 4) (inState 3 ready), sessionOf 3 (inState 3 ready)],
      MemOk s ∧ RegsOk s ∧ Settled s ∧ s.pending = [] ∧ s.pins.inputUp = true) ∧
    (wakeActs 1 1 = true ∧ wakeActs 1 3 = true ∧ wakeActs 1 4 = false ∧ wakeActs 3 3 = true ∧ wakeActs 3 2 = false ∧ wakeActs 6 5 = true ∧ wakeActs 4 4 = true) ∧
    (inState 1 ready).pwr.exiting = false ∧ (inState 1 ready).pwr.req = none ∧ (exiting 1 0 ready).pwr.exiting = true ∧
    aonTick 0 = (exiting 1 0 ready).pwr.lastWake ∧ aonTick 30517 ≠ aonTick 30518 ∧ (tripped (inState 2 ready)).pwr.hot ≠ [] ∧
    (tripped (inState 2 ready)).pins.thermtripN = false ∧ (withReg .pwrWakeTimer 5 ready).reg .pwrWakeTimer ≠ 0 ∧ ready.reg .pwrWakeTimer = 0 ∧
    (let s := requested (allAck 2) ready; s.pwr.req = some (allAck 2) ∧ wakeActs 1 (pstate s) = false ∧ wakeActs 1 (allAck 2).target = true) ∧
    (resting.pwr.sump.valid = true ∧ (tkeys resting.pwr.sump.regs).Nodup ∧
      ∀ p ∈ resting.pwr.sump.regs, p.1.inSump = true) ∧
    spoilt.pwr.sump.valid = true ∧
    (stackState (withReg (.hbmStatus 1) 1 ready) 1 = 1 ∧ stackState ready 1 ≠ 1) ∧ (exiting 2 3 ready).pwr.retries = 3 ∧ (exiting 1 0 ready).pwr.retries < 3 ∧
    (pstate (inState 3 (perstLow ready)) = 3 ∧ (perstLow ready).pins.perstN = false ∧ ready.pins.perstN = true) ∧
    (let s := requested (allAck 4) (inState 3 ready); pstate s = 3 ∧ s.flag .pwrState F.pwrState_BUSY = true) ∧
    ((requestOf (inState 3 ready) 4 true).answered = true ∧ (requestOf (inState 3 ready) 4 true).refusals = [] ∧
      (inState 3 ready).flag .pwrState F.pwrState_BUSY = false) ∧
    ((requestOf (sessionOf 3 (inState 3 ready)) 4 true).answered = true ∧ (requestOf (sessionOf 3 (inState 3 ready)) 4 true).refusals = [(0x14, 2)] ∧
      forcible 2 = false) ∧
    (State.reset.pins.perstN = false ∧ State.reset.pins.inputUp = false ∧ pstate State.reset < 3 ∧ (inState 4 (perstLow ready)).pwr.exiting = false ∧
      (inState 4 (perstLow ready)).pwr.req = none ∧ pstate (inState 5 (perstLow ready)) = 5 ∧ pstate (exiting 5 0 ready) = 5 ∧ ready.ent.alarm = false) ∧
    sumpDigest resting.pwr.sump.regs = resting.pwr.sump.digest ∧ sumpDigest spoilt.pwr.sump.regs ≠ spoilt.pwr.sump.digest := by
  have r : resting.pwr.sump.regs = [] ∧ spoilt.pwr.sump.regs = [] ∧ spoilt.pwr.sump.digest = 0 := ⟨rfl, rfl, rfl⟩
  have a : sumpDigest resting.pwr.sump.regs = resting.pwr.sump.digest := by rw [r.1, resting]
  have b : sumpDigest spoilt.pwr.sump.regs ≠ spoilt.pwr.sump.digest := by rw [r.2.1, r.2.2, sumpDigest, List.flatMap_nil]; exact sha3_nil
  simp only [a, b, MemOk, RegsOk, Settled, and_true, ne_eq, not_false_eq_true]; decide +kernel

theorem witness_TemperaturesTripsAndSuppliesAct :
    (∀ s ∈ [ready, running, State.reset, inState 5 ready, mcGone none ready, tripped ready, portUp ready], MemOk s ∧ RegsOk s ∧ Settled s) ∧
    (warnAt ready (.die 0) ≤ 100 ∧ warnAt ready (.stack 0) = 95 ∧ warnAt ready .iod = 100 ∧ tripAt (.die 0) = 115 ∧ tripAt (.stack 0) = 105 ∧ tripAt .iod = 120) ∧
    Sensor.iod ∉ ready.pwr.hot ∧ Sensor.iod ∈ (tripped ready).pwr.hot ∧ ready.flt.mcAbsent = false ∧ (mcGone none ready).flt.mcAbsent = true ∧
    ready.pins.inputUp = true ∧ State.reset.pins.inputUp = false ∧ (35999 < 36000 ∧ 36000 ≤ 36000 ∧ 63000 ≤ 63000 ∧ 63000 < 63001) ∧
    (railOn 2 0 = true ∧ railOn 2 5 = false ∧ railOn 0x57 1 = true ∧ railOn 0x58 1 = false) ∧ pstate ready < 5 ∧ 5 ≤ pstate (inState 5 ready) ∧
    Powered ready .pwrPeakW ∧ running.job.phase ≠ .none ∧ running.job.phase ≠ .loading ∧
    ({ ready with boot := { ready.boot with commit := some 64 } } : State).boot.commit ≠ none := by
  simp only [MemOk, RegsOk, Settled, Powered]; decide +kernel

/-- Bring-up in phase `n`. -/
def phase (n : Nat) : State := withReg .bootStatus (BitVec.ofNat 32 n) { State.reset with
  pins := { State.reset.pins with inputUp := true, perstN := true }, boot := { State.reset.boot with started := true } }
def standing : StandRec := { length := 64, start := 1 }
def standReady (verified : Bool) : State := { ready with
  boot := { ready.boot with standHost := true, cfg := { standing := some { standing with block := zeros 4 ++ leBytes 2 1 } } }
  slots := [(0, { verified := verified, img := { hdr := { moduleCount := 1 } } })] }

/-- The flash holds the image where the ROM puts it, in phase 1. -/
def imaged : State := { phase 1 with mem := fwMem (flash 0x10000), otp := { State.reset.otp with keys := [(0, sha3 (zeros 1312))] } }

theorem imaged_region : flashRegion imaged 2 = (0x10000, 0x401000) := by
  have e : flashHeader imaged = zeros 68 := fwMem_else (flash 0x10000) (.inl (by decide))
  rw [flashRegion, e]; decide +kernel

theorem imaged_accepted (h : fwSigned) : firmwareErr (fun o n => imaged.bytes (flash ((flashRegion imaged 2).1 + o)) n) imaged.otp.keys
    (imaged.fget .secKeyslot F.secKeyslot_REVOKED) none false = 0 := by
  rw [show imaged.fget .secKeyslot F.secKeyslot_REVOKED = 0 by decide +kernel]
  exact image_accepted h (flash 0x10000) (fun o n => by rw [imaged_region, flash_add]; rfl) rfl rfl

/-- An unsigned record of type 2 without a body, in PROV. -/
def recHead : List Byte := ascii "CKCR" ++ leBytes 2 2 ++ leBytes 2 0 ++ leBytes 4 0 ++ leBytes 4 1 ++ zeros 48
def flashRec : FlashRec := { typ := 2, seq := 1, bytes := recHead, body := [], accepted := true }
def configured : State := withReg .secLc (F.secLc_STATE.put 0 1) { phase 2 with
  mem := memWrite [] (flash (flashRegion (phase 2) 3).1) recHead }

theorem configured_records : flashRecords configured = [flashRec] := by decide +kernel

theorem configured_applied {b : RecBody} (h : Config.recordBody 2 [] = some b) :
    ((List.range 6).filterMap fun n => (selectRecord (flashRecords configured) (n + 1)).1) = [flashRec] := by
  rw [configured_records]
  simp [List.range, List.range.loop, selectRecord, flashRec, h]

theorem witness_BringUpRunsItsPhases (h : fwSigned) (k : Config.recordBody 2 [] = some (.envelope 1 1 1 1)) :
    (∀ n ∈ [0, 1, 2, 3, 4, 5], MemOk (phase n) ∧ RegsOk (phase n) ∧ bringingUp (phase n) = true ∧ bootPhase (phase n) = n ∧ inRecovery (phase n) = false) ∧
    bringingUp ready = false ∧ bootPhase (phase 6) = 6 ∧ bringingUp (phase 6) = true ∧
    firmwareErr (fun o n => (phase 1).bytes (flash ((flashRegion (phase 1) 2).1 + o)) n) (phase 1).otp.keys 0 none false ≠ 0 ∧
    (MemOk imaged ∧ RegsOk imaged ∧ bringingUp imaged = true ∧ bootPhase imaged = 1 ∧
      firmwareErr (fun o n => imaged.bytes (flash ((flashRegion imaged 2).1 + o)) n) imaged.otp.keys
        (imaged.fget .secKeyslot F.secKeyslot_REVOKED) none false = 0) ∧
    ((phase 2).fget .secLc F.secLc_STATE ≠ 3 ∧ (withReg .secLc (F.secLc_STATE.put 0 3) (phase 2)).fget .secLc F.secLc_STATE = 3 ∧
      ((List.range 6).filterMap fun n => (selectRecord (flashRecords (phase 2)) (n + 1)).1) = []) ∧
    (MemOk configured ∧ RegsOk configured ∧ bringingUp configured = true ∧ bootPhase configured = 2 ∧ configured.fget .secLc F.secLc_STATE ≠ 3 ∧
      ((List.range 6).filterMap fun n => (selectRecord (flashRecords configured) (n + 1)).1) = [flashRec] ∧
      Config.recordBody flashRec.typ flashRec.body = some (.envelope 1 1 1 1) ∧ flashRec.typ = 2) ∧
    ((phase 3).boot.fusedTiles = [] ∧ (phase 3).boot.table.tiles = [] ∧ (phase 3).boot.table.rows = [] ∧ (phase 3).boot.fusedRows = [] ∧
      (phase 3).flag .glbStatus F.glbStatus_GRADE_EFF = false ∧ (phase 3).boot.table.remaps = []) ∧
    ((phase 5).boot.cfg.standing = none ∧ (phase 5).hif.heldBells = [] ∧ pstate (phase 5) = 0 ∧ (phase 5).pwr.exiting = false ∧ (phase 5).pwr.req = none) ∧
    (let s : State := { phase 5 with hif := { (phase 5).hif with heldBells := [(0, (2#6).toNat, 7)] } }
     s.boot.cfg.standing = none ∧ s.hif.heldBells = [(0, (2#6).toNat, 7)] ∧ pstate s = 0) ∧
    ((standing.start ≠ 0) ∧ ({ phase 5 with boot := { (phase 5).boot with cfg := { standing := some standing } } } : State).hif.heldBells = []) ∧
    Powered ready .bootCtrl ∧
    (let s : State := { ready with boot := { ready.boot with standHost := true } }
     s.boot.standHost = true ∧ s.flag .glbStatus F.glbStatus_READY = true ∧ s.job.phase = .none ∧ s.boot.cfg.standing = none) ∧
    (let s := standReady true
     MemOk s ∧ RegsOk s ∧ s.boot.standHost = true ∧ s.flag .glbStatus F.glbStatus_READY = true ∧ s.job.phase = .none ∧ s.boot.cfg.standing.isSome = true ∧
     (s.qp 64).busy = none ∧
     ∀ r ∈ s.boot.cfg.standing, loadStop { s with
       boot := { s.boot with standHost := false }
       job := { wantedJob { s with boot := { s.boot with standHost := false } } r.block 0 64 true with jobId := s.job.jobId } } = none) ∧
    (let s := standReady false
     ∀ r ∈ s.boot.cfg.standing, loadStop { s with
       boot := { s.boot with standHost := false }
       job := { wantedJob { s with boot := { s.boot with standHost := false } } r.block 0 64 true with jobId := s.job.jobId } } = some (.code 0x73)) ∧
    ready.job.phase = .none ∧ running.job.phase ≠ .none ∧ inRecovery ready = false ∧ inRecovery (recovery ready) = true := by
  have m : MemOk imaged := fwMem_wf (flash 0x10000)
  refine ⟨?_, ?_, ?_, ?_, ?_, ⟨m, ?_, ?_, ?_, imaged_accepted h⟩, ?_, ⟨?_, ?_, ?_, ?_, ?_, configured_applied k, k, rfl⟩, ?_, ?_, ?_, ?_, ?_, ?_, ?_, ?_,
    ?_, ?_, ?_, ?_⟩ <;> (try simp only [MemOk, RegsOk, Powered]) <;> decide +kernel

/-- The entropy block in state `st`, every source past its start-up bits. -/
def entIn (st : Nat) (seeded : Bool) (e : Ent) : State := withReg .entStatus (F.entStatus_SEEDED.put (BitVec.ofNat 32 st) (b2n seeded)) { ready with
  ent := { e with src := [(0, { passed := true }), (1, { passed := true }), (2, { passed := true })] } }

/-- A tile waits for a seed. -/
def seedWait : State := { entIn 3 true { waiting := [{ bits := 128, use := .fresh 2 }] } with
  tiles := [(0, { tile0 with waits := [.fresh 2] })], job := running.job }
/-- Bits that alternate, and the buffer that source 0 gives next. -/
def altBits : BitVec 1024 := BitVec.ofNat 1024 (2 * ((4 ^ 512 - 1) / 3))
def conditioned (e : Ent) (b : BitVec 1024) : Ent :=
  conditionLoop 6 { e with src := tset e.src 0 { (rctRun 0 (tget e.src {} 0) (bufBits b)).1 with
    full := (rctRun 0 (tget e.src {} 0) (bufBits b)).1.full.orElse fun _ => some b } }

theorem witness_EntropyIsTestedSeededAndServed :
    (∀ s ∈ [ready, seedWait, entIn 1 false {}, entIn 1 false { katPassed := true, pool := [1, 2] }, entIn 3 true {}, entIn 3 true { hostInput := some [1] },
        entIn 3 true { pool := [1, 2, 3, 4] }, entIn 3 true { waiting := [{ bits := 256, use := .attest }] },
        entIn 3 true { mcQueue := [{ bits := 512, use := .hello none 0 }] }],
      MemOk s ∧ RegsOk s ∧ s.ent.alarm = false ∧ Powered s .entCtrl ∧ pstate s < 3) ∧
    (healthCauses (entIn 3 true {}) 0 (List.replicate 64 true) ≠ [] ∧ healthCauses (entIn 3 true {}) 0 [] = []) ∧
    (healthCauses (entIn 3 true {}) 0 (bufBits altBits) = [] ∧ healthCauses (entIn 3 true {}) 0 (bufBits (-1)) ≠ [] ∧ healthCauses ready 0 (bufBits altBits) = []) ∧
    (tget (entIn 1 false {}).ent.src {} 0).passed = true ∧ (tget ready.ent.src {} 0).passed = false ∧
    ((withReg .entStatus 1 ready).fget .entStatus F.entStatus_STATE = 1 ∧ (tget (entIn 3 true {}).ent.src {} 0).full = none ∧
      (tget (entIn 3 true {}).ent.src {} 1).full = none ∧ (entIn 3 true {}).ent.next = 0 ∧ (entIn 3 true {}).ent.pool = [] ∧
      (entIn 3 true { pool := [1, 2, 3, 4] }).ent.pool.length = 4) ∧
    (conditioned (entIn 3 true { hostInput := some [1], pool := [1] }).ent altBits).pool ≠ [] ∧
    2 ≤ (conditioned (entIn 1 false { katPassed := true, pool := [1, 2] }).ent altBits).pool.length ∧
    (conditioned (entIn 1 false { katPassed := true }).ent altBits).pool.length < 2 ∧
    ((entIn 1 false {}).fget .entStatus F.entStatus_STATE = 1 ∧ (entIn 1 false {}).flag .entStatus F.entStatus_SEEDED = false ∧
      (entIn 1 false {}).ent.katPassed = false ∧ (entIn 1 false {}).ent.pool = [] ∧ (∀ k < 3, (tget (entIn 1 false {}).ent.src {} k).passed = true)) ∧
    ((entIn 2 false { pool := [1, 2] }).fget .entStatus F.entStatus_STATE = 2 ∧ (entIn 2 false { pool := [1, 2] }).ent.pool = [1, 2]) ∧
    ((entIn 3 true {}).fget .entStatus F.entStatus_STATE = 3 ∧ (entIn 3 true {}).flag .entStatus F.entStatus_SEEDED = true ∧
      (entIn 3 true {}).ent.hostInput = none ∧ (entIn 3 true {}).ent.waiting = [] ∧ (entIn 3 true {}).ent.mcQueue = []) ∧
    ((entIn 3 true { waiting := [{ bits := 256, use := .attest }] }).ent.waiting = [{ bits := 256, use := .attest }] ∧
      (entIn 3 true { mcQueue := [{ bits := 512, use := .hello none 0 }] }).ent.mcQueue = [{ bits := 512, use := .hello none 0 }]) ∧
    ((seedWait.tile 0).waits = [.fresh 2] ∧ tfind seedWait.tiles 0 = some (seedWait.tile 0) ∧ (∀ p ∈ seedWait.tiles, p.2.ctl = none ∧ (p.1 ≠ 0 → p.2.waits = [])) ∧
      seedWait.job.phase ≠ .none ∧ seedWait.ent.waiting ++ seedWait.ent.mcQueue = [{ bits := 128, use := .fresh 2 }]) ∧
    ((entIn 3 true {}).ent.reseedDue = false ∧ (entIn 3 true {}).fget .entReqSince F.entReqSince_REQS < 65536) ∧
    (let s : State := { entIn 3 true {} with ent := { (entIn 3 true {}).ent with reseedDue := true, pool := [7], waiting := [{ bits := 256, use := .attest }] } }
     s.ent.reseedDue = true ∧ s.ent.pool = [7] ∧ s.ent.hostInput = none ∧ s.flag .entStatus F.entStatus_SEEDED = true) ∧
    (∀ k : BitVec 3, ready.reg (.secChallenge k) = 0) ∧ (withReg (.secChallenge 0) 1 ready).reg (.secChallenge 0) ≠ 0 := by
  simp only [MemOk, RegsOk, Powered]; decide +kernel

/-- Lifecycle state `n` with its tokens. -/
def lifecycle (n : Nat) (cork own : Option Token) (s : State) : State := withReg .secLc (BitVec.ofNat 32 n) { s with sec := { s.sec with corkorTok := cork, ownerTok := own } }
def tokenOf (typ arg : Nat) : Token := { typ := typ, signer := 0, arg := arg, payload := [] }
def entReady (s : State) : State := { withReg .entStatus (F.entStatus_SEEDED.put 3 1) s with ent := { s.ent with pool := [] } }
def halting (n : Nat) : State := { onTile tile0 with sec := { running.sec with session := n } }

/-- Words of the token buffer. -/
def tokened (bs : List Byte) (s : State) : State :=
  (List.range 16).foldl (fun u i => withReg (.secTokenBuf (BitVec.ofNat 10 i)) (BitVec.ofNat 32 (leAt bs (4 * i) 4)) u) s
def tokenHead (typ signer serial : Nat) (chal : List Byte) : List Byte :=
  ascii "CKTK" ++ leBytes 1 typ ++ leBytes 1 signer ++ leBytes 2 0 ++ leBytes 16 serial ++ chal ++ zeros 8
def challenge : List Byte := [0, 0, 0, 1] ++ zeros 28
def challenged (s : State) : State := withReg (.secChallenge 0) 1 s
/-- A token of type 3 that names the challenge, under Corkor's key `k`. -/
def tokenOk (k : Byte) : State := tokened (tokenHead 3 0 0 challenge) (challenged { ready with otp := { ready.otp with corkorKey := [k] } })
def tokSigned (k : Byte) : Prop := Config.mldsaVerify [k] (sha3 ((tokenBytes (tokenOk k) 2484).take 64)) ((tokenBytes (tokenOk k) 2484).drop 64) = true
/-- The first identity is in place already. -/
def rekeyed : State := lifecycle 0 (some (tokenOf 2 0)) none { entReady ready with
  otp := { ready.otp with ident := [(0, { wrapped := 1, digest := sha3 (Config.mldsaPublic (1 ^^^ Config.wrapMask ready.otp.deviceKey)) })] } }
def unseeded : State := lifecycle 0 (some (tokenOf 2 0)) none { entReady ready with ent := { ready.ent with reseedDue := true } }
def revoking (n : Nat) : State :=
  withReg .secKeyslot (F.secKeyslot_REVOKED.put 0 (BitVec.ofNat 32 n).toNat) (lifecycle 1 (some (tokenOf 6 2)) none ready)

theorem rekeyed_free : entryFree rekeyed = true := by
  have n : nextIndex rekeyed = 0 := by decide +kernel
  simp only [entryFree, n]
  simp [rekeyed, lifecycle, withReg, entReady, tfind, IdentEntry.ok, IdentEntry.public, IdentEntry.seed, ready, State.reset]

theorem witness_LifecycleDebugAndAttestationAct (h : tokSigned 1) (h' : ¬ tokSigned 2) :
    (∀ s ∈ [ready, lifecycle 0 (some (tokenOf 2 0)) none (entReady ready), lifecycle 1 none (some (tokenOf 3 0)) ready, unseeded,
        lifecycle 2 (some (tokenOf 4 0)) (some (tokenOf 4 0)) ready, lifecycle 3 (some (tokenOf 5 0)) none ready, lifecycle 1 (some (tokenOf 1 4)) none ready,
        halting 3, identified ready, revoking 0, revoking 11, lifecycle 2 none (some (tokenOf 1 3)) ready, tokenOk 1, tokenOk 2],
      MemOk s ∧ RegsOk s ∧ Powered s .secLcReq ∧ Powered s .secTokenCtrl ∧ Powered s .secDbgCtrl ∧ Powered s .secHalt ∧ Powered s .secKeyslot ∧
      Powered s .secAttCtrl ∧ s.sec.resetDue = false) ∧
    tokenFormat (tokenBytes ready 64) = false ∧
    (let t := tokenBytes (tokened (tokenHead 3 0 5 []) ready) 64; tokenFormat t = true ∧ leAt t 8 16 ≠ ready.otp.serial.toNat) ∧
    (let s := tokened (tokenHead 3 0 0 challenge) ready
     tokenFormat (tokenBytes s 64) = true ∧ leAt (tokenBytes s 64) 8 16 = s.otp.serial.toNat ∧ ¬ ∃ b ∈ challengeNow s, b ≠ 0) ∧
    (let s := tokened (tokenHead 3 1 0 challenge) (challenged ready)
     tokenFormat (tokenBytes s 64) = true ∧ leAt (tokenBytes s 64) 8 16 = s.otp.serial.toNat ∧ (∃ b ∈ challengeNow s, b ≠ 0) ∧
     ((tokenBytes s 64).drop 24).take 32 = challengeNow s ∧ leAt (tokenBytes s 64) 5 1 = 1 ∧ ownerOf s = none) ∧
    (∀ s ∈ [tokenOk 1, tokenOk 2], tokenFormat (tokenBytes s 64) = true ∧ leAt (tokenBytes s 64) 8 16 = s.otp.serial.toNat ∧
      (∃ b ∈ challengeNow s, b ≠ 0) ∧ ((tokenBytes s 64).drop 24).take 32 = challengeNow s ∧ leAt (tokenBytes s 64) 5 1 = 0 ∧ leAt (tokenBytes s 64) 56 4 = 0) ∧
    ((tokenOk 1).otp.corkorKey = [1] ∧ (tokenOk 2).otp.corkorKey = [2] ∧ tokSigned 1 ∧ ¬ tokSigned 2) ∧
    (let s := lifecycle 0 (some (tokenOf 2 0)) none (entReady ready)
     s.fget .secLc F.secLc_STATE = 0 ∧ ready.job.phase = .none ∧ s.fget .secLc F.secLc_TCOUNT + 1 ≤ 10 ∧ s.fget .entStatus F.entStatus_STATE = 3 ∧
      s.flag .entStatus F.entStatus_SEEDED = true ∧ s.ent.reseedDue = false ∧ s.fget .entReqSince F.entReqSince_REQS < 65536 ∧
      entryFree s = true ∧ tfind s.otp.ident 0 = none ∧ tfind s.otp.owner 0 = none) ∧
    (unseeded.fget .entStatus F.entStatus_STATE = 3 ∧ entryFree unseeded = true ∧ unseeded.ent.reseedDue = true ∧ unseeded.ent.pool = [] ∧
      tfind unseeded.otp.ident 0 = none) ∧
    (MemOk rekeyed ∧ RegsOk rekeyed ∧ rekeyed.fget .secLc F.secLc_STATE = 0 ∧ rekeyed.fget .secLc F.secLc_TCOUNT + 1 ≤ 10 ∧
      rekeyed.fget .entStatus F.entStatus_STATE = 3 ∧ entryFree rekeyed = true ∧ (tfind rekeyed.otp.ident 0).isSome = true) ∧
    (running.job.phase ≠ .none ∧ (tokenOf 3 0).typ = 3 ∧ (lifecycle 1 none (some (tokenOf 3 0)) ready).fget .secLc F.secLc_STATE = 1 ∧
      (withReg .secLc (F.secLc_TCOUNT.put 0 10) ready).fget .secLc F.secLc_TCOUNT = 10 ∧
      (lifecycle 0 (some (tokenOf 2 0)) none ready).fget .entStatus F.entStatus_STATE ≠ 3) ∧
    ({ ready with sec := { ready.sec with resetDue := true } } : State).sec.resetDue = true ∧
    (F.secDbgCtrl_LEVEL.get (1#32) = 1 ∧ F.secDbgCtrl_LEVEL.get (4#32) = 4 ∧ F.secDbgCtrl_LEVEL.get (5#32) = 5) ∧ pstate ready < 3 ∧
    pstate (inState 4 ready) = 4 ∧ (tokenOf 1 4).typ = 1 ∧ (tokenOf 1 4).arg = 4 ∧
    (3 ≤ (halting 3).sec.session ∧ ¬ 3 ≤ (halting 2).sec.session ∧ (tkeys (halting 3).tiles).Nodup ∧ (0 : TileId) ∈ jobTiles (halting 3) ∧
      ((halting 3).tile 0).mode = .run ∧ F.secHalt_ALL.get (F.secHalt_ALL.put 0 1) = 1 ∧ (∀ x, (ready.tile x).mode ≠ .run)) ∧
    (let s := revoking 0
     s.sec.corkorTok = some (tokenOf 6 2) ∧ s.fget .secLc F.secLc_STATE ≠ 4 ∧ s.fget .secKeyslot F.secKeyslot_REVOKED ||| 2 ^ 2 ≠ 15) ∧
    ((revoking 11).fget .secKeyslot F.secKeyslot_REVOKED ||| 2 ^ 2 = 15 ∧ ((revoking 11).fget .secKeyslot F.secKeyslot_REVOKED).testBit 2 = false) ∧
    (ready.flag .secAttCtrl F.secAttCtrl_BUSY = false ∧ hasIdentity ready = false ∧ hasIdentity (identified ready) = true ∧ (identified ready).ent.alarm = false ∧
      (identified ready).flt.mcAbsent = false ∧ hasIdentity (without (identified ready)) = true ∧ (without (identified ready)).flt.mcAbsent = true) ∧
    ({ identified ready with ent := { alarm := true } } : State).ent.alarm = true ∧
    (withReg .secAttCtrl (F.secAttCtrl_BUSY.put 0 1) ready).flag .secAttCtrl F.secAttCtrl_BUSY = true ∧ ready.sec.attRnd = none ∧
    ({ ready with sec := { ready.sec with attRnd := some 5 } } : State).sec.attRnd = some 5 := by
  have z : ∀ x, (ready.tile x).mode ≠ .run := fun x => by simp [State.tile, ready, State.reset, tget]
  refine ⟨?_, ?_, ?_, ?_, ?_, ?_, ⟨rfl, rfl, h, h'⟩, ?_, ?_, ⟨?_, ?_, ?_, ?_, ?_, rekeyed_free, rfl⟩, ?_, ?_, ?_, ?_, ?_, ?_, ?_, ⟨?_, ?_, ?_, ?_, ?_, ?_, z⟩, ?_, ?_, ?_,
    ?_, ?_, ?_, ?_⟩ <;> (try simp only [MemOk, RegsOk, Powered]) <;> decide +kernel

def bmcSession (s : State) : State := { s with sec := { s.sec with source := 2 } }

theorem witness_ManagementAndTapAnswer :
    (∀ s ∈ [ready, State.reset, inState 4 ready, mcGone none ready, tripped (inState 2 ready), sessionOf 4 ready, bmcSession ready, bmcSession (phase 3),
        inState 1 ready, recovery ready, { ready with pins := { ready.pins with alertN := false } }], MemOk s ∧ RegsOk s ∧ s.pwr.exiting = false ∧ s.pwr.req = none) ∧
    ready.pins.inputUp = true ∧ State.reset.pins.inputUp = false ∧ pstate (inState 4 ready) = 4 ∧ (mcGone none ready).flt.mcAbsent = true ∧
    ((∃ r ∈ regAt ready (Reg.pgvTj 0).addr, r.isTelemetry = true ∧ r.pairLo = none ∧ r.pairHi = none) ∧ offBlock ready (Reg.pgvTj 0).addr = false) ∧
    regAt ready (Reg.svcCtrl 0).addr ≠ none ∧ (Reg.svcCtrl 0).isTelemetry = false ∧
    (offBlock (bmcSession (phase 3)) (Reg.svcCtrl 0).addr = true ∧ (bmcSession (phase 3)).sec.source = 2 ∧ (bmcSession ready).sec.source = 2 ∧
      offBlock (bmcSession ready) 0x3FFFFFC = false ∧ regAt (bmcSession ready) 0x3FFFFFC = none ∧
      regAt (bmcSession ready) (Reg.echoSeqLo).addr = some .echoSeqLo ∧ offBlock (bmcSession ready) (Reg.echoSeqLo).addr = false ∧
      (Reg.echoSeqLo).pairHi = some .echoSeqHi ∧ (Reg.echoSeqLo).pairLo = none ∧ (Reg.echoSeqHi).pairLo = some .echoSeqLo ∧
      regAt (bmcSession ready) (Reg.echoSeqHi).addr = some .echoSeqHi ∧ offBlock (bmcSession ready) (Reg.echoSeqHi).addr = false) ∧
    regAt ready (Reg.pwrRefuse).addr = some .pwrRefuse ∧ (0x20000 ≤ (Reg.pwrRefuse).addr ∧ (Reg.pwrRefuse).addr < 0x20050) ∧
    (regAt (mcGone none ready) (Reg.secTokenBuf 0).addr = some (.secTokenBuf 0) ∧ ¬ (Reg.secTokenBuf 0).addr < 0x20050 ∧ (Reg.secTokenBuf 0).addr ≠ 0x30040) ∧
    (regAt (recovery ready) (Reg.secTokenBuf 0).addr = some (.secTokenBuf 0) ∧ offBlock (recovery ready) (Reg.secTokenBuf 0).addr = true ∧
      (recovery ready).flt.mcAbsent = false) ∧
    regAt ready 0x30040 = some .secDbgCtrl ∧ offBlock ready 0x30040 = false ∧
    (F.secDbgCtrl_CLOSE.get (F.secDbgCtrl_OPEN.put 1 1) = 0 ∧ F.secDbgCtrl_OPEN.get (F.secDbgCtrl_OPEN.put 1 1) = 1 ∧ F.secDbgCtrl_LEVEL.get (F.secDbgCtrl_OPEN.put 1 1) = 1) ∧
    ready.pins.alertN = true ∧ (tripped (inState 2 ready)).pwr.hot ≠ [] ∧ (tripped (inState 2 ready)).pins.thermtripN = false ∧ pstate (inState 1 ready) = 1 ∧
    ready.sec.session ≠ 4 ∧ (sessionOf 4 ready).sec.session = 4 := by
  simp only [MemOk, RegsOk]; (repeat' apply And.intro) <;> decide +kernel

/-- A tile whose register 1 holds a NaN, the infinities and ±1.0 in lanes 0 to 4, with Flowstone in a state. -/
def flowTile (f : Flow) : Tile := { tile0 with vr := [(1, ofLanes [0x7FC00001#32, pinf32, ninf32, 0x3F800000#32, 0xBF800000#32])], fs := f }

theorem flowTile_meets (f : Flow) : canAct (onTile (flowTile f)) 0 = true ∧ RegsOk (onTile (flowTile f)) ∧ ((onTile (flowTile f)).tile 0).fs = f := by
  refine ⟨?_, ?_, rfl⟩
  · have a : dieStopped (onTile (flowTile f)) (dieOf 0) = false := (by decide +kernel : dieStopped running (dieOf 0) = false)
    have b : stepHeld (onTile (flowTile f)) 0 = false := (by decide +kernel : stepHeld running 0 = false)
    have c : (onTile (flowTile f)).tile 0 = flowTile f := rfl
    simp only [canAct, canStart, c, a]
    simp [flowTile, tile0, onTile, running]
    exact b
  show ∀ p ∈ (onTile tile0).regs, _
  decide

theorem witness_FlowstoneFlagsGovernItsRead :
    (∀ f ∈ [({} : Flow), { nan := true }, { pinf := true, ninf := true }, { pinf := true }, { pinf := true, infIn := true },
        { ninf := true }, { ninf := true, infIn := true }],
      canAct (onTile (flowTile f)) 0 = true ∧ RegsOk (onTile (flowTile f)) ∧ ((onTile (flowTile f)).tile 0).fs = f) ∧
    isNan32 (lane ((flowTile {}).vreg 1) 0) = true ∧ lane ((flowTile {}).vreg 1) 1 = pinf32 ∧ lane ((flowTile {}).vreg 1) 2 = ninf32 ∧
    isInf32 pinf32 = true :=
  ⟨fun f _ => flowTile_meets f, by decide +kernel⟩

theorem flowLanes_finite : isFin32 (lane ((flowTile {}).vreg 1) 3) = true ∧ isFin32 (lane ((flowTile {}).vreg 1) 4) = true ∧
    f32v (lane ((flowTile {}).vreg 1) 3) = .fin false 8388608 (-23) ∧ f32v (lane ((flowTile {}).vreg 1) 4) = .fin true 8388608 (-23) := by decide +kernel

/-- One below the limit, and the limit on either side, with an addend k. -/
theorem flow_bounds (n : Nat) (k : Int) (h : 0 < n) :
    ((n : Int) - 1 - k + k).natAbs < n ∧ (n : Int) ≤ (n : Int) - k + k ∧ k - (n : Int) + -k ≤ -(n : Int) := by omega

theorem witness_FlowstoneSumsExactlyBelowItsLimit :
    (∀ x ∈ [lane ((flowTile {}).vreg 1) 3, lane ((flowTile {}).vreg 1) 4], isFin32 x = true) ∧
    (∀ f ∈ [({ count := 65536 } : Flow), { count := 65535 }, { val := ((2 ^ 319 : Nat) : Int) - 1 - 8388608 * 2 ^ 126 },
        { val := ((2 ^ 319 : Nat) : Int) - 8388608 * 2 ^ 126 }, { val := 8388608 * 2 ^ 126 - ((2 ^ 319 : Nat) : Int) }],
      canAct (onTile (flowTile f)) 0 = true ∧ RegsOk (onTile (flowTile f)) ∧ ((onTile (flowTile f)).tile 0).fs = f) ∧
    (((2 ^ 319 : Nat) : Int) - 1 - 8388608 * 2 ^ 126 + 8388608 * 2 ^ 126).natAbs < 2 ^ 319 ∧
    ((2 ^ 319 : Nat) : Int) ≤ ((2 ^ 319 : Nat) : Int) - 8388608 * 2 ^ 126 + 8388608 * 2 ^ 126 ∧
    8388608 * 2 ^ 126 - ((2 ^ 319 : Nat) : Int) + -(8388608 * 2 ^ 126) ≤ -((2 ^ 319 : Nat) : Int) :=
  ⟨by simp [flowLanes_finite], fun f _ => flowTile_meets f, flow_bounds (2 ^ 319) (8388608 * 2 ^ 126) (Nat.two_pow_pos 319)⟩

/-! ### Single steps, with results worked by hand from the rules -/

/-- A tile with vector registers 1 to 3. -/
def vecs (a b c : Line) : Tile := { tile0 with vr := [(1, a), (2, b), (3, c)] }

/-- What tile 0 has waiting to be written at the end of its beat. -/
def wrote (s : State) : List RegW := (s.tile 0).writes

/-- Lane 0 of the first write that a command leaves. -/
def lane0 (s : State) : Option U32 :=
  match wrote s with
  | .vec _ v _ :: _ => some (lane v 0)
  | _ => none

/-- A block with nothing to do stays as it is (notes/assumptions/32.md). -/
theorem test_step_on_an_empty_queue : step ready = .next ready := by rfl

/-- LOOP_ONE with ARG 2 makes three beats of one bundle: the first leaves the level open with two to go (R43, R44). -/
theorem test_loop_one_counts : ((after (.loopOne 0 2) (onTile tile0)).tile 0).bpos = 0 ∧
    ((after (.loopOne 0 0) (onTile tile0)).tile 0).bpos = 1 := by decide +kernel

/-- 1.0 + 2.0 = 3.0 in FP32 (R84). -/
theorem test_vadd : lane0 (after (.vadd 0 4 1 2 0 0) (onTile (vecs 0x3F800000 0x40000000 0))) = some 0x40400000 := by decide +kernel
/-- ∞ − ∞ is the default NaN, an invalid operation (R91). -/
theorem test_vsub_invalid : lane0 (after (.vsub 0 4 1 2 0 0) (onTile (vecs 0x7F800000 0x7F800000 0))) = some 0x7FC00000 := by decide +kernel
/-- 1.5 × −2.0 = −3.0. -/
theorem test_vmul : lane0 (after (.vmul 0 4 1 2 0 0) (onTile (vecs 0x3FC00000 0xC0000000 0))) = some 0xC0400000 := by decide +kernel
/-- (1 + 2^−23)² − (1 + 2^−22) is 2^−46, which two roundings would lose (R84). -/
theorem test_vfma_rounds_once : lane0 (after (.vfma 0 4 1 2 3 0 0) (onTile (vecs 0x3F800001 0x3F800001 0xBF800002))) = some 0x28800000 := by
  decide +kernel
/-- −0 is below +0 (R90). -/
theorem test_vmin_zeros : lane0 (after (.vmin 0 4 1 2 0) (onTile (vecs 0 0x80000000 0))) = some 0x80000000 := by decide +kernel
theorem test_vmax_zeros : lane0 (after (.vmax 0 4 1 2 0) (onTile (vecs 0x80000000 0 0))) = some 0 := by decide +kernel
/-- FP32 1 + 2^−8 to BF16 is a tie, to even: 1.0 (R83, R88). -/
theorem test_vcvt_ties_to_even : lane0 (after (.vcvt 0 4 1 0 1 0 false) (onTile (vecs 0x3F808000 0 0))) = some 0x3F80 := by decide +kernel
/-- Mask bit 0 takes VA, a clear bit takes VB (R263). -/
theorem test_vsel : lane0 (after (.vsel 0 4 1 2 5) (onTile { vecs 7 9 0 with mask := [(5, 1)] })) = some 7 ∧
    lane0 (after (.vsel 0 4 1 2 5) (onTile { vecs 7 9 0 with mask := [(5, 2)] })) = some 9 := by decide +kernel
/-- 2^3 = 8.0 exactly (R96). -/
theorem test_exp2_integer : lane0 (after (.exp2 0 4 1) (onTile (vecs 0x40400000 0 0))) = some 0x41000000 := by decide +kernel

/-- IXSET gives the index register its line for the next beat (R264). -/
theorem test_ixset : wrote (after (.ixset 0 3 0x7F0) (onTile tile0)) = [.ix 3 0x7F0] := by decide +kernel
/-- LDV of a line that was stored by STV; the store acts in the beat, at bank 2, line 1 (R46, R264). -/
theorem test_stv_stores : memRead (after (.stv 0 2 1 false 0 false 1) (onTile (vecs 0xABCDEF 0 0))).mem (spm 0 2 1) 4 = [0xEF, 0xCD, 0xAB, 0] := by
  decide +kernel

/-- INC and ADD move the counter that the handle names; ADD takes bits 15:0 of its register (R229, R266). -/
def syncTile : Tile := { tile0 with trec := { tile0.trec with handles := [9], svInit := [0x10005], svStep := [2] } }
theorem test_inc : (after (.inc 0 0) (onTile syncTile)).reg (.syncCnt 9) = 1 := by decide +kernel
theorem test_add_takes_sixteen_bits : (after (.add 0 0 0 true) (onTile syncTile)).reg (.syncCnt 9) = 5 ∧
    ((after (.add 0 0 0 true) (onTile syncTile)).tile 0).svreg 0 = 0x10007 := by decide +kernel
/-- An increase past 0xFFFF_FFFF saturates and faults (R232). -/
theorem test_inc_saturates : (after (.inc 0 0) (withReg (.syncCnt 9) 0xFFFFFFFF (onTile syncTile))).reg (.syncCnt 9) = 0xFFFFFFFF ∧
    (after (.inc 0 0) (withReg (.syncCnt 9) 0xFFFFFFFF (onTile syncTile))).flag (.syncFault 0) F.syncFault_OVF = true := by decide +kernel
/-- WAIT_GE below its threshold leaves an input to wait for (R229). -/
theorem test_wait_ge_waits : ((after (.waitGe 0 0 0 false) (onTile syncTile)).tile 0).waits = [.ge 9 0x10005] := by decide +kernel

/-- RECV from a port with no flit waits (R14); with one it takes it, tag and all (R117). -/
theorem test_recv : ((after (.recv 0 1 true 4 0 false false) (onTile tile0)).tile 0).waits = [.recv 1 (.vec 4)] ∧
    wrote (after (.recv 0 1 true 4 0 false false) (onTile { tile0 with inbox := [(1, [{ data := 77, tag := some 6 }])] })) = [.vec 4 77 (some 6)] := by
  decide +kernel

/-- A read of LO latches HI (R11). -/
theorem test_pair_read_latches : tget (after (.pairLoRead (Reg.echoTailLo).addr 0) (withReg .echoTailHi 0x12 ready)).latched 0 .echoTailHi = 0x12 := by
  decide +kernel
/-- A write of LO is held until HI is written, then both words act (R11). -/
theorem test_pair_write : (after (.pairLoWrite (Reg.qSqbaseLo 3).addr 0x5000) ready).reg (.qSqbaseLo 3) = 0 ∧
    (after (.pairHiWrite (Reg.qSqbaseHi 3).addr 7) (after (.pairLoWrite (Reg.qSqbaseLo 3).addr 0x5000) ready)).reg (.qSqbaseLo 3) = 0x5000 ∧
    (after (.pairHiWrite (Reg.qSqbaseHi 3).addr 7) (after (.pairLoWrite (Reg.qSqbaseLo 3).addr 0x5000) ready)).reg (.qSqbaseHi 3) = 7 := by
  decide +kernel
/-- An access to an unpowered block is counted with its address, and a write of 1 clears (R236, R245). -/
theorem test_powered_off : (after (.poweredOffAccess (Reg.svcCtrl 0).addr true false) State.reset).reg .offCount = 1 ∧
    (after .offaccessClear (withReg .offCount 5 ready)).reg .offCount = 0 := by decide +kernel

/-- Queue pair 2 is enabled, with rings of 16 entries. -/
def qOnAt (q : BitVec 6) (s : State) : State := withReg (.qCfg q) (F.qCfg_EN.put (F.qCfg_SQSZ.put (F.qCfg_CQSZ.put 0 4) 4) 1) s
/-- A tail in range is taken; one past the ring is an error (R333). -/
theorem test_doorbell : ((after (.sqTailDoorbell 2 3 0) (qOnAt 2 ready)).qp 2).tail = 3 ∧
    (after (.sqTailDoorbell 2 0x10000 0) (qOnAt 2 ready)).flag .hifErr F.hifErr_DB_RANGE = true := by decide +kernel

/-- A request to enter S1 is pending with its source (R384). -/
theorem test_power_request : (after (.pwrEntryRequest 2 0 0) ready).reg .pwrState = 0x120 := by decide +kernel
/-- A mailbox command that is not in the table answers UNSUPPORTED (R348). -/
theorem test_unknown_mailbox_command : (after (.unknownCommand 0x77) ready).reg .mbxStatus ≠ ready.reg .mbxStatus := by decide +kernel
/-- A warning by one die reaches PWR_THERM (R396). -/
theorem test_warning : (after (.thermalWarning (.die 2) 95) ready).reg .pwrTherm ≠ 0 := by decide +kernel
/-- A halted tile: HALT ends the tile's job (R43). -/
theorem test_halt : ((after (.halt 0) (onTile tile0)).tile 0).mode = .done := by decide +kernel
/-- A trip of a stack leads to S3, one of the IOD to S5 (R398). -/
theorem test_trip : pstate (after (.thermalTrip (.stack 9) 106 true 0) ready) = 3 ∧ pstate (after (.thermalTrip .iod 120 false 0) ready) = 5 := by
  decide +kernel
/-- A response to the alert address releases ALERT_N (notes/assumptions/31.md). -/
theorem test_alert_response : (after .smbusAlertResponse { ready with pins := { ready.pins with alertN := false } }).pins.alertN = true := by decide +kernel
/-- IDCODE shifts out 0x1C580A9D; BYPASS a 0 (R458). -/
theorem test_tap : (after (.tapInstruction .idcode) ready).out.tdo = 0x1C580A9D ∧ (after (.tapInstruction .bypass) ready).out.tdo = 0 := by decide +kernel
/-- A start of a second on PPS_OUT sets PTP time to 2 s = 0x7735_9400 ns (R374). -/
theorem test_pps_out : (after (.ppsOutEdge 2) ready).reg .ptpTimeLo = 0x77359400 := by decide +kernel
/-- One addend of Flowstone read back is itself (R58, R59). -/
theorem test_flowstone : ((after (.fsAdd 0 1 0) (onTile (vecs 0x40490FDB 0 0))).tile 0).fs.read.1 = 0x40490FDB := by decide +kernel
/-- A word written through the window lies in the scratchpad, byte 0 lowest (R51, R74). -/
theorem test_tile_window : (after (.tileSpmDataWrite 0 0x11223344) ready).mem = [((spm 0 0 0), 0x44#8), ((spm 0 0 0) + 1, 0x33#8), ((spm 0 0 0) + 2, 0x22#8), ((spm 0 0 0) + 3, 0x11#8)] := by
  decide +kernel

/-! ### The manual's worked examples -/

/-- "Worked example: cancellation" (04): +2^30, six of 1.0, −2^30. -/
def big : U32 := 0x4E800000
def nbig : U32 := 0xCE800000
def one32 : U32 := 0x3F800000
def rne (a b : U32) : U32 := (fadd .rne a b).1
theorem test_cancellation_tree :
    rne big one32 = big ∧ rne one32 one32 = 0x40000000 ∧ rne one32 nbig = nbig ∧ rne big 0x40000000 = big ∧ rne 0x40000000 nbig = nbig ∧
    rne big nbig = 0 := by decide +kernel
/-- The same leaves through Flowstone read 6.0. -/
theorem test_cancellation_flowstone :
    (([big, one32, one32, one32, one32, one32, one32, nbig].foldl Flow.add {}).read).1 = 0x40C00000 := by decide +kernel

/-- "Worked example: mask, top-p and min-p" (06): the masses of the entries at 4.0, 3.0, 1.0 and 2.0 with M = 4.0 and C = 1.0. -/
theorem test_masses :
    (massOf 0x40800000 0x40800000 one32).1 = 2 ^ 40 ∧ (massOf 0x40400000 0x40800000 one32).1 = 2 ^ 39 ∧
    (massOf one32 0x40800000 one32).1 = 2 ^ 37 ∧ (massOf 0x40000000 0x40800000 one32).1 = 2 ^ 38 := by decide +kernel
/-- Its target P_t. -/
theorem test_target : topTarget 0x3F666666 3161095929856 = 2844986261504 := by decide +kernel
/-- Its threshold τ = 2 + 2^−24: masses with d in units of 2^−149. -/
def exMass : List (Nat × Nat) := [(2 ^ 40, 0), (2 ^ 39, 2 ^ 149), (2 ^ 40, 0), (2 ^ 37, 3 * 2 ^ 149), (2 ^ 38, 2 * 2 ^ 149)]
theorem test_threshold : toppThreshold exMass exMass exMass 2844986261504 = 2 ^ 150 + 2 ^ 125 := by decide +kernel

/-- AES-128 with the key 00…0F on 00112233…FF (FIPS 197, appendix C.1), which R125 names. -/
theorem test_aes : Aes.aes128 0x000102030405060708090A0B0C0D0E0F 0x00112233445566778899AABBCCDDEEFF = 0x69C4E0D86A7B0430D8CDB78070B4C55A := by
  decide +kernel
/-- SHA3-256 of "abc" (FIPS 202), which R289 names. -/
theorem test_sha3_abc : sha3 [0x61, 0x62, 0x63] = 0x3A985DA74FE225B2045C172D6BD390BD855F086E3E9D525B46BFE24511431532 := by decide +kernel
end Sys2Proof.Tests
end

section
/-!
PROOFS. Flowstone (R58-R60): what an addend of each class does to the accumulator, what a read returns, and the slots that add,
read and clear.
-/
namespace Sys2Proof.Machine

/-! ### Classes of FP32 encodings (R75) -/

theorem toNat_and_magnitudeMask (a : U32) : (a &&& 0x7FFFFFFF#32).toNat = a.toNat % 2 ^ 31 :=
  Nat.and_two_pow_sub_one_eq_mod a.toNat 31

theorem isNan32_iff (a : U32) : isNan32 a = true ↔ 0x7F800000 < a.toNat % 2 ^ 31 := by
  rw [isNan32, toNat_and_magnitudeMask, decide_eq_true_eq]

theorem isFin32_iff (a : U32) : isFin32 a = true ↔ a.toNat % 2 ^ 31 < 0x7F800000 := by
  rw [isFin32, toNat_and_magnitudeMask, decide_eq_true_eq]

/-- The encodings whose magnitude bits are those of infinity are the two infinities. -/
theorem eq_inf32_iff (a : U32) : a.toNat % 2 ^ 31 = 0x7F800000 ↔ a = pinf32 ∨ a = ninf32 := by
  have ha := a.isLt
  have hp : pinf32.toNat = 0x7F800000 := rfl
  have hn : ninf32.toNat = 0xFF800000 := rfl
  rw [← BitVec.toNat_inj, ← BitVec.toNat_inj, hp, hn]
  omega

theorem isInf32_iff (a : U32) : isInf32 a = true ↔ a = pinf32 ∨ a = ninf32 := by
  rw [isInf32, decide_eq_true_eq, ← BitVec.toNat_inj, toNat_and_magnitudeMask]
  exact eq_inf32_iff a

theorem not_isInf32_of_isNan32 {a : U32} (h : isNan32 a = true) : isInf32 a = false := by
  rw [isNan32_iff] at h
  rw [Bool.eq_false_iff, ne_eq, isInf32_iff, ← eq_inf32_iff]
  omega

theorem special_of_not_isFin32 {a : U32} (h : ¬ isFin32 a = true) : isNan32 a = true ∨ isInf32 a = true := by
  rw [isFin32_iff] at h
  rw [isNan32_iff, isInf32_iff, ← eq_inf32_iff]
  omega

theorem not_special_of_isFin32 {a : U32} (h : isFin32 a = true) : isNan32 a = false ∧ a ≠ pinf32 ∧ a ≠ ninf32 := by
  rw [isFin32_iff] at h
  rw [Bool.eq_false_iff, ne_eq, isNan32_iff, ← not_or, ← eq_inf32_iff]
  omega

/-- The exact value of FP32 bits by their fields (R75). -/
theorem f32v_eq (a : U32) : f32v a =
    let neg := decide (a.toNat / 2 ^ 31 % 2 = 1)
    let ex : Nat := a.toNat / 2 ^ 23 % 2 ^ 8
    let ma : Nat := a.toNat % 2 ^ 23
    if ex = 255 then (if ma = 0 then .inf neg else .nan)
    else if ex = 0 then .fin neg ma (-149)
    else .fin neg (2 ^ 23 + ma) ((ex : Int) - 127 - 23) := by
  simp [f32v, Layout.value, fp32, Layout.expMax, Layout.qmin]
  rfl

theorem f32v_of_nan {a : U32} (h : isNan32 a = true) : f32v a = .nan := by
  rw [isNan32_iff] at h
  rw [f32v_eq]
  dsimp only
  rw [if_pos (by omega), if_neg (by omega)]

theorem f32v_pinf32 : f32v pinf32 = .inf false := by decide
theorem f32v_ninf32 : f32v ninf32 = .inf true := by decide

/-- A finite encoding is a significand of at most 24 bits at an exponent of at most 104. -/
theorem f32v_of_fin {a : U32} (h : isFin32 a = true) : ∃ neg m e, f32v a = .fin neg m e ∧ m < 2 ^ 24 ∧ e ≤ 104 := by
  rw [isFin32_iff] at h
  rw [f32v_eq]
  dsimp only
  rw [if_neg (by omega)]
  split <;> exact ⟨_, _, _, rfl, by omega, by omega⟩

/-! ### One addend (R58-R60) -/

/-- The exact value of FP32 bits in units of 2^-149, 0 where they are not finite. -/
def flowUnits (a : U32) : Int :=
  match f32v a with
  | .fin neg m e => (if neg then -1 else 1) * ((m : Int) * 2 ^ (e + 149).toNat)
  | _ => 0

theorem flowUnits_of_f32v {a : U32} {neg : Bool} {m : Nat} {e : Int} (h : f32v a = .fin neg m e) :
    flowUnits a = (if neg then -1 else 1) * ((m : Int) * 2 ^ (e + 149).toNat) := by
  rw [flowUnits, h]

theorem flowLimit_eq : flowLimit = ((2 ^ 319 : Nat) : Int) := (Nat.cast_pow 2 319).symm

/-- No finite FP32 value reaches 2^128, which is 2^24 * 2^253 units. -/
theorem natAbs_flowUnits_le {a : U32} (h : isFin32 a = true) : (flowUnits a).natAbs ≤ 2 ^ 24 * 2 ^ 253 := by
  obtain ⟨neg, m, e, hv, hm, he⟩ := f32v_of_fin h
  have hs : (if neg then -1 else 1 : Int).natAbs = 1 := by cases neg <;> rfl
  calc (flowUnits a).natAbs = m * 2 ^ (e + 149).toNat := by
        rw [flowUnits_of_f32v hv, Int.natAbs_mul, hs, Nat.one_mul, Int.natAbs_mul, Int.natAbs_pow]; rfl
    _ ≤ 2 ^ 24 * 2 ^ 253 := Nat.mul_le_mul hm.le (Nat.pow_le_pow_right (by decide) (by omega))

/-- A NaN or an infinity sets the flag of its class and leaves the sum (R59). -/
theorem Flow.add_of_special (f : Flow) {a : U32} (h : isNan32 a = true ∨ isInf32 a = true) : f.add a =
    { f with count := f.count + 1, nan := f.nan || isNan32 a, pinf := f.pinf || decide (a = pinf32),
             ninf := f.ninf || decide (a = ninf32), infIn := f.infIn || isInf32 a } := by
  rw [isInf32_iff] at h
  rcases h with h | rfl | rfl
  · have hi : isInf32 a = false := not_isInf32_of_isNan32 h
    have hne : ¬(a = pinf32 ∨ a = ninf32) := by rw [← isInf32_iff, hi]; decide
    simp [Flow.add, f32v_of_nan h, h, hi, not_or.1 hne]
  · simp [Flow.add, f32v_pinf32, show isNan32 pinf32 = false by decide, show pinf32 ≠ ninf32 by decide, show isInf32 pinf32 = true by decide]
  · simp [Flow.add, f32v_ninf32, show isNan32 ninf32 = false by decide, show ninf32 ≠ pinf32 by decide, show isInf32 ninf32 = true by decide]

/-- A finite addend by where the exact sum lies (R60). -/
theorem Flow.add_of_fin (f : Flow) {a : U32} (h : isFin32 a = true) : f.add a =
    if flowLimit ≤ f.val + flowUnits a then { f with count := f.count + 1, pinf := true }
    else if f.val + flowUnits a ≤ -flowLimit then { f with count := f.count + 1, ninf := true }
    else { f with count := f.count + 1, val := f.val + flowUnits a } := by
  obtain ⟨neg, m, e, hv, -, -⟩ := f32v_of_fin h
  cases neg <;> simp [Flow.add, hv, flowUnits_of_f32v hv, alignTo, sub_eq_add_neg]

theorem Flow.add_of_fin_within {f : Flow} {a : U32} (h : isFin32 a = true) (hz : (f.val + flowUnits a).natAbs < 2 ^ 319) :
    f.add a = { f with count := f.count + 1, val := f.val + flowUnits a } := by
  rw [Flow.add_of_fin f h, flowLimit_eq, if_neg (by omega), if_neg (by omega)]

theorem Flow.add_of_fin_above {f : Flow} {a : U32} (h : isFin32 a = true) (hz : flowLimit ≤ f.val + flowUnits a) :
    f.add a = { f with count := f.count + 1, pinf := true } := by
  rw [Flow.add_of_fin f h, if_pos hz]

theorem Flow.add_of_fin_below {f : Flow} {a : U32} (h : isFin32 a = true) (hz : f.val + flowUnits a ≤ -flowLimit) :
    f.add a = { f with count := f.count + 1, ninf := true } := by
  have hl : 0 < flowLimit := Int.pow_pos (by decide)
  rw [Flow.add_of_fin f h, if_neg (by omega), if_pos hz]

/-- A finite addend leaves the NaN flag, and an infinity flag that is set stays set (R59). -/
theorem Flow.add_of_fin_flags (f : Flow) {a : U32} (h : isFin32 a = true) :
    (f.add a).nan = f.nan ∧ (f.pinf = true → (f.add a).pinf = true) ∧ (f.ninf = true → (f.add a).ninf = true) := by
  rw [Flow.add_of_fin f h]
  split_ifs <;> simp +contextual

theorem Flow.add_count (f : Flow) (a : U32) : (f.add a).count = f.count + 1 := by
  by_cases h : isFin32 a = true
  · rw [Flow.add_of_fin f h]
    split_ifs <;> rfl
  · rw [Flow.add_of_special f (special_of_not_isFin32 h)]

/-- The flags after an addend of any class (R59). -/
theorem Flow.add_flags (f : Flow) (a : U32) :
    (f.add a).nan = (f.nan || isNan32 a) ∧ (f.pinf = true ∨ a = pinf32 → (f.add a).pinf = true) ∧
    (f.ninf = true ∨ a = ninf32 → (f.add a).ninf = true) := by
  by_cases h : isFin32 a = true
  · obtain ⟨hnan, hpinf, hninf⟩ := Flow.add_of_fin_flags f h
    obtain ⟨hn, hp, hm⟩ := not_special_of_isFin32 h
    exact ⟨by simp [hnan, hn], fun hx => hpinf (hx.resolve_right hp), fun hx => hninf (hx.resolve_right hm)⟩
  · rw [Flow.add_of_special f (special_of_not_isFin32 h)]
    simp

/-- From an accumulator whose sum its count bounds, up to 2^16 finite addends in all add exactly and set no flag (R60). -/
theorem Flow.foldl_add_of_fin (xs : List U32) : ∀ f : Flow, (∀ x ∈ xs, isFin32 x = true) → f.count + xs.length ≤ 65536 →
    f.val.natAbs ≤ f.count * (2 ^ 24 * 2 ^ 253) →
    xs.foldl Flow.add f = { f with val := f.val + (xs.map flowUnits).sum, count := f.count + xs.length } := by
  induction xs with
  | nil => intro f _ _ _; simp
  | cons x xs ih =>
    intro f hfin hlen hval
    have hx : isFin32 x = true := hfin x List.mem_cons_self
    rw [List.length_cons] at hlen
    have hsum : (f.val + flowUnits x).natAbs ≤ (f.count + 1) * (2 ^ 24 * 2 ^ 253) := by
      have := natAbs_flowUnits_le hx
      omega
    have hlim : (f.val + flowUnits x).natAbs < 2 ^ 319 :=
      calc _ ≤ (f.count + 1) * (2 ^ 24 * 2 ^ 253) := hsum
        _ ≤ 2 ^ 16 * (2 ^ 24 * 2 ^ 253) := Nat.mul_le_mul_right _ (by omega)
        _ < 2 ^ 319 := by rw [← pow_add, ← pow_add]; gcongr <;> norm_num
    rw [List.foldl_cons, Flow.add_of_fin_within hx hlim,
      ih _ (fun y hy => hfin y (List.mem_cons_of_mem _ hy)) (by dsimp only; omega) hsum]
    simp [add_assoc, add_comm 1]

/-- At most 2^16 finite addends leave an empty accumulator at their exact sum (R60). -/
theorem Flow.foldl_add_empty (xs : List U32) (hfin : ∀ x ∈ xs, isFin32 x = true) (hlen : xs.length ≤ 65536) :
    xs.foldl Flow.add {} = { val := (xs.map flowUnits).sum, count := xs.length } := by
  simpa using Flow.foldl_add_of_fin xs {} hfin (by simpa using hlen) (Nat.zero_le _)

/-! ### What a read returns (R59) -/

theorem Flow.read_of_nan {f : Flow} (h : f.nan = true ∨ f.pinf = true ∧ f.ninf = true) : f.read = (nan32, { inv := f.pinf && f.ninf }) := by
  rw [Flow.read, if_pos (by simpa using h)]

theorem Flow.read_of_pinf {f : Flow} (hn : f.nan = false) (hp : f.pinf = true) (hm : f.ninf = false) : f.read = (pinf32, { ovf := !f.infIn }) := by
  simp [Flow.read, hn, hp, hm]

theorem Flow.read_of_ninf {f : Flow} (hn : f.nan = false) (hp : f.pinf = false) (hm : f.ninf = true) : f.read = (ninf32, { ovf := !f.infIn }) := by
  simp [Flow.read, hn, hp, hm]

/-! ### The slots -/

theorem answers_imp {i : Instr} {s : State} {P Q : State → Prop} (h : Answers i s P) (hpq : ∀ u, P u → Q u) : Answers i s Q := by
  obtain ⟨u, hu, hp⟩ := h
  exact ⟨u, hu, hpq u hp⟩

/-- A bit of TILE_ERR that is set where a condition holds. -/
theorem after_when_tileErr {s : State} (hr : RegsOk s) (t : TileId) {f : Fld} (h : f.lo = f.hi) (hi : f.lo < 15) (c : State → Bool) :
    let u := s.after (actWhen c (tileErr t f))
    (∀ v, u.tile v = s.tile v) ∧ u.flag (.tileErr t) f = (s.flag (.tileErr t) f || c s) ∧
    BitsBut [f.lo] (s.reg (.tileErr t)) (u.reg (.tileErr t)) ∧ Only { regs := (· = .tileErr t) } s u := by
  have hw : Only { regs := (· = .tileErr t) } s (s.after (actWhen c (tileErr t f))) :=
    only_after (within_when fun _ => within_setF rfl) (.inr fun _ => id)
  refine ⟨fun v => hw.tile v id, ?_, ?_, hw⟩ <;> cases hc : c s <;> simp only [after_when, hc, Bool.false_eq_true, if_false, if_true]
  · simp
  · simpa using flag_tileErr s t h hi
  · exact fun _ _ => rfl
  · exact bits_tileErr hr t h

section
variable {t : TileId} {s : State}

/-- A change of the tile, then of its TILE_ERR alone. -/
theorem only_of_tile_then (τ : Tile) {u : State} (h : Only { regs := (· = .tileErr t) } (s.apply (.tile t τ)) u) :
    Only { regs := (· = .tileErr t), tiles := (· = t) } s u :=
  only_trans (only_apply (by exact rfl) (.inr fun _ => id)) (only_mono h (fun _ => id) (fun _ => False.elim) (fun _ => id) fun _ => id)

/-- FS_ADD: the addend is in the accumulator, and FS_LIMIT is set past 2^16 addends (R58, R60). -/
theorem answers_fsAdd (ha : canAct s t = true) (hr : RegsOk s) (va ln : Nat) : Answers (.fsAdd t va ln) s fun u =>
    u.tile t = { inItsBeat s t with fs := (s.tile t).fs.add (lane ((s.tile t).vreg va) ln) } ∧
    u.flag (.tileErr t) F.tileErr_FS_LIMIT = (s.flag (.tileErr t) F.tileErr_FS_LIMIT || decide (65536 < (s.tile t).fs.count + 1)) ∧
    BitsBut [F.tileErr_FS_LIMIT.lo] (s.reg (.tileErr t)) (u.reg (.tileErr t)) ∧
    Only { regs := (· = .tileErr t), tiles := (· = t) } s u := by
  let τ : Tile := { inItsBeat s t with fs := (s.tile t).fs.add (lane ((s.tile t).vreg va) ln) }
  have hcount : τ.fs.count = (s.tile t).fs.count + 1 := Flow.add_count ..
  obtain ⟨htile, hflag, hbits, honly⟩ := after_when_tileErr (regsOk_tile hr t τ) t (f := F.tileErr_FS_LIMIT) rfl (by decide)
    fun u => decide (65536 < (u.tile t).fs.count)
  refine answers_of (exec_fsAdd ..) ?_
  simp only [after_inBeat ha, after_all_cons, after_all_nil, after_modTile, tile_apply_tile_same, apply_tile_tile]
  rw [tile_apply_tile_same, hcount] at hflag
  exact ⟨(htile t).trans (tile_apply_tile_same ..), hflag, hbits, only_of_tile_then τ honly⟩

/-- What a read leaves: the lane to be written with the value, the status bits raised, and nothing else (R58, R59). -/
theorem after_fsRead (hr : RegsOk s) {v : U32} {fl : FpFlags} (h : (s.tile t).fs.read = (v, fl)) (vd ln : Nat) :
    let u := (s.apply (.tile t (inItsBeat s t))).after (fsRead t vd ln)
    u.tile t = { inItsBeat s t with writes := (s.tile t).writes ++ [.lane vd ln v] } ∧ FpRaised t fl s u ∧
    Only { regs := (· = .tileErr t), tiles := (· = t) } s u := by
  have hread : (inItsBeat s t).fs.read = (v, fl) := h
  simp only [fsRead, addWrite, after_get, after_all_cons, after_all_nil, after_modTile, tile_apply_tile_same, apply_tile_tile, hread]
  exact ⟨(tile_tileFp ..).trans (tile_apply_tile_same ..), fpRaised_tileFp (regsOk_tile hr t _) t fl,
    only_of_tile_then _ (only_tileFp _ t fl _ rfl)⟩

theorem answers_fsRead (ha : canAct s t = true) (hr : RegsOk s) {v : U32} {fl : FpFlags} (h : (s.tile t).fs.read = (v, fl)) (vd ln : Nat) :
    Answers (.fsRead t vd ln) s fun u => u.tile t = { inItsBeat s t with writes := (s.tile t).writes ++ [.lane vd ln v] } ∧
      FpRaised t fl s u ∧ Only { regs := (· = .tileErr t), tiles := (· = t) } s u := by
  refine answers_of (exec_fsRead ..) ?_
  rw [after_inBeat ha]
  exact after_fsRead hr h vd ln

/-- FS_RDCLR is FS_READ with the accumulator emptied in the same beat (R58). -/
theorem answers_fsRdclr (ha : canAct s t = true) (hr : RegsOk s) {v : U32} {fl : FpFlags} (h : (s.tile t).fs.read = (v, fl)) (vd ln : Nat) :
    Answers (.fsRdclr t vd ln) s fun u => u.tile t = { inItsBeat s t with writes := (s.tile t).writes ++ [.lane vd ln v], fs := {} } ∧
      FpRaised t fl s u ∧ Only { regs := (· = .tileErr t), tiles := (· = t) } s u := by
  obtain ⟨htile, hraised, honly⟩ := after_fsRead hr h vd ln
  refine answers_of (exec_fsRdclr ..) ?_
  rw [after_inBeat ha, after_seq, fsClear, after_modTile, htile]
  exact ⟨tile_apply_tile_same .., hraised, only_trans honly (only_apply (by exact rfl) (.inr fun _ => id))⟩

/-- FS_CLR: the accumulator is empty (R58, R59). -/
theorem answers_fsClr (ha : canAct s t = true) : Answers (.fsClr t) s fun u =>
    u.tile t = { inItsBeat s t with fs := {} } ∧ Only { tiles := (· = t) } s u := by
  refine answers_of (exec_fsClr ..) ?_
  simp only [after_inBeat ha, fsClear, after_modTile, tile_apply_tile_same, apply_tile_tile]
  exact ⟨trivial, only_tile ..⟩
end

/-! ### The obligations -/

/-- Settles O59, class by class of the addend and flag by flag of the read. -/
theorem flowstoneFlagsGovernItsRead : Obligations.FlowstoneFlagsGovernItsRead := by
  intro t s ha hr
  refine ⟨fun va ln => answers_imp (answers_fsAdd ha hr va ln) ?_,
    fun h vd ln => ⟨answers_fsRead ha hr (Flow.read_of_nan h) vd ln, answers_fsRdclr ha hr (Flow.read_of_nan h) vd ln⟩,
    fun hn hp hm vd ln => ⟨answers_fsRead ha hr (Flow.read_of_pinf hn hp hm) vd ln, answers_fsRdclr ha hr (Flow.read_of_pinf hn hp hm) vd ln⟩,
    fun hn hp hm vd ln => ⟨answers_fsRead ha hr (Flow.read_of_ninf hn hp hm) vd ln, answers_fsRdclr ha hr (Flow.read_of_ninf hn hp hm) vd ln⟩,
    answers_fsClr ha⟩
  rintro u ⟨htile, -, hbits, honly⟩
  have hfs : (u.tile t).fs = (s.tile t).fs.add (lane ((s.tile t).vreg va) ln) := by rw [htile]
  obtain ⟨hnan, hpinf, hninf⟩ := Flow.add_flags (s.tile t).fs (lane ((s.tile t).vreg va) ln)
  rw [← hfs] at hnan hpinf hninf
  refine ⟨by rw [hfs, htile], hnan, hpinf, hninf, fun hspecial => ?_, hbits, honly⟩
  rw [hfs, Flow.add_of_special _ hspecial]
  exact ⟨rfl, rfl, rfl⟩

/-- Settles O60, by the place of the exact sum against the limit, and by induction on the addends. -/
theorem flowstoneSumsExactlyBelowItsLimit : Obligations.FlowstoneSumsExactlyBelowItsLimit := by
  refine ⟨Flow.foldl_add_empty, fun t s ha hr va ln hfin => answers_imp (answers_fsAdd ha hr va ln) ?_⟩
  rintro u ⟨htile, hlimit, hbits, honly⟩
  have hfs : (u.tile t).fs = (s.tile t).fs.add (lane ((s.tile t).vreg va) ln) := by rw [htile]
  rw [hfs]
  refine ⟨htile, Flow.add_count .., (Flow.add_of_fin_flags _ hfin).1, fun hz => ?_, fun hz => ?_, fun hz => ?_,
    fun hc => ?_, fun hc => ?_, hbits, honly⟩
  · rw [Flow.add_of_fin_within hfin hz]; exact ⟨rfl, rfl, rfl⟩
  · rw [Flow.add_of_fin_above hfin hz]; exact ⟨rfl, rfl⟩
  · rw [Flow.add_of_fin_below hfin hz]; exact ⟨rfl, rfl⟩
  · simp [hlimit, hc]
  · rw [hlimit, decide_eq_false (by omega), Bool.or_false]

end Sys2Proof.Machine
end

section
/-!
PROOFS. Sync counters (R229-R232): what the slot of a sync operation does to its tile, what a fault of the sync root leaves, an increase past
the top of a counter, and a SET that meets a pending WAIT_GE.
-/
namespace Sys2Proof.Machine

/-! ### The slot of a sync operation -/

/-- The tile as the slot leaves it before the counter acts: STEPV has moved the value register (R266). -/
def stepped (s : State) (t : TileId) (v : Nat) (stepv : Bool) : Tile :=
  { inItsBeat s t with
    sv := if stepv then tset (s.tile t).sv v ((s.tile t).svreg v + BitVec.ofNat 32 ((s.tile t).trec.svStep.getD v 0)) else (s.tile t).sv }

theorem after_syncOp {s : State} {t : TileId} (ha : canAct s t = true) (h v : Nat) (stepv : Bool) (k : BitVec 13 → U32 → Act) :
    s.after (syncOp t h v stepv k) =
      (s.apply (.tile t (stepped s t v stepv))).after (k (handleOf (s.tile t) h) ((s.tile t).svreg v)) := by
  rw [syncOp, after_inBeat ha, after_get, after_seq, tile_apply_tile_same]
  cases stepv
  · rfl
  · simp only [stepSv, after_on, if_true, after_modTile, tile_apply_tile_same, apply_tile_tile]
    rfl

@[simp] theorem stepped_waits (s : State) (t : TileId) (v : Nat) (stepv : Bool) : (stepped s t v stepv).waits = (s.tile t).waits := rfl
@[simp] theorem stepped_ctl (s : State) (t : TileId) (v : Nat) (stepv : Bool) : (stepped s t v stepv).ctl = (s.tile t).ctl := rfl

theorem waits_apply_tile {s : State} {t : TileId} {τ : Tile} (h : τ.waits = (s.tile t).waits) (v : TileId) :
    ((s.apply (.tile t τ)).tile v).waits = (s.tile v).waits := by
  rw [tile_apply_tile]
  split_ifs with hv
  · rw [h, hv]
  · rfl

theorem reg_apply_syncCnt (s : State) (c : BitVec 13) (v : U32) : (s.apply (.reg (.syncCnt c) v)).reg (.syncCnt c) = v := by
  rw [reg_apply_reg_same]
  exact BitVec.and_allOnes

/-! ### Barriers that a sync operation does not reach (R372) -/

theorem after_barrierCheck {s : State} (h : barrierReady s = none) : s.after barrierCheck = s := by
  rw [barrierCheck, after_get]
  cases (if s.job.alone then 0 else s.net.barriers.length) with
  | zero => rfl
  | succ n => rw [barrierSendLoop, after_get, id, h, after_opt_none]

/-- What reaches neither the barriers nor their counters makes no barrier ready. -/
theorem after_barrierCheck_of_only {c : Scope} {s u : State} (h : Only c s u) (hn : .net ∉ c.parts)
    (hr : ∀ b ∈ s.net.barriers, ¬ c.regs (.syncCnt (BitVec.ofNat 13 b.desc.counter))) (hb : barrierReady s = none) :
    u.after barrierCheck = u := by
  refine after_barrierCheck (Eq.trans ?_ hb)
  rw [barrierReady, barrierReady, (h.part .net hn : u.net = s.net)]
  exact List.find?_congr fun b hbs => by rw [h.reg _ (hr b hbs)]

/-! ### Faults of the sync root (R231, R232, R246) -/

theorem only_raiseFault (s : State) (f : FaultRec) (regs : Reg → Prop) : Only (faultScope regs []) s (s.after (raiseFault f)) :=
  only_after (within_when fun _ => within_all_cons (within_modFlt (by simp [faultScope])) <| within_all_cons (within_modJob (by simp [faultScope])) <|
    within_all_cons (fun e he => by rw [List.mem_singleton.1 he]; exact fun _ => trivial) <| within_all_cons (within_setF (.inr rfl)) within_all_nil)
    (.inr fun _ => id)

theorem net_not_mem_faultScope (regs : Reg → Prop) : .net ∉ (faultScope regs []).parts := by simp [faultScope]

theorem only_tile_of_fault (s : State) (t : TileId) (τ : Tile) (regs : Reg → Prop) : Only (faultScope regs []) s (s.apply (.tile t τ)) :=
  only_mono (only_tile s t τ) (fun _ => False.elim) (fun _ _ => trivial) (fun _ => id) fun _ h => absurd h List.not_mem_nil

theorem waits_raiseFault (s : State) (f : FaultRec) (v : TileId) : ((s.after (raiseFault f)).tile v).waits = (s.tile v).waits := by
  cases hj : jobLoaded s
  · rw [after_raiseFault_none f hj]
  · rw [after_raiseFault f hj]
    simp only [after_setF, tile_apply_reg, tile_apply_freeze, freeze_waits]
    rfl

theorem faulted_congr {s w u : State} {f : FaultRec} (hj : w.job = s.job) (hf : w.flt = s.flt) (h : Faulted f w u) : Faulted f s u := by
  rw [Faulted, jobLoaded_congr hj, hf] at h
  exact h

theorem impl_syncFault (d : DieId) : Reg.impl (.syncFault d) = 0x1FFF0007#32 := rfl

theorem flag_setF_syncFault (s : State) (d : DieId) {f : Fld} (hf : f = F.syncFault_SET_RACE ∨ f = F.syncFault_OVF) :
    (s.after (setF (.syncFault d) f 1)).flag (.syncFault d) f = true := by
  rcases hf with rfl | rfl
  · exact decide_eq_true (fget_setF s _ _ 1 (by decide) (by decide) (by rw [impl_syncFault]; decide))
  · exact decide_eq_true (fget_setF s _ _ 1 (by decide) (by decide) (by rw [impl_syncFault]; decide))

/-- The sync root of counter `c` has raised fault bit `f`: it is set, the fault is pending with the job frozen, and every wait stays. -/
structure SyncFaulted (c : BitVec 13) (f : Fld) (code : Nat) (s u : State) : Prop where
  flag : u.flag (.syncFault (c.extractLsb' 10 3)) f = true
  faulted : Faulted { code, die := (c.extractLsb' 10 3 : DieId).toNat, loc := c.toNat } s u
  stopping : jobLoaded s = true → Stopping u
  waits : ∀ v, (u.tile v).waits = (s.tile v).waits
  only : Only (faultScope (· = .syncFault (c.extractLsb' 10 3)) []) s u

theorem syncFaulted_syncFault (s : State) (c : BitVec 13) {f : Fld} (hf : f = F.syncFault_SET_RACE ∨ f = F.syncFault_OVF) (code : Nat) :
    SyncFaulted c f code s (s.after (syncFault c f code)) := by
  simp only [syncFault, after_all_cons, after_all_nil]
  generalize hd : (c.extractLsb' 10 3 : DieId) = d
  generalize hw : (s.after (actWhen _ _)).after (setF (.syncFault d) f 1) = w
  have hroot : Only { regs := (· = .syncFault d) } s w := by
    subst hw
    exact only_trans (only_after (within_when fun _ => within_setF rfl) (.inr fun _ => id)) (only_after (within_setF rfl) (.inr fun _ => id))
  have hset : w.flag (.syncFault d) f = true := by
    subst hw
    exact flag_setF_syncFault _ d hf
  have hjob : w.job = s.job := hroot.part .job List.not_mem_nil
  have hflt : w.flt = s.flt := hroot.part .flt List.not_mem_nil
  have hraise := only_raiseFault w { code, die := d.toNat, loc := c.toNat }
  subst hd
  exact {
    flag := by rwa [State.flag, State.fget, (hraise fun _ => False).reg _ (by simp [faultScope])]
    faulted := faulted_congr hjob hflt (faulted_raiseFault w _)
    stopping := fun hl => stopping_raiseFault _ _ ((jobLoaded_congr hjob).trans hl)
    waits := fun v => (waits_raiseFault ..).trans (by rw [hroot.tile v id])
    only := only_trans (only_mono hroot (fun _ => .inl) (fun _ _ => trivial) (fun _ => id) (fun _ h => absurd h List.not_mem_nil)) (hraise _) }

/-! ### An increase (R229, R232) -/

/-- A wait after an increase of `c` from `old` past the top. -/
def Wait.stick (c : BitVec 13) (old : Nat) : Wait → Wait
  | .ge d thr => if d = c ∧ old < thr.toNat then .stuck d thr else .ge d thr
  | w => w

theorem waits_stickWaits (s : State) (c : BitVec 13) (old : Nat) (v : TileId) :
    ((s.after (stickWaits c old)).tile v).waits = (s.tile v).waits.map (Wait.stick c old) := by
  have hmap : s.after (stickWaits c old) =
      s.apply (.tiles (s.tiles.map fun p => (p.1, { p.2 with waits := p.2.waits.map (Wait.stick c old) }))) := by
    have hw : Wait.stick c old = fun w => match w with
        | .ge d thr => if d = c ∧ old < thr.toNat then .stuck d thr else w
        | _ => w := by
      funext w; cases w <;> rfl
    rw [hw]; rfl
  rw [hmap]
  exact congrArg Tile.waits (tget_map (fun τ : Tile => { τ with waits := τ.waits.map (Wait.stick c old) }) {} rfl s.tiles v)

theorem only_stickWaits (s : State) (c : BitVec 13) (old : Nat) : Only { tiles := fun _ => True } s (s.after (stickWaits c old)) :=
  only_after (fun e he => by rw [List.mem_singleton.1 he]; exact fun _ => trivial) (.inr fun _ => id)

/-- Counter `c` has been taken past its top: it reads its top, OVF is raised, and a WAIT_GE that the value before does not meet stays waiting. -/
structure Saturated (c : BitVec 13) (s u : State) : Prop where
  reg : u.reg (.syncCnt c) = 0xFFFFFFFF#32
  flag : u.flag (.syncFault (c.extractLsb' 10 3)) F.syncFault_OVF = true
  waits : ∀ v, (u.tile v).waits = (s.tile v).waits.map (Wait.stick c (s.reg (.syncCnt c)).toNat)
  faulted : Faulted { code := 0x85, die := (c.extractLsb' 10 3 : DieId).toNat, loc := c.toNat } s u
  stopping : jobLoaded s = true → Stopping u
  only : Only (faultScope (fun r => r = .syncCnt c ∨ r = .syncFault (c.extractLsb' 10 3)) []) s u

theorem saturated_counterAdd {s : State} {c : BitVec 13} {n : Nat} (h : 2 ^ 32 ≤ (s.reg (.syncCnt c)).toNat + n) :
    Saturated c s (s.after (counterAdd c n)) := by
  simp only [counterAdd, after_get, if_neg (not_lt.2 h), after_all_cons, after_all_nil, after_setReg]
  generalize hw : (s.after (stickWaits c _)).apply (.reg (.syncCnt c) 0xFFFFFFFF) = w
  have hpre : Only { regs := (· = .syncCnt c), tiles := fun _ => True } s w := by
    subst hw
    exact only_trans (only_mono (only_stickWaits ..) (fun _ => False.elim) (fun _ => id) (fun _ => id) fun _ => id)
      (only_apply (by exact rfl) (.inr fun _ => id))
  have hjob : w.job = s.job := hpre.part .job List.not_mem_nil
  have hfault := syncFaulted_syncFault w c (.inr rfl) 0x85
  exact {
    reg := (hfault.only.reg _ (by simp [faultScope])).trans (by rw [← hw, reg_apply_syncCnt]; rfl)
    flag := hfault.flag
    waits := fun v => (hfault.waits v).trans (by rw [← hw, tile_apply_reg, waits_stickWaits])
    faulted := faulted_congr hjob (hpre.part .flt List.not_mem_nil) hfault.faulted
    stopping := fun hl => hfault.stopping ((jobLoaded_congr hjob).trans hl)
    only := only_trans (only_mono hpre (fun _ h => .inl (.inl h)) (fun _ => id) (fun _ => id) fun _ h => absurd h List.not_mem_nil)
      (only_mono hfault.only (fun _ h => h.imp .inr id) (fun _ => id) (fun _ => id) fun _ => id) }

/-- A change of one tile before the increase that leaves its waits does not show in what saturation leaves. -/
theorem Saturated.of_tile {s u : State} {c : BitVec 13} {t : TileId} {τ : Tile} (hτ : τ.waits = (s.tile t).waits)
    (h : Saturated c (s.apply (.tile t τ)) u) : Saturated c s u where
  reg := h.reg
  flag := h.flag
  waits v := (h.waits v).trans (by rw [waits_apply_tile hτ]; rfl)
  faulted := faulted_congr rfl rfl h.faulted
  stopping := h.stopping
  only := only_trans (only_tile_of_fault ..) h.only

theorem after_counterAdd_within {s : State} {c : BitVec 13} {n : Nat} (h : (s.reg (.syncCnt c)).toNat + n < 2 ^ 32) :
    s.after (counterAdd c n) = (s.apply (.reg (.syncCnt c) (BitVec.ofNat 32 ((s.reg (.syncCnt c)).toNat + n)))).after settle := by
  simp only [counterAdd, after_get, if_pos h, after_seq, after_setReg]

section
variable {t : TileId} {s : State} {h : Nat} (ha : canAct s t = true) (hb : barrierReady s = none)
  (hc : ∀ b ∈ s.net.barriers, BitVec.ofNat 13 b.desc.counter ≠ handleOf (s.tile t) h)
include ha hb hc

/-- A command that increases the handle's counter by `k` of its value register, past the top. -/
theorem answers_saturated {i : Instr} {v : Nat} {stepv : Bool} (k : U32 → Nat)
    (hi : exec i s = s.does (syncOp t h v stepv fun c w => actSeq (counterAdd c (k w)) barrierCheck))
    (hn : 2 ^ 32 ≤ (s.reg (.syncCnt (handleOf (s.tile t) h))).toNat + k ((s.tile t).svreg v)) :
    Answers i s (Saturated (handleOf (s.tile t) h) s) := by
  refine answers_of hi ?_
  rw [after_syncOp ha, after_seq]
  have hsat : Saturated (handleOf (s.tile t) h) s
      ((s.apply (.tile t (stepped s t v stepv))).after (counterAdd (handleOf (s.tile t) h) (k ((s.tile t).svreg v)))) :=
    .of_tile (stepped_waits ..) (saturated_counterAdd hn)
  rwa [after_barrierCheck_of_only hsat.only (net_not_mem_faultScope _) (fun b hbs => by simp [faultScope, hc b hbs]) hb]

/-- An ADD whose sum fits the counter, with nothing waiting. -/
theorem answers_add_within (hs : Settled s) (v : Nat) (stepv : Bool)
    (hn : (s.reg (.syncCnt (handleOf (s.tile t) h))).toNat + ((s.tile t).svreg v).toNat % 2 ^ 16 < 2 ^ 32) :
    Answers (.add t h v stepv) s fun u =>
      u.reg (.syncCnt (handleOf (s.tile t) h)) =
        BitVec.ofNat 32 ((s.reg (.syncCnt (handleOf (s.tile t) h))).toNat + ((s.tile t).svreg v).toNat % 2 ^ 16) ∧
      Only { regs := (· = .syncCnt (handleOf (s.tile t) h)), tiles := (· = t) } s u := by
  refine answers_of (exec_add ..) ?_
  rw [after_syncOp ha, after_seq]
  obtain ⟨hwaits, hctl⟩ := settled_tile hs t
  have hset : Settled (s.apply (.tile t (stepped s t v stepv))) := settled_apply_tile hs t _ hwaits hctl
  rw [after_counterAdd_within (by exact hn), after_settle (by exact hset)]
  generalize hu : (s.apply (.tile t (stepped s t v stepv))).apply _ = u
  have honly : Only { regs := (· = .syncCnt (handleOf (s.tile t) h)), tiles := (· = t) } s u := by
    subst hu
    exact only_trans (only_apply (by exact rfl) (.inr fun _ => id)) (only_apply (by exact rfl) (.inr fun _ => id))
  rw [after_barrierCheck_of_only honly List.not_mem_nil (fun b hbs => by simp [hc b hbs]) hb]
  exact ⟨by rw [← hu, reg_apply_syncCnt]; rfl, honly⟩
end

/-! ### A SET that meets a wait (R231) -/

/-- Some tile waits on the counter. -/
def Awaited (s : State) (c : BitVec 13) : Prop := ∃ v thr, .ge c thr ∈ (s.tile v).waits ∨ .stuck c thr ∈ (s.tile v).waits

theorem mem_tiles_of_mem_waits {s : State} {v : TileId} {w : Wait} (h : w ∈ (s.tile v).waits) : (v, s.tile v) ∈ s.tiles := by
  unfold State.tile at h ⊢
  generalize s.tiles = ts at h ⊢
  induction ts with
  | nil => exact absurd h List.not_mem_nil
  | cons p ts ih =>
    obtain ⟨j, τ⟩ := p
    by_cases hj : j = v
    · subst hj; simp [tget]
    · simp only [tget, if_neg hj] at h ⊢
      exact List.mem_cons_of_mem _ (ih h)

theorem waitPending_of_awaited {s : State} {c : BitVec 13} (h : Awaited s c) : waitPending s c = true := by
  obtain ⟨v, thr, h⟩ := h
  refine List.any_eq_true.2 ⟨(v, s.tile v), h.elim mem_tiles_of_mem_waits mem_tiles_of_mem_waits, List.any_eq_true.2 ?_⟩
  rcases h with h | h
  · exact ⟨_, h, decide_eq_true rfl⟩
  · exact ⟨_, h, decide_eq_true rfl⟩

theorem tile_of_mem {s : State} (hn : (tkeys s.tiles).Nodup) {p : TileId × Tile} (hp : p ∈ s.tiles) : s.tile p.1 = p.2 := by
  unfold State.tile
  generalize s.tiles = ts at hn hp
  induction ts with
  | nil => exact absurd hp List.not_mem_nil
  | cons q ts ih =>
    obtain ⟨hq, hn⟩ := List.nodup_cons.1 hn
    rcases List.mem_cons.1 hp with rfl | hp
    · simp [tget]
    · have hne : q.1 ≠ p.1 := fun he => hq (he ▸ List.mem_map_of_mem hp)
      rw [tget, if_neg hne, ih hn hp]

/-- Where the table lists each tile once, a pending wait is one of a tile. -/
theorem awaited_of_waitPending {s : State} {c : BitVec 13} (hn : (tkeys s.tiles).Nodup) (h : waitPending s c = true) : Awaited s c := by
  obtain ⟨p, hp, hw⟩ := List.any_eq_true.1 h
  obtain ⟨w, hw, hc⟩ := List.any_eq_true.1 hw
  rw [← tile_of_mem hn hp] at hw
  refine ⟨p.1, ?_⟩
  cases w with
  | ge d thr => exact ⟨thr, .inl (of_decide_eq_true hc ▸ hw)⟩
  | stuck d thr => exact ⟨thr, .inr (of_decide_eq_true hc ▸ hw)⟩
  | _ => cases hc

/-- R231: a SET that meets the wait of a tile leaves every counter and raises SET_RACE. -/
theorem answers_set_race {s : State} {t : TileId} (ha : canAct s t = true) (hb : barrierReady s = none) (h v : Nat) (stepv : Bool)
    (hw : Awaited s (handleOf (s.tile t) h)) :
    Answers (.set t h v stepv) s fun u => (∀ d, u.reg (.syncCnt d) = s.reg (.syncCnt d)) ∧
      SyncFaulted (handleOf (s.tile t) h) F.syncFault_SET_RACE 0x84 s u := by
  refine answers_of (exec_set ..) ?_
  rw [after_syncOp ha, after_seq]
  generalize hx : s.apply (.tile t (stepped s t v stepv)) = x
  have hwaits : ∀ q, (x.tile q).waits = (s.tile q).waits := fun q => by rw [← hx]; exact waits_apply_tile (stepped_waits ..) q
  have hpend : waitPending x (handleOf (s.tile t) h) = true := by
    obtain ⟨q, thr, hq⟩ := hw
    exact waitPending_of_awaited ⟨q, thr, by rwa [hwaits q]⟩
  have htile : Only (faultScope (· = .syncFault ((handleOf (s.tile t) h).extractLsb' 10 3)) []) s x := by
    rw [← hx]; exact only_tile_of_fault ..
  rw [counterSet, after_if, if_pos hpend]
  have hf := syncFaulted_syncFault x (handleOf (s.tile t) h) (.inl rfl) 0x84
  have honly := only_trans htile hf.only
  have hcnt : ∀ d, (x.after (syncFault (handleOf (s.tile t) h) F.syncFault_SET_RACE 0x84)).reg (.syncCnt d) = s.reg (.syncCnt d) :=
    fun d => honly.reg _ (by simp [faultScope])
  rw [after_barrierCheck_of_only honly (net_not_mem_faultScope _) (fun _ _ => by simp [faultScope]) hb]
  exact ⟨hcnt, {
    flag := hf.flag
    faulted := faulted_congr (by rw [← hx]; rfl) (by rw [← hx]; rfl) hf.faulted
    stopping := fun hl => hf.stopping (by rw [← hx]; exact hl)
    waits := fun q => (hf.waits q).trans (hwaits q)
    only := honly }⟩

/-- R231 as O16 states it, on a state whose table lists each tile once. -/
theorem answers_set_race_of_waitPending {s : State} {t : TileId} (hn : (tkeys s.tiles).Nodup) (ha : canAct s t = true)
    (hb : barrierReady s = none) (h v : Nat) (stepv : Bool) (hw : waitPending s (handleOf (s.tile t) h) = true) :
    Answers (.set t h v stepv) s fun u => (∀ d, u.reg (.syncCnt d) = s.reg (.syncCnt d)) ∧
      SyncFaulted (handleOf (s.tile t) h) F.syncFault_SET_RACE 0x84 s u :=
  answers_set_race ha hb h v stepv (awaited_of_waitPending hn hw)

/-- A table that lists tile 0 twice: the first entry is the tile, and the second, which nothing reads, waits on counter 9. -/
def shadowedWait : State :=
  let τ : Tile := { mode := .run, mid := true, trec := { handles := [9], svInit := [3] } }
  { State.reset with job := { phase := .running }, tiles := [(0, τ), (0, { τ with waits := [.ge 9 1] })] }

/-! ### The obligations -/

/-- Settles O15: INC and ADD past the top by one lemma over the amount, and the increase to the top as a sum that fits. -/
theorem syncCounterPastItsTopSaturates : Obligations.SyncCounterPastItsTopSaturates := by
  intro t s ha
  have hwaits {c : BitVec 13} {u : State} (hu : Saturated c s u) (v : TileId) : (u.tile v).waits = (s.tile v).waits.map fun w =>
      match w with
      | .ge d thr => if d = c ∧ (s.reg (.syncCnt c)).toNat < thr.toNat then .stuck d thr else w
      | _ => w :=
    (hu.waits v).trans (List.map_congr_left fun w _ => by cases w <;> rfl)
  refine ⟨fun h hn hb hc => ?_, fun h v stepv hn hb hc => ?_, fun h v stepv htop hs hb hc => ?_⟩
  · exact answers_imp (answers_saturated ha hb hc (fun _ => 1) (exec_inc t h s) hn) fun u hu =>
      ⟨hu.reg, hu.flag, hwaits hu, hu.faulted, hu.stopping, hu.only⟩
  · exact answers_imp (answers_saturated ha hb hc (fun w => w.toNat % 2 ^ 16) (exec_add t h v stepv s) hn) fun u hu =>
      ⟨hu.reg, hu.flag, hwaits hu, hu.faulted, hu.stopping, hu.only⟩
  · refine answers_imp (answers_add_within ha hb hc hs v stepv (by omega)) fun u hu => ⟨?_, hu.2⟩
    rw [hu.1, htop]

/-- Refutes O16: its premise also counts the waits of a table entry that an earlier entry of the same tile hides.  The slot drops that entry as
it writes its tile, so no wait is pending when the SET acts, and the counter takes the value 3. -/
theorem not_setWhileWaitPendingIsARace : ¬ Obligations.SetWhileWaitPendingIsARace := by
  intro h
  obtain ⟨u, hu, hkeep, -⟩ := h 0 shadowedWait 0 0 false (by decide) (by decide) (by decide)
  injection hu with hu
  have hset : (shadowedWait.after (syncOp 0 0 0 false fun c v => actSeq (counterSet c v) barrierCheck)).reg (.syncCnt 9) = 3 := by
    decide
  have hold : shadowedWait.reg (.syncCnt 9) = 0 := by decide
  have hnew : u.reg (.syncCnt 9) = 3 := hu ▸ hset
  rw [hkeep 9, hold] at hnew
  exact absurd hnew (by decide)

end Sys2Proof.Machine
end
